-- ==== Sys2Proof/Word.lean ====
section
/-! DEFINITION. The words of the device and the shapes of its register file: 32-bit registers (R7), bytes,
sparse memories keyed by address, the access codes of Table SCOPE-6, and the description of one register
heading of the spec. -/
namespace Sys2Proof

/-- A register word: registers are 32 bits wide (R7). -/
abbrev Word := BitVec 32

/-- A byte of a device memory. -/
abbrev Byte := BitVec 8

/-- A sparse memory: key and value pairs, keys strictly rising, no entry equal to what an unlisted key
reads as (`SMap.wf` in Machine/Maps.lean says the form holds). -/
abbrev SMap (α : Type) := List (Nat × α)

/-- One field of one register: the register's bus address, the field's lowest bit and its width. -/
structure RF where
  addr : Nat
  lo   : Nat
  w    : Nat
  deriving DecidableEq, Repr

/-- The access codes of Table SCOPE-6 (R10). -/
inductive Access where
  | ro | rw | wo | w1c | w1s | rcl
  deriving DecidableEq, Repr

/-- One row of a register's field table: lowest bit, width, access code and reset value. -/
structure FieldRow where
  lo    : Nat
  w     : Nat
  acc   : Access
  reset : Nat
  deriving DecidableEq, Repr

/-- One register heading: the first address, the (count, stride) pairs of its indices, widest stride
first, and its fields. -/
structure RegRow where
  base   : Nat
  dims   : List (Nat × Nat)
  fields : List FieldRow
  deriving DecidableEq, Repr

end Sys2Proof
end

