-- ==== Sys2Proof/Operand.lean ====
section
/-! DEFINITION. The operand types of the commands: what the environment (a bus master, a pin, a partner, a
die) tells the device with a command. -/
namespace Sys2Proof

/-- A control-bus requester, with the codes FAB 0x05 gives it (Table ARCH-11). -/
inductive Requester where
  | supervisor | debug | host
  deriving DecidableEq, Repr

/-- The width of a control-bus access (R7: only aligned words reach a register). -/
inductive AccWidth where
  | byte | half | word
  deriving DecidableEq, Repr

/-- What an error-correcting code says of a transferred or read word (R20, R110). -/
inductive Ecc where
  | clean | corrected | uncorrectable
  deriving DecidableEq, Repr

/-- The item kinds a hub command can change (R14): four coded 0x01 to 0x04 in Table ARCH-11, and clock enables, which
the table gives no code. -/
inductive ItemKind where
  | config | power | lane | halt | clock
  deriving DecidableEq, Repr

/-- A controlled item: its kind and its number (a region, a domain, a lane, an engine, or a die's clock enable: die × 128
+ 32 × the place of its register in Table CKC-2 + bit). -/
structure Item where
  kind : ItemKind
  num  : BitVec 9
  deriving DecidableEq, Repr

/-- A bridge channel type, coded 0x00 to 0x02 (Table ARCH-11). -/
inductive Channel where
  | data | config | control
  deriving DecidableEq, Repr

/-- What a configuration or control channel transfer carries: the command of an item, or one of the transfers of R20
that carry none: a control-bus access, a frame of a load or of a Splice, the readback of a scrub slot. -/
inductive BridgeLoad where
  | item (i : Item)
  | access (rq : Requester) (addr : Word) (write : Bool)
  | loadFrame
  | spliceFrame
  | readback (slot : Fin 28872)
  deriving DecidableEq, Repr

/-- Which field of a Cut slot a write addresses (R49). -/
inductive CutReg where
  | tickLo | tickHi | target
  deriving DecidableEq, Repr

/-! ## Continuity -/

/-- The losses of Table CTY-6: no signal, a lane's lock, or a frequency offset beyond the limit. -/
inductive LossCause where
  | noSignal | laneLock | freqLimit
  deriving DecidableEq, Repr

/-- What the detectors give one loop run (R53): the phase error of the time slot over the last second (ps),
its one-second mean where a second has just ended, the sensor temperature T in 1/256 °C (none: the sensor
failed), the phase differences (ps) between old and new slot should a selector switch (R60), the
measured time offset (ps) for an acquisition tick step (R62), and the slots whose frequency offset against the time
clock was measured, with that offset (ppb). -/
structure LoopInput where
  phase   : Option Int
  temp    : Option Int
  diffT   : Int
  diffF   : Int
  offset  : Int
  fofs    : List (Nat × Int)
  deriving DecidableEq, Repr

/-! ## Fabric memory and arithmetic -/

/-- The shapes of a tile RAM (Table MEM-2). -/
inductive RamShape where
  | w40 | w20 | w10 | e32
  deriving DecidableEq, Repr

/-- One port's access to a RAM at one edge: the word address, the data of a write (none: a read), PSN_IN, what the
code of a protected shape finds, the bits an uncorrectable error has flipped, and whether the port has an output register
(OREG, R103). -/
structure PortAccess where
  addr  : BitVec 16
  write : Option (BitVec 40)
  psn   : Bool
  ecc   : Ecc
  flip  : BitVec 40
  oreg  : Bool
  deriving DecidableEq, Repr

/-- The modes of an arithmetic slice (R111, R114, R115). -/
inductive SliceMode where
  | single | complex | dual8
  deriving DecidableEq, Repr

/-- A slice's static options, and its host tile, which Utuno's device model lists (R416). -/
structure SliceConfig where
  mode   : SliceMode
  preAdd : Bool
  cEn    : Bool
  casc   : Bool
  accSat : Bool
  shift  : Fin 58
  width  : Fin 48          -- W − 1
  outSat : Bool
  host   : Fin 7200
  deriving DecidableEq, Repr

/-- A slice's inputs of one cycle (Table MEM-4). In complex mode the low 18 bits of A and of B carry the real and the imaginary
component of the slice's operand (log entry 171). -/
structure SliceInput where
  a      : BitVec 27
  d      : BitVec 27
  b      : BitVec 24
  c      : BitVec 58
  load   : Bool
  sub    : Bool
  preSub : Bool
  conj   : Bool
  psn    : Bool
  deriving DecidableEq, Repr

/-- One cycle of a slice: its options, its inputs, and what arrives on its cascade input. -/
structure SliceCycle where
  cfg     : SliceConfig
  inp     : SliceInput
  pcin    : BitVec 58
  pcinPsn : Bool
  deriving DecidableEq, Repr

/-- The memories that a march engine tests. -/
inductive MemKind where
  | tile | deep | scratchpad | callSheet
  deriving DecidableEq, Repr

/-- A read of a march run that returned other bits than were last written: the memory, the test word, the background (true: the
alternating one), the element of the March C− sequence, and what it returned, check bits and poison bit included (R118). -/
structure MarchRead where
  kind  : MemKind
  index : BitVec 12
  addr  : BitVec 16
  bg    : Bool
  elem  : Fin 6
  got   : BitVec 1024
  deriving DecidableEq, Repr

/-- An error found in a word that a preserving run has saved (Table MEM-7). -/
structure SavedError where
  kind  : MemKind
  index : BitVec 12
  addr  : BitVec 16
  ecc   : Ecc
  deriving DecidableEq, Repr

/-! ## Signal engines -/

/-- What the memory code finds in the elements of one access, lane by lane (R147): corrected and uncorrectable. -/
structure LaneErrs where
  ce : BitVec 32
  ue : BitVec 32
  deriving DecidableEq, Repr

/-- What the memories give one issue cycle: the check of the fetched bundle, whether the repeat cache's check failed
(R142), and the errors of the X and Y accesses. -/
structure IssueEnv where
  fetch    : Ecc
  cacheBad : Bool
  x        : LaneErrs
  y        : LaneErrs
  deriving DecidableEq, Repr

/-- A 512-bit stream word with its 16 poison bits. -/
structure StreamWord where
  x : BitVec 512
  p : BitVec 16
  deriving DecidableEq, Repr

/-- The two engine memories with an external write port (R132). -/
inductive EngineRam where
  | coefficient | program
  deriving DecidableEq, Repr

/-- The registers of an address generator, coded as MTAG and MFAG name them (Table SE-6). -/
inductive AgReg where
  | base | ofs | mod
  deriving DecidableEq, Repr

/-! ## Serial lanes -/

/-- A block at a lane's owner or on its line: the 2-bit sync header (the low two of 66 line bits in RAW66; unused in
RAW64) and 64 bits. -/
structure LaneBlock where
  hdr  : BitVec 2
  data : BitVec 64
  deriving DecidableEq, Repr

/-- What a sweep of the eye compared (R184): the disagreements at the 64 threshold points and at the 64 phase points. -/
structure EyeCounts where
  threshold : List Nat
  phase     : List Nat
  deriving DecidableEq, Repr

/-- What the sign-sign updates of the equaliser have reached (R186): the 12 taps, tap 0 in the low byte, and the
sampling phase. -/
structure EqValues where
  dfe   : BitVec 96
  phase : BitVec 8
  deriving DecidableEq, Repr

/-! ## Ethernet and converter links -/

/-- A frame at a transmit port: its bytes from the destination address, without FCS, whether a word carried poison,
and the sideband of Table ETH-3. -/
structure EthTx where
  bytes   : List Byte
  poison  : Bool
  tsReq   : Bool
  tsTag   : BitVec 16
  oneStep : Bool
  tsOfs   : BitVec 14
  csumOfs : BitVec 14
  deriving DecidableEq, Repr

/-- RS-FEC codewords corrected and beyond correction (R215). -/
structure FecCount where
  corr   : Nat
  uncorr : Nat
  deriving DecidableEq, Repr

/-- The capture of a message timestamp point at the PCS boundary (R205): how far into its tick it lies, in 1/65,536 ns, the
elastic-buffer wait reported with the block, in UI, and for a group the measured deskew of the lane, in 1/65,536 ns. -/
structure StampPoint where
  sub    : BitVec 19
  wait   : BitVec 7
  deskew : Nat
  deriving DecidableEq, Repr

/-- A received frame comes in two parts: its start-of-frame delimiter passes and its header, the first 30 bytes, is parsed
(R205, R208); and it ends, with the bytes after those 30, FCS included, and what the decoders found: a coding error, a
codeword beyond correction that holds some of it, and codeword counts. `isolated`: is the port's region spliced or
isolated (Table ETH-4); `drained`: the bytes that each port R0 to R3 has handed to the fabric since the last frame's end. -/
inductive RxPart where
  | head (stamp : StampPoint) (bytes : List Byte)
  | tail (rest : List Byte) (coding inBad : Bool) (fec : FecCount) (isolated : Bool) (drained : List Nat)
  deriving DecidableEq, Repr

/-- What comes at a transmit port: nothing, some bytes of a frame whose END is still to come, the END of a frame, which
then lies there whole, or the loss of what began, its region being spliced or isolated (R202, Table ETH-4). -/
inductive PortTx where
  | idle
  | words (n : Nat)
  | frame (f : EthTx)
  | cut
  deriving DecidableEq, Repr

/-- Octets that reach a receive link's buffer on one logical lane (R211, R212): does the first open an extended
multiblock, and how far into this tick in 1/256 did it arrive; and does the CRC-12 of the multiblock that starts among
them, or that they belong to, mismatch? -/
structure LinkChunk where
  lane   : Fin 8
  opens  : Option (BitVec 8)
  bad    : Bool
  octets : List Byte
  deriving DecidableEq, Repr

/-- A word at a converter link's transmit port: octets and poison bits, one per 64 bits (R213). -/
structure LinkWord where
  octets : List Byte
  poison : BitVec 16
  deriving DecidableEq, Repr

/-! ## The mesh -/

/-- The key of a root or of a candidate (R225, R229), with its number. -/
structure RootKey where
  num    : BitVec 10
  prio   : BitVec 4
  strap  : BitVec 10
  serial : Word
  deriving DecidableEq, Repr

/-- The root of a neighbour's system, and that system's Slate count on this tick (R229). -/
structure PeerRoot where
  key   : RootKey
  count : BitVec 64
  deriving DecidableEq, Repr

/-- A received packet's header (Table MSH-1), and whether its CRC-32C is right. -/
structure MeshHdr where
  typ    : BitVec 4
  vc     : Bool
  dst    : BitVec 10
  src    : BitVec 10
  seq    : BitVec 12
  len    : BitVec 6
  resv   : BitVec 21
  crcOk  : Bool
  deriving DecidableEq, Repr

/-- What a HELLO packet carries: the neighbour's number, port and serial in training, or a candidacy flooded in SEEK
(R225). -/
inductive HelloBody where
  | hello (num : BitVec 10) (port : Fin 16) (serial : Word)
  | candidate (k : RootKey)
  deriving DecidableEq, Repr

/-- A Clapper (Table MSH-3). -/
structure Clap where
  kind    : BitVec 3
  id      : BitVec 8
  origin  : BitVec 10
  tick    : BitVec 64
  argKind : BitVec 4
  target  : BitVec 16
  data    : BitVec 256
  deriving DecidableEq, Repr

/-- What a CLAPPER packet carries: a Clapper to the root or down the tree, a cancellation, the step of R230 on its way
to the losing root or down from it, a barrier's arrival or its release (R235). -/
inductive ClapBody where
  | clapper (c : Clap)
  | cancel (origin : BitVec 10) (id : BitVec 8)
  | stepAsk (tick : BitVec 64) (dist : BitVec 10) (delta : Int)
  | step (tick : BitVec 64) (delta : Int)
  | arrive (bar : BitVec 4)
  | release (bar : BitVec 4) (id : BitVec 8) (tick : BitVec 64) (timeout : Bool)
  deriving DecidableEq, Repr

/-- A failed Clapper's REPORT (R233). -/
structure ClapReport where
  origin : BitVec 10
  kind   : BitVec 3
  id     : BitVec 8
  status : BitVec 4
  deriving DecidableEq, Repr

/-- One link of a device in a MAP: its port, the neighbour's serial and the neighbour's port. -/
structure MeshAdj where
  port     : Fin 16
  peer     : Word
  peerPort : Fin 16
  deriving DecidableEq, Repr

/-- One device of a MAP: its serial, its strap number, the number it holds if it has one, and its links. -/
structure MeshDev where
  serial : Word
  strap  : BitVec 10
  num    : Option (BitVec 10)
  links  : List MeshAdj
  deriving DecidableEq, Repr

/-- A MAP packet: the root, whether it is the system's first since its election, the system's Slate count on this tick,
and the whole adjacency, the devices of a winning part first. -/
structure MeshMap where
  root  : RootKey
  fresh : Bool
  count : BitVec 64
  devs  : List MeshDev
  deriving DecidableEq, Repr

/-- Who arrives at a barrier: software by a write of MSH_BAR, or user logic at a die's Clapper site. -/
inductive BarSource where
  | write (rq : Requester) (v : Word)
  | site (die : Fin 2) (bar : BitVec 4)
  deriving DecidableEq, Repr

/-! ## DRAM and memory protection -/

/-- A failed training step (R244): step 1 to 7, subchannel and rank. -/
structure TrainFail where
  step : Fin 8
  sub  : Bool
  rank : Bool
  deriving DecidableEq, Repr

/-- A byte lane's drift from its trained value, in 1/64 UI (R245). -/
structure LaneDrift where
  sub  : Bool
  rank : Bool
  lane : Fin 4
  need : Int
  deriving DecidableEq, Repr

/-- The registers of a shadow set (R255). -/
inductive SetReg where
  | rate | ta | tb
  deriving DecidableEq, Repr

/-- What a tree node fetched is found to hold: its level, and a failure or a corrected error (R270, R277). -/
structure NodeEvent where
  level : Fin 9
  bad   : Bool
  deriving DecidableEq, Repr

/-- What decoding a sector's code gives (R268). -/
inductive Bch where
  | clean | corrected (bits : BitVec 8) | uncorrectable
  deriving DecidableEq, Repr

/-- What DRAM gives an access to one sector: the events of the tree nodes fetched, the sector's decoding, whether its tag
differs, and whether a DRAM request of it times out. -/
structure SectorEnv where
  nodes   : List NodeEvent
  bch     : Bch
  tagBad  : Bool
  timeout : Bool
  deriving DecidableEq, Repr

/-- What the engine's caches write back with a command: dirty sectors, and dirty tree nodes by level and index. The
spec gives no replacement policy. -/
structure CacheBack where
  sectors : List (Fin 4 × BitVec 27)
  nodes   : List (Fin 4 × Fin 9 × BitVec 27)
  deriving DecidableEq, Repr

/-! ## Configuration -/

/-- A page in which decoding finds an error (R285). -/
structure PageErr where
  page : BitVec 19
  bch  : Bch
  deriving DecidableEq, Repr

/-- What a start-up march has found (R123): the engines whose scratchpads, and whether the Call Sheet store, the image's MEMORY
sections write, and the reads of each march engine that returned other bits. -/
structure MarchResult where
  engines : BitVec 64
  sheet   : Bool
  reads   : List (Fin 3 × MarchRead)
  deriving DecidableEq, Repr

/-! ## Events and the supervisor -/

/-- How a target claims or completes: through its register, or by a pulse on its fabric site. -/
inductive EvcBy where
  | bus (rq : Requester)
  | site
  deriving DecidableEq, Repr

/-- Core trap causes (Table EVC-1). -/
inductive TrapCause where
  | fetchErr | fetchPoison | loadErr | illegal | align
  deriving DecidableEq, Repr

/-- How a controller transfer of the two-wire interface ends (R351). -/
inductive TwcEnd where
  | acked (data : List Byte) | noAck | arbitration
  deriving DecidableEq, Repr

/-- What an instruction of the supervisor core does beyond its general registers, which the spec does not name: the
vendor's instruction set is not part of it. -/
inductive CoreEffect where
  | plain
  | load (addr : Word)
  | store (addr v : Word)
  | branch (target : Word)
  | moveToDebug (v : Word)
  | moveFromDebug
  | loadReserved (addr : Word)
  | storeConditional (addr v : Word)
  | trap (cause : TrapCause) (addr : Word)
  | eventEnable (b : Bool)
  | nmiReturn
  | waitForEvent
  deriving DecidableEq, Repr

/-! ## What user logic meets in the cycles of a fabric clock -/

/-- A wire that is high in a cycle of a fabric clock, counted from the first edge at or after the Slate tick: an output of a
hard site at a port of its host tile, a pin of general I/O bank `bank`, or the CAP_TRIG input of the die's capture unit. -/
inductive FabricInput where
  | site (die : Fin 2) (tile : Fin 7200) (port : Fin 4) (wire : Nat) (synth : Fin 8) (cycle : Nat)
  | pin (die : Fin 2) (bank : Fin 6) (pin : Fin 48) (synth : Fin 8) (cycle : Nat)
  | capTrig (die : Fin 2) (cycle : Nat)
  deriving DecidableEq, Repr

/-- What the surroundings give in the tick that a Slate tick ends: the wires that are high in the cycles of the fabric clocks, what
the memory code finds as an engine issues in a cycle of the tick (nothing where unlisted), and the words that the receiver of an
engine's stream output takes (none where unlisted). -/
structure TickEnv where
  ins    : List FabricInput
  issues : List (Fin 64 × Nat × IssueEnv)
  takes  : List (Fin 64 × Nat)
  deriving DecidableEq, Repr

/-! ## Control-bus accesses -/

/-- What the surroundings give a control-bus access, beside its address and data: the check of a memory word (R336,
R147), the decoding of a store page (R285), whether a scratchpad has an idle cycle (R130), the words a loader has drained
from its buffer (R302), the counts made in the cycle of the access (R36), the region whose logic attaches a port of the
user window there and the port's answer (R24), what DRAM gives (R268 to R271), what a stepped bundle meets (R365), and the
reads of a march run that failed before its ABORT (R122); the width of the access (R7), and whether a hub-local target gives it no answer (R40). -/
structure BusEnv where
  width    : AccWidth
  silent   : Bool
  ecc      : Ecc
  bch      : Bch
  idle     : Bool
  drained  : BitVec 15
  counted  : Word
  attached : Option (Fin 64)
  ans      : Option Word
  sector   : SectorEnv
  back     : CacheBack
  issue    : IssueEnv
  march    : List MarchRead
  deriving DecidableEq, Repr

/-- What the debug port's access to the core meets: the address of the next instruction at the boundary where the core
halts or after a step, whether it holds a reservation, and what a stepped or fed instruction does, with the surroundings
of its access. -/
structure CoreEnv where
  pc   : Word
  resv : Bool
  eff  : CoreEffect
  bus  : BusEnv
  deriving DecidableEq, Repr

/-- What Tamop finds wrong with a line (Table MON-2). -/
inductive TamopErr where
  | unknown | argument | length
  deriving DecidableEq, Repr

/-! ## Clocks and power -/

/-- The clock-enable registers (Table CKC-2). -/
inductive EnableReg where
  | hub | iface (die : Fin 2) | engines (die : Fin 2) | quads (die k : Fin 2)
  deriving DecidableEq, Repr

/-- Who changes a vote (Table GAF-2): software through GAF_SVOTE, or a fabric vote port by its VOTE inputs. -/
inductive VoteBy where
  | svote (rq : Requester) (v : Word)
  | port (p : Fin 4) (votes : BitVec 30)
  deriving DecidableEq, Repr

/-- What wakes the device (R385). -/
inductive WakeBy where
  | twi | latch | alarm
  deriving DecidableEq, Repr

/-- What the device finds as it starts, at power-good and at a rising edge of RESET_N: the straps, and whether the
on-die random source passes its start-up health test (R275). -/
structure Straps where
  id   : BitVec 10
  lo   : BitVec 3
  boot : BitVec 2
  rng  : Bool
  deriving DecidableEq, Repr

end Sys2Proof
end

