-- ==== Sys2Proof/Syntax.lean ====
section
/-! DEFINITION. The commands: one constructor per row of spec/opcode_table.json, in the table's order. The rows
NOP to DONE are the operations of a signal engine's bundle; their constructors begin with `se`. -/
namespace Sys2Proof

/-- The commands the device takes from outside. -/
inductive Instr where
  /-- SLATE_TICK (R29): The Slate counter advances by one on every fourth time-clock cycle and holds at its all-ones count. -/
  | slateTick (env : TickEnv)
  /-- DLY_TAIL_WRITE (R46): A write of DLY_TAIL frees the oldest records up to the written index, or is ignored if it would pass HEAD. -/
  | dlyTailWrite (rq : Requester) (v : Word)
  /-- REGISTER_WRITE (R10): A control-bus write to a register with no behaviour of its own acts as its access code states, or gets an error response. -/
  | registerWrite (rq : Requester) (addr v : Word) (width : AccWidth) (env : BusEnv)
  /-- HOLDING_LOW_WORD_READ (R31): A read of a low word such as SLT_NOW_LO returns bits [31:0] and copies the high word into its holding register. -/
  | holdingLowWordRead (rq : Requester) (addr : Word) (width : AccWidth)
  /-- READ_CLEAR (R36): A read of an RCL field returns its value and clears it, keeping an increment made in the same cycle. -/
  | readClear (rq : Requester) (addr : Word) (counted : Word) (width : AccWidth)
  /-- CONTROL_BUS_TIMEOUT (R40): A hub-local control-bus transaction unanswered after 4,096 D4 cycles gets an error response, its target queue is flushed and DLY 0x04 is logged. -/
  | controlBusTimeout (rq : Requester) (addr : Word) (write : Bool)
  /-- HUB_COMMAND (R14): The hub sends a command to a fabric die agent to change a controlled item. -/
  | hubCommand (item : Item)
  /-- COMMAND_ACK (R16): The agent's acknowledgement ends the outstanding state of a hub command. -/
  | commandAck (item : Item)
  /-- BRIDGE_REQUEST_TIMEOUT (R16): A configuration or control channel request unanswered for 2 µs logs FAB 0x03, and its item is treated as mismatched. -/
  | bridgeRequestTimeout (die : Fin 2) (chan : Channel) (load : BridgeLoad)
  /-- AGENT_REPORT (R15): An agent report of a controlled item is compared with the hub's record. -/
  | agentReport (item : Item) (value : Option Byte)
  /-- BRIDGE_TRANSFER (R20): A bridge transfer unit is checked by ECC and delivered corrected, delivered poisoned, or discarded. -/
  | bridgeTransfer (die : Fin 2) (chan : Channel) (num : Fin 15) (toHub : Bool) (ecc : Ecc) (load : BridgeLoad) (data : List Byte)
  /-- TIME_WIRE_MEASUREMENT (R21): Once per second the hub measures the flight time of the time wires and corrects changes in 5 ps steps. -/
  | timeWireMeasurement (die : Fin 2) (ps : Int)
  /-- USER_WINDOW_ACCESS (R24): A control-bus access to the user window is passed to the attached fabric port, or gets an error response. -/
  | userWindowAccess (rq : Requester) (die : Fin 2) (ofs : BitVec 26) (write : Bool) (data : Word) (attached : Option (Fin 64)) (ans : Option Word)
  /-- FABRIC_PORT_TIMEOUT (R24): A fabric port that does not answer within 10 µs yields an error response and FAB 0x05. -/
  | fabricPortTimeout (die : Fin 2)
  /-- USER_CUT_ARM (R49): A write of SLT_CUT_CTL.ARM requests a USER Cut at the slot's tick and TARGET. -/
  | userCutArm (rq : Requester) (v : Word)
  /-- CUT_SLOT_RESERVE (R49): A write of SLT_CUT_TICK_LO, SLT_CUT_TICK_HI or TARGET to a FREE slot takes effect and reserves the slot. -/
  | cutSlotReserve (rq : Requester) (which : CutReg) (v : Word)
  /-- CUT_CANCEL (R43): A write of SLT_CUT_CTL.CANCEL cancels an armed Cut before T − 64, frees a DONE or FAILED slot, or ends a reservation. -/
  | cutCancel (rq : Requester) (v : Word)
  /-- CUT_SITE_ARM (R50): User logic raises ARM on a Cut site to request a USER Cut in the lowest free unreserved slot. -/
  | cutSiteArm (die : Fin 2) (port : BitVec 4) (time : BitVec 64)
  /-- CUT_SITE_ACK (R50): The Cut site raises ACK with STATUS and SLOT in the TICK cycle after the request is sampled. -/
  | cutSiteAck (die : Fin 2)
  /-- CUT_CONFIRM (R43): A unit touched by a Cut confirms to the hub that it has staged its new state. -/
  | cutConfirm (slot : Fin 32)
  /-- CUT_PREPARE (R43): At tick T − 64 a Cut moves to PREPARED if every confirmation is present, and otherwise to FAILED with TIMEOUT. -/
  | cutPrepare
  /-- CUT_EXECUTE (R44): A PREPARED Cut executes on tick T, and Cuts of one tick run in kind then slot order. -/
  | cutExecute
  /-- SLATE_STEP (R230): On tick S every device of a losing part adds Δ to its Slate count, cancels pending Clappers and Clapper-armed Cuts, and logs SLT 0x04. -/
  | slateStep
  /-- LOOP_RUN (R53): Every 1 ms the Continuity loop, the reference selectors and the holdover prediction run and apply a new frequency correction. -/
  | loopRun (inp : LoopInput)
  /-- PTP_OFFSET_WRITE (R52): A write of CTY_PTP_OFS commits one offset sample to the slot named in CTY_PTP_META, or discards it with CTY 0x0B. -/
  | ptpOffsetWrite (rq : Requester) (v : Word)
  /-- PTP_PHASE_SAMPLE (R52): At each second boundary the PTP slot takes the median of the second's offsets as its phase sample. -/
  | ptpPhaseSample (n : Fin 8)
  /-- REF_SLOT_ENABLE (R51): A write enabling a slot on a source already held by an enabled slot is ignored and CTY 0x0F is logged. -/
  | refSlotEnable (rq : Requester) (n : Fin 8) (v : Word)
  /-- LO_FAILURE (R57): LO_IN more than 1,000 ppm off for 1 ms moves the synthesiser onto the crystal, sets LO_FAIL and logs CTY 0x0A. -/
  | loFailure (ppm : Int) (forNs : Nat)
  /-- SLOT_LOS (R58): A slot's loss condition of Table CTY-6 puts it in LOS and logs CTY 0x03 or 0x04. -/
  | slotLos (n : Fin 8) (cause : LossCause)
  /-- SLOT_LOSS_CLEAR (R58): A slot in LOS whose loss condition clears moves to QUALIFYING. -/
  | slotLossClear (n : Fin 8)
  /-- SLOT_QUALIFIED (R58): A slot becomes QUALIFIED after QUAL_TIME seconds without loss. -/
  | slotQualified (n : Fin 8)
  /-- WAIT_TO_RESTORE (R59): A better slot in WAIT is selected after WTR seconds of unbroken qualification in revertive mode. -/
  | waitToRestore (diffT diffF : Int)
  /-- TOD_SET_WRITE (R62): A write of CTY_TOD_SET requests a step of MAP_SEC by whole seconds. -/
  | todSetWrite (rq : Requester) (v : Word)
  /-- TOD_STEP (R62): At the next second boundary MAP_SEC moves by the requested step, TOD_STEP sets and CTY 0x06 is logged. -/
  | todStep
  /-- MODEL_SAMPLE (R63): Each LOCKED second yields a model sample, which enters the model 16 s later if the device stayed LOCKED. -/
  | modelSample
  /-- MODEL_REFIT (R64): Every 60 s the oscillator model is refitted in two passes. -/
  | modelRefit
  /-- MODEL_CLEAR (R57): A write of CTY_MDL_CTL.CLEAR erases the model, clears MDL_VALID and LO_FAIL and logs CTY 0x0C. -/
  | modelClear (rq : Requester) (v : Word)
  /-- MODEL_FREEZE (R65): Setting FREEZE stops refits and enables model parameter writes. -/
  | modelFreeze (rq : Requester) (v : Word)
  /-- MODEL_UNFREEZE (R65): Clearing FREEZE resumes learning and sets MDL_VALID for a restored model. -/
  | modelUnfreeze (rq : Requester) (v : Word)
  /-- MODEL_PARAM_WRITE (R65): A write of CTY_MDL_VAL_HI after LO writes the selected model parameter while FREEZE is set. -/
  | modelParamWrite (rq : Requester) (lo hi : Word)
  /-- EXT_SENSOR_POLL (R76): Once per second the external temperature sensor is read over the two-wire controller port. -/
  | extSensorPoll (ans : Option (BitVec 16))
  /-- PPS_OUT_EDGE (R70): PPS_OUT rises on each second boundary shifted by CTY_PPS_DLY. -/
  | ppsOutEdge
  /-- SYSREF_PULSE (R72): SYSREF_OUTs pulses on each qualifying Slate tick for WIDTH ticks. -/
  | sysrefPulse (n : Fin 8)
  /-- SYSREF_GAPPED_START (R72): A write of MODE = 2 starts a burst of COUNT pulses at the first qualifying tick at least 4,096 ticks later. -/
  | sysrefGappedStart (rq : Requester) (n : Fin 8) (v : Word)
  /-- TEM_START (R74): A write of CTY_TEM_CTL.START begins a time error measurement window. -/
  | temStart (rq : Requester) (v : Word)
  /-- TEM_SAMPLE (R74): Once per second point B is measured against point A, and DONE is set after WINDOW seconds. -/
  | temSample (phases : List (Fin 8 × Int))
  /-- PPS_IN_EDGE (R76): A PPS_IN edge is taken as a phase sample, or is rejected as extra, outside the window or too short. -/
  | ppsInEdge (n : Fin 8) (widthNs : Nat) (subPs : Int)
  /-- TOD_RX_BYTE (R76): A TOD_RX byte enters the FIFO, or is dropped with FERR or OVR on a framing error or overrun. -/
  | todRxByte (b : Byte) (framing : Bool)
  /-- TODRX_READ (R76): A read of CTY_TODRX returns and removes the oldest byte of the FIFO. -/
  | todrxRead (rq : Requester)
  /-- PROBE_SELECT_WRITE (R94): A write of FAB_PRB_SELn selects a probed cell, or is refused with FAB 0x06. -/
  | probeSelectWrite (rq : Requester) (die : Fin 2) (n : Fin 64) (v : Word)
  /-- CAPTURE_ARM (R97): A write of FAB_CAP_CTL.ARM checks POST and the trigger and enters ARMED, or ends at once. -/
  | captureArm (rq : Requester) (die : Fin 2) (v : Word)
  /-- CAPTURE_SWTRIG (R97): A write of FAB_CAP_CTL.SWTRIG triggers an ARMED capture. -/
  | captureSwtrig (rq : Requester) (die : Fin 2) (v : Word)
  /-- CAPTURE_TRIGGER (R97): A pattern, Slate tick or fabric trigger moves the capture to TRIGGERED and stores the trigger sample. -/
  | captureTrigger (die : Fin 2) (cycle : Nat) (ins : List FabricInput)
  /-- CAPTURE_DONE (R97): After POST samples the capture enters DONE and logs FAB 0x07. -/
  | captureDone (die : Fin 2) (cycle : Nat) (ins : List FabricInput)
  /-- CAPTURE_ABORT (R97): A write of FAB_CAP_CTL.ABORT ends an ARMED or TRIGGERED capture with ABORT and logs FAB 0x08. -/
  | captureAbort (rq : Requester) (die : Fin 2) (v : Word)
  /-- TILE_RAM_ACCESS (R105): A tile RAM port captures a read or write, with same-word collisions resolved by Table MEM-3. -/
  | tileRamAccess (die : Fin 2) (ram : Fin 2560) (shape : RamShape) (portA portB : Option PortAccess)
  /-- QUEUE_PUSH (R107): A push stores its word, or is discarded with OVF when FULL is high. -/
  | queuePush (die : Fin 2) (ram : Fin 2560) (shape : RamShape) (data : BitVec 40) (pops : List Nat)
  /-- QUEUE_POP (R107): A pop delivers the oldest word with VALID, or zero with UNF when EMPTY is high. -/
  | queuePop (die : Fin 2) (ram : Fin 2560) (shape : RamShape) (oreg : Bool) (pushes : List Nat)
  /-- DEEP_RAM_ACCESS (R109): A deep RAM accepts one read or write per edge in capture order. -/
  | deepRamAccess (die : Fin 2) (ram : Fin 128) (port : PortAccess)
  /-- SLICE_OPERATION (R111): An arithmetic slice accumulates its operands in stage 4 and narrows, rounds and saturates the result. -/
  | sliceOperation (die : Fin 2) (n : Fin 6144) (c : SliceCycle) (mate : SliceCycle)
  /-- MARCH_START (R120): A write of FAB_MT_CTL.START begins a destructive or preserving march run, or ends it at once with ACCESS or DONE. -/
  | marchStart (rq : Requester) (eng : Fin 3) (v : Word)
  /-- MARCH_WINDOW_END (R121): A preserving run restores its 8-word window, and held accesses complete with the restored data. -/
  | marchWindowEnd (eng : Fin 3) (errs : List SavedError) (reads : List MarchRead)
  /-- MARCH_DONE (R122): A run ends when every selected word is tested, recording failures and logging FAB 0x0E. -/
  | marchDone (eng : Fin 3) (errs : List SavedError) (reads : List MarchRead)
  /-- MARCH_ABORT (R122): A write of FAB_MT_CTL.ABORT ends a destructive run, or a preserving run after its window is restored. -/
  | marchAbort (rq : Requester) (eng : Fin 3) (v : Word) (reads : List MarchRead)
  /-- NOP (R140): A NOP in any slot does nothing. -/
  | seNop (n : Fin 64)
  /-- ADD (R140): The S slot sets sd to sa plus sb. -/
  | seAdd (n : Fin 64) (sd sa sb : Fin 16)
  /-- SUB (R140): The S slot sets sd to sa minus sb. -/
  | seSub (n : Fin 64) (sd sa sb : Fin 16)
  /-- AND (R140): The S slot sets sd to sa AND sb. -/
  | seAnd (n : Fin 64) (sd sa sb : Fin 16)
  /-- OR (R140): The S slot sets sd to sa OR sb. -/
  | seOr (n : Fin 64) (sd sa sb : Fin 16)
  /-- XOR (R140): The S slot sets sd to sa XOR sb. -/
  | seXor (n : Fin 64) (sd sa sb : Fin 16)
  /-- SHL (R140): The S slot shifts sa left by sb[4:0] into sd. -/
  | seShl (n : Fin 64) (sd sa sb : Fin 16)
  /-- SHR (R140): The S slot shifts sa right logically by sb[4:0] into sd. -/
  | seShr (n : Fin 64) (sd sa sb : Fin 16)
  /-- SAR (R140): The S slot shifts sa right arithmetically by sb[4:0] into sd. -/
  | seSar (n : Fin 64) (sd sa sb : Fin 16)
  /-- MUL (R140): The S slot sets sd to the low 32 bits of sa times sb. -/
  | seMul (n : Fin 64) (sd sa sb : Fin 16)
  /-- CMP (R140): The S slot sets Z and N from sa minus sb. -/
  | seCmp (n : Fin 64) (sa sb : Fin 16)
  /-- ADDI (R140): The S slot sets sd to sa plus the signed immediate. -/
  | seAddi (n : Fin 64) (sd sa : Fin 16) (imm : BitVec 15)
  /-- CMPI (R140): The S slot sets Z and N from sa minus the immediate. -/
  | seCmpi (n : Fin 64) (sa : Fin 16) (imm : BitVec 15)
  /-- MOVL (R140): The S slot loads a zero-extended 16-bit immediate into sd. -/
  | seMovl (n : Fin 64) (sd : Fin 16) (imm : BitVec 16)
  /-- MOVH (R140): The S slot loads a 16-bit immediate into the high half of sd. -/
  | seMovh (n : Fin 64) (sd : Fin 16) (imm : BitVec 16)
  /-- MTAG (R134): The S slot writes an address generator register from sa, trapping POISON on a poisoned source. -/
  | seMtag (n : Fin 64) (ag : Fin 4) (r : AgReg) (sa : Fin 16)
  /-- MFAG (R134): The S slot reads an address generator register into sd. -/
  | seMfag (n : Fin 64) (sd : Fin 16) (ag : Fin 4) (r : AgReg)
  /-- RDT (R140): The S slot reads a time bus item into sd. -/
  | seRdt (n : Fin 64) (sd : Fin 16) (item : Fin 4)
  /-- LDV (R134): The X slot loads 32 scratchpad elements into a vector register through an address generator. -/
  | seLdv (n : Fin 64) (ag : Fin 4) (vd : Fin 32) (pm : Bool) (errs : LaneErrs)
  /-- STV (R134): The X slot stores a vector register with its lane poison to the scratchpad. -/
  | seStv (n : Fin 64) (ag : Fin 4) (vs : Fin 32) (pm : Bool)
  /-- LDB (R134): The X slot broadcasts one scratchpad element to all lanes of a vector register. -/
  | seLdb (n : Fin 64) (ag : Fin 4) (vd : Fin 32) (pm : Bool) (errs : LaneErrs)
  /-- LDX (R134): The X slot loads one scratchpad element into a scalar register. -/
  | seLdx (n : Fin 64) (ag : Fin 4) (sd : Fin 16) (pm : Bool) (errs : LaneErrs)
  /-- STX (R134): The X slot stores a scalar register as one scratchpad element. -/
  | seStx (n : Fin 64) (ag : Fin 4) (sr : Fin 16) (pm : Bool)
  /-- LDY (R134): The Y slot loads 32 coefficient elements into a vector register. -/
  | seLdy (n : Fin 64) (ag : Fin 4) (vd : Fin 32) (pm : Bool) (errs : LaneErrs)
  /-- LDYB (R134): The Y slot broadcasts one coefficient element to all lanes. -/
  | seLdyb (n : Fin 64) (ag : Fin 4) (vd : Fin 32) (pm : Bool) (errs : LaneErrs)
  /-- VMUL (R136): The V slot sets an accumulator set to the lane-wise complex product. -/
  | seVmul (n : Fin 64) (acc : Fin 4) (va vb : Fin 32) (conj : Bool)
  /-- VMAC (R136): The V slot adds the lane-wise complex product to an accumulator set. -/
  | seVmac (n : Fin 64) (acc : Fin 4) (va vb : Fin 32) (conj : Bool)
  /-- VMSB (R136): The V slot subtracts the lane-wise complex product from an accumulator set. -/
  | seVmsb (n : Fin 64) (acc : Fin 4) (va vb : Fin 32) (conj : Bool)
  /-- VADD (R137): The V slot adds two vectors, scaled and optionally saturated. -/
  | seVadd (n : Fin 64) (vd va vb : Fin 32) (sat sh : Bool)
  /-- VSUB (R137): The V slot subtracts two vectors, scaled and optionally saturated. -/
  | seVsub (n : Fin 64) (vd va vb : Fin 32) (sat sh : Bool)
  /-- VMOV (R140): The V slot copies one vector register to another. -/
  | seVmov (n : Fin 64) (vd va : Fin 32)
  /-- VCMUL (R137): The V slot writes the narrowed complex product of two vectors. -/
  | seVcmul (n : Fin 64) (vd va vb : Fin 32) (conj sat sh : Bool)
  /-- VBFLY (R139): The V slot performs 32 radix-2 butterflies with twiddles at the lane distance DIST. -/
  | seVbfly (n : Fin 64) (vd va vb vc : Fin 32) (dist : Fin 6) (conj sat sh : Bool)
  /-- SLD_LO (R145): The M slot loads the next input stream word into lanes 0–15, trapping STREAM if none is stored. -/
  | seSldLo (n : Fin 64) (vd : Fin 32)
  /-- SLD_HI (R145): The M slot loads the next input stream word into lanes 16–31. -/
  | seSldHi (n : Fin 64) (vd : Fin 32)
  /-- SST_LO (R145): The M slot places lanes 0–15 in the output buffer, trapping STREAM if it is full. -/
  | seSstLo (n : Fin 64) (va : Fin 32)
  /-- SST_HI (R145): The M slot places lanes 16–31 in the output buffer. -/
  | seSstHi (n : Fin 64) (va : Fin 32)
  /-- VNAR (R137): The M slot narrows an accumulator set by the immediate shift with saturation. -/
  | seVnar (n : Fin 64) (vd : Fin 32) (acc : Fin 4) (k : Fin 32)
  /-- VNARS (R138): The M slot narrows an accumulator set by a shift held in a scalar register. -/
  | seVnars (n : Fin 64) (vd : Fin 32) (acc : Fin 4) (sk : Fin 16)
  /-- VEXPL (R138): The M slot writes per-lane exponents of an accumulator set. -/
  | seVexpl (n : Fin 64) (vd : Fin 32) (acc : Fin 4)
  /-- VEXPB (R138): The M slot writes the block exponent of an accumulator set to a scalar register. -/
  | seVexpb (n : Fin 64) (sd : Fin 16) (acc : Fin 4)
  /-- VNORM (R138): The M slot normalises a vector and writes the shift to a scalar register. -/
  | seVnorm (n : Fin 64) (vd va : Fin 32) (sk : Fin 16)
  /-- VSAT (R140): The M slot clamps a vector to −2^K to 2^K − 1. -/
  | seVsat (n : Fin 64) (vd va : Fin 32) (k : Fin 32)
  /-- REP (R142): The C slot repeats the following bundles from the repeat cache a scalar count of times. -/
  | seRep (n : Fin 64) (len : Fin 32) (cnt : Fin 8)
  /-- BR (R141): The C slot branches relative, costing two issue-free cycles. -/
  | seBr (n : Fin 64) (ofs : BitVec 8)
  /-- BRZ (R141): The C slot branches if Z, trapping POISON on a poisoned flag. -/
  | seBrz (n : Fin 64) (ofs : BitVec 8)
  /-- BRNZ (R141): The C slot branches if not Z. -/
  | seBrnz (n : Fin 64) (ofs : BitVec 8)
  /-- JMPS (R141): The C slot branches to an address held in a scalar register. -/
  | seJmps (n : Fin 64) (sr : Fin 8)
  /-- KICK (R154): The C slot advances the engine's mover TAIL, or is refused with DLM 0x03 when the ring is full. -/
  | seKick (n : Fin 64)
  /-- SEND (R145): The C slot closes the output symbol so that it passes to the receiver. -/
  | seSend (n : Fin 64)
  /-- EVT (R140): The C slot raises the engine's event source and sets SE_EVT.CODE. -/
  | seEvt (n : Fin 64) (code : BitVec 8)
  /-- BRK (R140): The C slot makes the engine enter HALTED after its bundle. -/
  | seBrk (n : Fin 64)
  /-- DONE (R143): The C slot ends the operation, closes and discards stream symbols and reports completion four cycles later. -/
  | seDone (n : Fin 64)
  /-- ENGINE_HALT (R155): Setting SE_CTL.HALT stops the engine at the next bundle boundary once writes in flight land. -/
  | engineHalt (rq : Requester) (n : Fin 64) (v : Word)
  /-- ENGINE_HALT_RELEASE (R155): Clearing SE_CTL.HALT releases a halted engine. -/
  | engineHaltRelease (rq : Requester) (n : Fin 64) (v : Word)
  /-- ENGINE_STEP (R365): A write of SE_CTL.STEP while HALTED issues one bundle and halts again. -/
  | engineStep (rq : Requester) (n : Fin 64) (v : Word) (env : IssueEnv)
  /-- ENGINE_RESUME (R150): A write of SE_CTL.RESUME returns a TRAPPED engine to IDLE or to HALTED. -/
  | engineResume (rq : Requester) (n : Fin 64) (v : Word)
  /-- STREAM_SYMBOL_IN (R144): The input buffer accepts a symbol's START word when L words are free, or refuses it with LENGTH. -/
  | streamSymbolIn (n : Fin 64) (words : List StreamWord)
  /-- SCRATCHPAD_ACCESS (R130): A control-bus access to a scratchpad is served in an idle X cycle. -/
  | scratchpadAccess (rq : Requester) (n : Fin 64) (elem : BitVec 16) (write : Bool) (data : Word) (idle : Bool) (ecc : Ecc)
  /-- SCRATCHPAD_ACCESS_TIMEOUT (R131): A scratchpad access with no idle cycle within 2 µs gets an error response and logs SE 0x07. -/
  | scratchpadAccessTimeout (rq : Requester) (n : Fin 64) (elem : BitVec 16) (write : Bool)
  /-- ENGINE_RAM_EXT_WRITE (R132): A control-bus or mover write to coefficient or program RAM goes through the external write port. -/
  | engineRamExtWrite (rq : Requester) (n : Fin 64) (ram : EngineRam) (word : BitVec 14) (data : Word)
  /-- DLM_TAIL_WRITE (R154): A write of DLM_TAIL sets the end of the descriptors to serve. -/
  | dlmTailWrite (rq : Requester) (n : Fin 64) (v : Word)
  /-- DESCRIPTOR_START (R151): A mover starts the descriptor at HEAD once EN is set and its AFTER tick is reached, checking it in order. -/
  | descriptorStart (n : Fin 64) (assigned : Bool) (errs : SMap Bool) (envs : List SectorEnv) (back : CacheBack)
  /-- DESCRIPTOR_COMPLETE (R152): A descriptor writes its destination whole, records STATUS and advances HEAD. -/
  | descriptorComplete (n : Fin 64) (envs : List SectorEnv) (back : CacheBack)
  /-- MOVER_RESUME (R153): A write of DLM_CTL.RESUME lets a HALTED mover continue with its next descriptor. -/
  | moverResume (rq : Requester) (n : Fin 64) (v : Word)
  /-- CALL_SHEET_ENTRY_WRITE (R158): A write to a Call Sheet entry takes effect in a FREE bank, or is refused with CSH 0x09. -/
  | callSheetEntryWrite (rq : Requester) (entry : BitVec 19) (word : Fin 4) (v : Word)
  /-- SCHEDULE_CUT_ARM (R161): A write of CSH_CUT_CTL.ARM requests a SCHEDULE Cut, staging the bank and starting its check. -/
  | scheduleCutArm (rq : Requester) (v : Word)
  /-- SCHEDULE_CUT_CANCEL (R43): A write of CSH_CUT_CTL.CANCEL cancels the armed SCHEDULE Cut and frees the bank. -/
  | scheduleCutCancel (rq : Requester) (v : Word)
  /-- BANK_STAGING_CHECK_END (R161): The staging check ends, confirming the Cut for a valid bank or capturing the invalid entry with CSH 0x07. -/
  | bankStagingCheckEnd (ue : Option (BitVec 18))
  /-- PERIOD_BOUNDARY (R163): At each period boundary entries not issued or skipped expire and mover counts restart. -/
  | periodBoundary
  /-- ENTRY_FETCH (R164): The scheduler fetches four entries per tick into the engines' ready lists, stalling on a full list. -/
  | entryFetch (ecc : List Ecc)
  /-- OPERATION_ISSUE (R166): A list head whose conditions hold issues to its engine, which loads its program counter and registers. -/
  | operationIssue (n : Fin 64)
  /-- ENTRY_SKIP (R170): A late head is skipped under its LATE mode, releasing its successors and logging CSH 0x02. -/
  | entrySkip (n : Fin 64)
  /-- OPERATION_COMPLETION (R167): An operation's completion is taken at its fixed tick, freeing the engine and the flow. -/
  | operationCompletion (n : Fin 64)
  /-- SUCCESSOR_RELEASE (R168): A successor's predecessor count is decremented one tick after completion, or later through chained LINKs. -/
  | successorRelease (ecc : List Ecc)
  /-- SCHEDULER_STOP (R174): A write of CSH_CTL.STOP stops issue, empties the lists and logs CSH 0x0A. -/
  | schedulerStop (rq : Requester) (v : Word)
  /-- PLL_ENABLE (R179): Setting LNQ_PLLp_CFG.EN starts a quad PLL. -/
  | pllEnable (rq : Requester) (q : Fin 128) (p : Fin 2) (v : Word)
  /-- PLL_DISABLE (R180): Clearing EN stops the PLL, or is refused with LNQ 0x0A while a direction uses it. -/
  | pllDisable (rq : Requester) (q : Fin 128) (p : Fin 2) (v : Word)
  /-- PLL_LOCK (R179): A PLL locks within 50 µs of being enabled. -/
  | pllLock (q : Fin 128) (p : Fin 2)
  /-- PLL_UNLOCK (R182): A PLL losing lock idles its transmit directions, drops receive lock and logs LNQ 0x07. -/
  | pllUnlock (q : Fin 128) (p : Fin 2)
  /-- LANE_POWER_REQUEST (R193): A write of LNQ_Li_PWR requests power states for each direction, at once or at LNQ_Li_AT. -/
  | lanePowerRequest (rq : Requester) (l : Fin 512) (v : Word)
  /-- LANE_REQUEST_EFFECT (R193): A pending lane power request takes effect at its AT tick. -/
  | laneRequestEffect (l : Fin 512)
  /-- LANE_TRANSITION_DONE (R193): A direction completes entry or exit, setting SLEEP_DONE or WAKE_DONE and logging LNQ 0x06. -/
  | laneTransitionDone (l : Fin 512) (rx : Bool)
  /-- CDR_LOCK (R185): A receive direction gains clock-recovery lock and moves to ACQUIRE or resumes TRACK. -/
  | cdrLock (l : Fin 512)
  /-- CDR_LOCK_LOSS (R198): A receive direction loses clock-recovery lock, stops delivery and logs LNQ 0x01. -/
  | cdrLockLoss (l : Fin 512) (sig : Bool)
  /-- ACQUIRE_END (R185): ACQUIRE keeps the best CTLE code and enters TRACK, setting ADAPT_FAIL if the score is below MIN_SCORE. -/
  | acquireEnd (l : Fin 512)
  /-- EYE_SWEEP_END (R184): An eye sweep ends and updates LNQ_Li_EYE. -/
  | eyeSweepEnd (l : Fin 512) (counts : EyeCounts) (eq : Option EqValues)
  /-- BLOCK_LOCK (R189): After 64 consecutive valid headers the receive side sets BLK_LOCK. -/
  | blockLock (l : Fin 512)
  /-- BLOCK_LOCK_LOSS (R189): 16 invalid headers in 64 clear BLK_LOCK and log LNQ 0x02. -/
  | blockLockLoss (l : Fin 512)
  /-- HBER_WINDOW_END (R189): At the end of each HBER_WIN window HI_BER is set or cleared. -/
  | hberWindowEnd (l : Fin 512)
  /-- TXEQ_WRITE (R183): A write of LNQ_Li_TXEQ takes effect at the next block boundary, or is refused. -/
  | txeqWrite (rq : Requester) (l : Fin 512) (v : Word)
  /-- TX_BLOCK (R188): The transmit side sends one whole block per block time from its owner. -/
  | txBlock (l : Fin 512) (blk : Option LaneBlock) (reads : List (BitVec 7))
  /-- RX_BLOCK (R190): The receive side delivers a whole block to its owner through the elastic buffer. -/
  | rxBlock (l : Fin 512) (blk : LaneBlock) (eq : Option EqValues) (reads : List (BitVec 7))
  /-- SLIP (R190): A pulse on SLIP in RAW66 mode moves the word boundary by one bit. -/
  | slip (l : Fin 512)
  /-- LOOPBACK_WRITE (R194): A write of LNQ_Li_TEST.LOOP selects a loopback at the next block boundary. -/
  | loopbackWrite (rq : Requester) (l : Fin 512) (v : Word)
  /-- PATTERN_CHECKER_SYNC (R195): The pattern checker gains or loses sync, logging LNQ 0x09 on loss. -/
  | patternCheckerSync (l : Fin 512)
  /-- INJ (R195): A write of INJ inverts one transmitted bit. -/
  | inj (rq : Requester) (l : Fin 512) (v : Word)
  /-- MAC_ENABLE (R200): A write of ETH_CFG.EN claims the MAC's lanes, or is refused with ETH 0x0A. -/
  | macEnable (rq : Requester) (m : Fin 32) (v : Word)
  /-- RX_FRAME (R201): A received frame is checked whole and delivered to its port with a timestamp, or discarded. -/
  | rxFrame (m : Fin 32) (part : RxPart)
  /-- TX_FRAME (R202): A frame lying whole in the transmit buffer is sent with FCS and padding, or refused with LENGTH. -/
  | txFrame (m : Fin 32) (port : PortTx) (stamp : StampPoint)
  /-- TX_TIMESTAMP (R206): After the last byte of a TS_REQ frame leaves the PCS, the tag and timestamp go to the port and the FIFO. -/
  | txTimestamp (m : Fin 32)
  /-- TXTS_TAG_READ (R206): A read of ETH_TXTS_TAG removes the oldest timestamp entry and holds its timestamp. -/
  | txtsTagRead (rq : Requester) (m : Fin 32)
  /-- LINK_FAULT_CHANGE (R204): Received local or remote fault changes the transmitted fault state and LINK, logging ETH 0x01. -/
  | linkFaultChange (m : Fin 32) (lf rf amLock fecLock : Bool) (fec : FecCount)
  /-- ALIGNMENT_LOSS (R215): A 100G group loses alignment markers, reports local fault and logs ETH 0x09. -/
  | alignmentLoss (m : Fin 32) (mask : BitVec 4) (fec : FecCount)
  /-- LINK_ENABLE (R209): A write of JLK_CFG.EN checks the link's lanes and parameters and enters ALIGN, or refuses. -/
  | linkEnable (rq : Requester) (j : Fin 32) (v : Word)
  /-- EMB_LOCK (R211): Once every lane has block and extended multiblock lock the receive link enters WAIT_LEMC. -/
  | embLock (j : Fin 32)
  /-- LEMC_BOUNDARY (R211): At an LEMC boundary a waiting link enters RUN. -/
  | lemcBoundary (j : Fin 32)
  /-- RX_LINK_WORD (R211): In RUN the receive link delivers one word per Slate tick released RBD ticks after its boundary. -/
  | rxLinkWord (j : Fin 32) (chunks : List LinkChunk)
  /-- EMB_LOCK_LOSS (R212): Loss of extended multiblock lock on a lane returns the link to ALIGN and logs JLK 0x05. -/
  | embLockLoss (j : Fin 32) (lane : Fin 8)
  /-- TX_LINK_WORD (R213): The word presented in a TICK cycle enters the transmit lanes two ticks later. -/
  | txLinkWord (j : Fin 32) (word : Option LinkWord)
  /-- MESH_PORT_ENABLE (R218): Setting MSH_PORTp_CFG.EN turns the lanes on and enters TRAINING, or refuses with cause CONFIG. -/
  | meshPortEnable (rq : Requester) (p : Fin 16) (v : Word)
  /-- HELLO (R219): A HELLO packet is exchanged with the neighbour during training. -/
  | hello (p : Fin 16) (h : MeshHdr) (b : HelloBody)
  /-- DELAY_EXCHANGE_START (R219): A port starts a delay exchange every 2,048 ticks in training and every 245,760 ticks when UP. -/
  | delayExchangeStart (p : Fin 16)
  /-- DELAY (R223): A DELAY packet is timestamped and yields the link delay and neighbour offset. -/
  | delay (p : Fin 16) (h : MeshHdr) (roundTrip diff : Int) (time : Word)
  /-- LINK_UP (R219): A trained link with short enough link time enters UP. -/
  | linkUp (p : Fin 16) (peer : Option PeerRoot)
  /-- ACK (R220): An ACK packet releases acknowledged packets from the replay buffer. -/
  | ack (p : Fin 16) (h : MeshHdr)
  /-- NAK (R220): A NAK packet makes the sender resend. -/
  | nak (p : Fin 16) (h : MeshHdr)
  /-- REPLAY_TIMEOUT (R220): A packet unacknowledged for 8 µs is resent, and after 16 resends the link goes DOWN with RETRY. -/
  | replayTimeout (p : Fin 16)
  /-- HOLD_END (R222): A link held for flapping is released after 245,760,000 ticks. -/
  | holdEnd (p : Fin 16)
  /-- CREDIT (R221): A CREDIT packet grants credits for a VC. -/
  | credit (p : Fin 16) (h : MeshHdr) (vc : Bool) (units : Nat)
  /-- SETTLE_EXPIRY (R225): When no better candidate is heard for SETTLE ms, the winner enters ROOT and the others MEMBER. -/
  | settleExpiry
  /-- MAP (R227): A MAP packet makes each device rebuild its tree and routing table. -/
  | map (source : Option (Fin 16 × MeshHdr)) (m : MeshMap) (diff : Int)
  /-- BEAT_SEND (R228): The root sends a BEAT on every tick that is a multiple of 245,760. -/
  | beatSend
  /-- BEAT (R228): A member receives the root's BEAT. -/
  | beat (p : Fin 16) (h : MeshHdr) (k : RootKey) (tick : BitVec 64)
  /-- ROOT_LOST (R228): A member missing three BEATs declares the root lost after M ticks and enters SEEK. -/
  | rootLost
  /-- BROADCAST_CLAPPER (R232): A GO with KIND 1 originates a BROADCAST Clapper, or is refused. -/
  | broadcastClapper (rq : Requester) (v : Word)
  /-- BARRIER_CLAPPER (R232): A GO with KIND 2 originates a BARRIER Clapper. -/
  | barrierClapper (rq : Requester) (v : Word)
  /-- SNAPSHOT_CLAPPER (R232): A GO with KIND 3 originates a SNAPSHOT Clapper. -/
  | snapshotClapper (rq : Requester) (v : Word)
  /-- RESET_CLAPPER (R232): A GO with KIND 4 originates a RESET Clapper. -/
  | resetClapper (rq : Requester) (v : Word)
  /-- CUT_CLAPPER (R232): A GO with KIND 5 originates a CUT Clapper. -/
  | cutClapper (rq : Requester) (v : Word)
  /-- CLAPPER (R232): A received Clapper packet is held pending, and a CUT Clapper requests its Cut on receipt. -/
  | clapper (p : Fin 16) (h : MeshHdr) (b : ClapBody)
  /-- CLAPPER_EXECUTE (R233): A pending Clapper executes on tick T and logs MSH 0x0A. -/
  | clapperExecute
  /-- REPORT (R233): A REPORT packet of a failed Clapper is counted at its origin. -/
  | report (p : Fin 16) (h : MeshHdr) (r : ClapReport)
  /-- CLAPPER_ORIGIN_END (R233): At T + D × H + 64 the origin enters DONE, or FAILED if any failure was reported. -/
  | clapperOriginEnd
  /-- CLAPPER_CANCEL (R233): A write of MSH_CLP_CTL.CANCEL sends a cancellation of the Clapper. -/
  | clapperCancel (rq : Requester) (v : Word)
  /-- BARRIER_ARRIVE (R235): A device arrives at a barrier by MSH_BAR.ARRIVE or BAR_ARRIVE, and arrivals pass upward. -/
  | barrierArrive (src : BarSource)
  /-- BARRIER_TIMEOUT (R235): When the root lacks arrivals BAR_TO ms after the first, it sends a release with TIMEOUT. -/
  | barrierTimeout (bar : BitVec 4)
  /-- DATA (R236): A DATA packet is received and routed. -/
  | data (p : Fin 16) (h : MeshHdr) (sent : BitVec 64) (bytes : List Byte)
  /-- DATA_DELIVERY (R236): A DATA packet is delivered on its fixed tick, or marked LATE after a retransmission. -/
  | dataDelivery
  /-- BURST_REQUEST (R246): A 64-byte burst is accepted by the controller, or refused out of range or outside RUN. -/
  | burstRequest (n : Fin 4) (port : Fin 16) (addr : BitVec 40) (write panic : Bool)
  /-- DRAM_COMMAND_SELECT (R251): In each command cycle the controller chooses a bank by refresh, urgency, row hit, direction and age. -/
  | dramCommandSelect (n : Fin 4) (sub : Bool) (ready : BitVec 64)
  /-- REFRESH (R252): Each rank is refreshed every tREFI, with up to four postponements. -/
  | refresh (n : Fin 4) (rank : Bool)
  /-- REFRESH_RATE_READ (R252): Every 1 ms the refresh-rate mode register is read and the hot state updated. -/
  | refreshRateRead (n : Fin 4) (hot : Bool)
  /-- REFRESH_WINDOW_END (R253): Every 8,192 refresh intervals the activate-count table is cleared. -/
  | refreshWindowEnd (n : Fin 4)
  /-- DQS_DRIFT_READ (R245): Every 256 refresh intervals the delays track the DQS oscillator drift, clamped at ±16 steps. -/
  | dqsDriftRead (n : Fin 4) (drifts : List LaneDrift)
  /-- TRAINING_START (R244): A write of DMC_TRAIN.START trains a shadow set, or is refused with ACCESS. -/
  | trainingStart (rq : Requester) (n : Fin 4) (v : Word)
  /-- TRAINING_END (R244): A training run succeeds to STANDBY or fails to FAILED. -/
  | trainingEnd (n : Fin 4) (fail : Option TrainFail)
  /-- PORTS_OPEN (R243): Setting DMC_CFG.EN moves a trained channel from STANDBY to RUN. -/
  | portsOpen (rq : Requester) (n : Fin 4) (v : Word)
  /-- PORTS_CLOSE (R243): Clearing DMC_CFG.EN in RUN completes accepted requests and enters STANDBY. -/
  | portsClose (rq : Requester) (n : Fin 4) (v : Word)
  /-- FREQUENCY_CHANGE_REQUEST (R256): A write of DMC_FCHG.GO checks and accepts a change to a trained set. -/
  | frequencyChangeRequest (rq : Requester) (n : Fin 4) (v : Word)
  /-- FREQUENCY_CHANGE_START (R257): The change takes effect, and the channel is CHANGING through self-refresh. -/
  | frequencyChangeStart (n : Fin 4)
  /-- FREQUENCY_CHANGE_DONE (R257): By 492 ticks the channel returns to RUN on the new set and logs DMC 0x07. -/
  | frequencyChangeDone (n : Fin 4)
  /-- DRAM_CLOCK_LOSS (R258): Loss of the channel clock in RUN or CHANGING enters FAILED and logs DMC 0x09. -/
  | dramClockLoss (n : Fin 4)
  /-- DRAM_REQUEST_TIMEOUT (R260): A request unanswered after 50 µs is removed whole and logs DMC 0x03. -/
  | dramRequestTimeout (n : Fin 4)
  /-- SECTOR_READ (R272): A protected read walks the counter tree, decodes, verifies and decrypts the sector. -/
  | sectorRead (port : Fin 16) (mover : Bool) (addr : BitVec 40) (len : Nat) (envs : List SectorEnv) (back : CacheBack)
  /-- SECTOR_WRITE (R273): A protected write replaces or merges sectors in the sector cache, or is refused. -/
  | sectorWrite (port : Fin 16) (addr : BitVec 40) (bytes : List Byte) (poison : Bool) (envs : List SectorEnv) (back : CacheBack)
  /-- DRAM_WINDOW_ACCESS (R265): A control-bus access to the DRAM window reaches protected offset BASE plus its offset, or gets an error response. -/
  | dramWindowAccess (rq : Requester) (ofs : BitVec 31) (write : Option Word) (fetch : Bool) (env : SectorEnv) (back : CacheBack)
  /-- CHMASK_WRITE (R274): A write of MPE_CFG.CHMASK sets the member channels, or is refused unless every channel is OFF. -/
  | chmaskWrite (rq : Requester) (v : Word)
  /-- CHANNEL_INIT_DONE (R275): A channel completes its tree writes, enters READY and logs MPE 0x09. -/
  | channelInitDone (n : Fin 4)
  /-- KEY_CUT_ARM (R278): A write of MPE_CHn_KEY_CTL.ARM requests a KEY Cut, drawing new keys on acceptance. -/
  | keyCutArm (rq : Requester) (n : Fin 4) (v : Word)
  /-- KEY_CUT_CANCEL (R43): A write of MPE_CHn_KEY_CTL.CANCEL cancels the armed KEY Cut. -/
  | keyCutCancel (rq : Requester) (n : Fin 4) (v : Word)
  /-- ROTATION_REWRITE (R279): The rotation engine rewrites sector B under the new keys and advances B, finishing at S. -/
  | rotationRewrite (n : Fin 4) (env : SectorEnv) (back : CacheBack)
  /-- RETIRE_ENTRY_WRITE (R280): A write of a retire entry takes sectors, pages or a bank out of service for later requests. -/
  | retireEntryWrite (rq : Requester) (n : Fin 4) (e : BitVec 8) (v : Word)
  /-- NVS_WINDOW_READ (R284): A read through the Reel store window returns the page data, or gets an error response for a busy bank. -/
  | nvsWindowRead (rq : Requester) (w : BitVec 15) (fetch : Bool) (bch : Bch)
  /-- NVS_PROGRAM (R287): An NVS_CMD GO with OP 0 programs pages from SRAM after the checks of Table NVS-2. -/
  | nvsProgram (rq : Requester) (v : Word)
  /-- NVS_CLEAR (R288): An NVS_CMD GO with OP 1 clears a block in three steps. -/
  | nvsClear (rq : Requester) (v : Word)
  /-- BOOT_RECORD_WRITE (R292): An NVS_CMD GO with OP 2 writes NVS_BOOT into the row that is not the boot record. -/
  | bootRecordWrite (rq : Requester) (v : Word)
  /-- NVS_PULSE_END (R287): A store pulse ends, and the operation continues, suspends or completes. -/
  | nvsPulseEnd
  /-- NVS_SUSPEND (R289): A write of SUSPEND suspends a RUNNING operation at a pulse end at least 50 µs into its run. -/
  | nvsSuspend (rq : Requester) (v : Word)
  /-- NVS_RESUME (R289): A write of RESUME continues a SUSPENDED operation unless a load holds it. -/
  | nvsResume (rq : Requester) (v : Word)
  /-- NVS_BROWNOUT (R290): The Reel store brown-out detector ends the operation with BROWNOUT, leaving torn pages or an interrupted block. -/
  | nvsBrownout
  /-- HEADER_SCAN (R288): At P2 power-up and after a SYSTEM reset the store scans block headers for interrupted blocks. -/
  | headerScan
  /-- KEY_WRITE (R300): A write of CFG_KEY_CTL.WRITE stores or blows the key, or is refused with CFG 0x09. -/
  | keyWrite (rq : Requester) (v : Word)
  /-- KEY_ERASE (R301): A write of CFG_KEY_CTL.ERASE erases the key store. -/
  | keyErase (rq : Requester) (v : Word)
  /-- TAMPER (R301): TAMPER_N low for 100 ns erases the key store and sets TAMPER. -/
  | tamper (lowNs : Nat)
  /-- VBAT_LOSS (R301): VBAT below 1.80 V for 10 µs erases the key store. -/
  | vbatLoss (lowNs : Nat)
  /-- LOAD_START (R302): A write of CFG_CTL.START begins a full load, isolating the fabric and ending any Splice. -/
  | loadStart (rq : Requester) (v : Word)
  /-- LOAD_ABORT (R302): A write of CFG_CTL.ABORT ends a load in progress with ABORT. -/
  | loadAbort (rq : Requester) (v : Word)
  /-- STREAM_END (R303): A write of CFG_CTL.END ends the supervisor stream, or the load with LENGTH if bytes are missing. -/
  | streamEnd (rq : Requester) (v : Word)
  /-- CFG_DATA_WRITE (R303): A write of CFG_DATA adds one image word, or ends the load with FORMAT when the buffer is full. -/
  | cfgDataWrite (rq : Requester) (v : Word) (drained : BitVec 15)
  /-- LOAD_PORT_PACKET (R311): A load-port packet is taken for this device's image, skipped, or ends the load without SYNC. -/
  | loadPortPacket (hdr : Word) (words : List (Word × Bool))
  /-- NEIGHBOUR_LOAD_REQUEST (R303): A mesh neighbour's load request is served from the Reel store while CFG_SERVE.EN is set. -/
  | neighbourLoadRequest (p : Fin 16) (h : MeshHdr) (slot : Fin 4)
  /-- IMAGE_HEADER (R294): An image header is checked in the order of Table CFG-2 before any body byte. -/
  | imageHeader (splice : Bool) (pages : List PageErr)
  /-- FRAMES_SECTION (R296): A FRAMES section writes consecutive frames and hands their golden signatures to scrubbing. -/
  | framesSection (splice : Bool) (pages : List PageErr)
  /-- MEMORY_SECTION (R297): A MEMORY section writes a memory's initial contents, or ends the load with LENGTH or ACCESS. -/
  | memorySection (splice : Bool) (pages : List PageErr) (march : Option MarchResult)
  /-- TABLE_SECTION (R295): A TABLE section supplies channel routing, region table, synthesiser or I/O bank settings. -/
  | tableSection (splice : Bool) (pages : List PageErr)
  /-- REGS_SECTION (R297): A REGS section's register pairs are checked and held for release. -/
  | regsSection (splice : Bool) (pages : List PageErr)
  /-- IMAGE_TRAILER (R298): The trailer's CRC, then tag, then FRAME_COUNT are checked. -/
  | imageTrailer (splice : Bool) (pages : List PageErr) (march : Option MarchResult)
  /-- IMAGE_RELEASE (R307): On the next tick after the trailer passes, REGS are applied, named regions leave isolation and CFG_DONE is released. -/
  | imageRelease
  /-- LOADER_IDLE_TIMEOUT (R304): A load with no word for 10 ms ends with TIMEOUT. -/
  | loaderIdleTimeout (splice : Bool)
  /-- LOAD_CLEARING_DONE (R309): CLEARING ends after zeroing what the failed load wrote, and the state is FAILED again. -/
  | loadClearingDone
  /-- ICP_START (R319): A START pulse on an internal configuration port begins a Splice with commit tick AT, or is refused. -/
  | icpStart (die : Fin 2) (at_ : BitVec 64)
  /-- ICP_ABORT (R324): An ABORT pulse on the ICP ends the Splice if sampled before T − 64. -/
  | icpAbort (die : Fin 2)
  /-- SPLICE_START (R320): A write of SPL_CTL.START begins a Splice from the Reel store or SPL_DATA. -/
  | spliceStart (rq : Requester) (v : Word)
  /-- SPLICE_ABORT (R324): A write of SPL_CTL.ABORT ends the Splice if sampled before T − 64. -/
  | spliceAbort (rq : Requester) (v : Word)
  /-- SPLICE_STREAM_END (R320): A write of SPL_CTL.END ends the SPL_DATA stream. -/
  | spliceStreamEnd (rq : Requester) (v : Word)
  /-- SPL_DATA_WRITE (R320): A write of SPL_DATA adds one Splice image word. -/
  | splDataWrite (rq : Requester) (v : Word) (drained : BitVec 15)
  /-- SPLICE_CLEARING_DONE (R324): A Splice ending without commit finishes zeroing its regions' planes and enters FAILED. -/
  | spliceClearingDone
  /-- SCRUB_PASS_START (R325): On every multiple of 3,686,400 ticks a scrub pass starts and agent reports are requested. -/
  | scrubPassStart
  /-- SCRUB_SLOT (R329): A slot reads its frame and compares the signature, queuing a mismatch for repair. -/
  | scrubSlot (die : Fin 2) (slot : Fin 28872) (upsets : List (BitVec 14)) (goldLost : Bool)
  /-- FRAME_REPAIR (R330): A repair rewrites the differing bits from the repair source and verifies them. -/
  | frameRepair (pages : List PageErr) (stuck : List (BitVec 14))
  /-- REGION_RELEASE (R331): A write of SPL_REGr_CTL.RELEASE releases an isolated LOADED region at the next tick. -/
  | regionRelease (rq : Requester) (r : Fin 64) (v : Word)
  /-- CORE_TRAP (R337): The supervisor core traps, records the cause and enters the trap vector, or stops on a double trap. -/
  | coreTrap (cause : TrapCause) (addr : Word)
  /-- EVENT_SOURCE_FIRE (R339): A routed source fires by level or edge and becomes pending. -/
  | eventSourceFire (src : Fin 256) (level : Bool)
  /-- EVENT_PIN_EDGE (R340): An event pin level passes the glitch filter and is sampled. -/
  | eventPinEdge (pin : Fin 32) (level : Bool) (ns : Nat)
  /-- LATCHED_EDGE_DELIVERY (R341): An edge caught by an asynchronous latch is delivered when D0, D4 and the Slate run again. -/
  | latchedEdgeDelivery
  /-- EVENT_CLAIM (R342): A read of EVC_CLAIMt or a CLAIM pulse makes the lowest pending source active. -/
  | eventClaim (t : Fin 5) (by_ : EvcBy)
  /-- EVENT_COMPLETE (R344): A completion ends the active source, or is a completion fault that fires source 0. -/
  | eventComplete (t : Fin 5) (src : Byte) (by_ : EvcBy)
  /-- EVENT_SET_PENDING (R345): A write of EVC_SETPENDk sets sources pending. -/
  | eventSetPending (rq : Requester) (k : Fin 8) (v : Word)
  /-- EVENT_CLEAR_PENDING (R345): A write of one to EVC_PENDk clears pending bits. -/
  | eventClearPending (rq : Requester) (k : Fin 8) (v : Word)
  /-- EVENT_VECTOR_ENTRY (R343): The core enters EVC_VEC_EVT when target 0 requests with events enabled. -/
  | eventVectorEntry (enabled : Bool)
  /-- NMI_ENTRY (R346): The core enters EVC_VEC_NMI when an EVC_NMI bit is set. -/
  | nmiEntry (returned : Bool)
  /-- WATCHDOG_SERVICE (R347): A write of WDG_SVC reloads the count with the right key, or is refused. -/
  | watchdogService (rq : Requester) (v : Word)
  /-- WATCHDOG_ENABLE (R347): A write setting WDG_CTL.EN reloads the count from LOAD. -/
  | watchdogEnable (rq : Requester) (v : Word)
  /-- WATCHDOG_LOCK (R347): Setting WDG_CTL.LOCK refuses further watchdog configuration writes until reset. -/
  | watchdogLock (rq : Requester) (v : Word)
  /-- WATCHDOG_WARNING (R347): The count reaching WARN fires source 2 and logs WDG 0x01. -/
  | watchdogWarning
  /-- WATCHDOG_EXPIRY (R347): The count reaching zero resets the device and logs WDG 0x02. -/
  | watchdogExpiry
  /-- TWI_ADDRESS_MATCH (R349): The target port matches its address and stretches TWI_SCL while P1 and D4 wake. -/
  | twiAddressMatch (addr : BitVec 7)
  /-- TWI_WAKE_TIMEOUT (R349): With no control bus within 1 ms the port releases TWI_SCL and logs TWI 0x05. -/
  | twiWakeTimeout
  /-- TWI_WRITE (R350): A host write transaction issues a control-bus write after the fourth data byte. -/
  | twiWrite (bytes : List Byte) (env : BusEnv)
  /-- TWI_READ (R350): A host read transaction issues a control-bus read and returns data and status. -/
  | twiRead (addr : Word) (env : BusEnv)
  /-- TWI_STATUS_READ (R350): A host reads the status of the last write. -/
  | twiStatusRead
  /-- TWI_SCL_TIMEOUT (R352): TWI_SCL held low over 25 ms releases the port and logs TWI 0x03. -/
  | twiSclTimeout (lowNs : Nat)
  /-- TWI_CONTROLLER_GO (R351): A write of TWI_MCTL.GO starts a controller transfer. -/
  | twiControllerGo (rq : Requester) (v : Word)
  /-- TWI_CONTROLLER_END (R351): A controller transfer ends DONE, or with ACCESS on a missing acknowledge or lost arbitration. -/
  | twiControllerEnd (result : TwcEnd)
  /-- GPIO_WRITE (R353): A write of GPIO_OUTw or GPIO_OEw drives the assigned pins from its sampled tick. -/
  | gpioWrite (rq : Requester) (oe : Bool) (w : Fin 2) (v : Word)
  /-- GPIO_INPUT_CHANGE (R353): A change of a sampled GPIO input level sets its EDGE bit. -/
  | gpioInputChange (bit : Fin 64) (level : Bool)
  /-- TAP_RESET (R356): TRST_N low resets the TAP controller to Test-Logic-Reset. -/
  | tapReset
  /-- EXTEST (R357): EXTEST gives the covered pins to the boundary register. -/
  | extest (cells sample : List Bool)
  /-- IDCODE (R356): IDCODE selects the 32-bit identification register. -/
  | idcode
  /-- SAMPLE_PRELOAD (R356): SAMPLE/PRELOAD samples and preloads the boundary register. -/
  | samplePreload (cells sample : List Bool)
  /-- BYPASS (R356): BYPASS, or any unlisted code, selects the 1-bit bypass register. -/
  | bypass (code : Byte)
  /-- DBG_ACC (R358): DBG_ACC selects the 67-bit debug access register. -/
  | dbgAcc
  /-- DEBUG_NOP (R358): A DBG_ACC NOP issues nothing. -/
  | debugNop
  /-- DEBUG_READ (R359): A DBG_ACC READ makes an ordinary read through the debug bus master. -/
  | debugRead (addr : Word) (env : BusEnv)
  /-- DEBUG_WRITE (R359): A DBG_ACC WRITE makes a write through the debug bus master. -/
  | debugWrite (addr v : Word) (env : BusEnv)
  /-- PEEK (R360): A DBG_ACC PEEK reads a word without any read side effect. -/
  | peek (addr : Word) (env : BusEnv)
  /-- CORE_RD (R358): A DBG_ACC CORE_RD reads a core debug register. -/
  | coreRd (addr : Word)
  /-- CORE_WR (R358): A DBG_ACC CORE_WR writes a core debug register. -/
  | coreWr (addr v : Word) (env : CoreEnv)
  /-- FEED (R363): A DBG_ACC FEED executes one instruction on the halted core without trapping. -/
  | feed (v : Word) (env : CoreEnv)
  /-- CORE_HALT (R361): DBG_CORE_CTL.HALT halts the core at the next instruction boundary, deferred by a reservation. -/
  | coreHalt (v : Word) (env : CoreEnv)
  /-- RESERVATION_BREAK (R362): A deferred halt breaks the reservation after 256 D4 cycles and halts the core. -/
  | reservationBreak (stored : Bool) (pc : Word)
  /-- BREAKPOINT_HIT (R361): A fetch of an enabled DBG_BPk address halts the core. -/
  | breakpointHit (pc : Word) (resv : Bool)
  /-- CORE_RESUME (R361): DBG_CORE_CTL.RESUME continues the core from DBG_PC. -/
  | coreResume (v : Word) (env : CoreEnv)
  /-- CORE_STEP (R361): DBG_CORE_CTL.STEP executes one instruction and halts again. -/
  | coreStep (v : Word) (env : CoreEnv)
  /-- DEBUG_ATTACH (R364): A write of DBG_CORE_CTL.ATTACH holds or withdraws the debugger's votes and logs MON 0x01. -/
  | debugAttach (v : Word) (env : CoreEnv)
  /-- UART_RX_BYTE (R368): A byte received on MON_RX enters the FIFO, or is dropped with FERR or OVR. -/
  | uartRxByte (b : Byte) (framing : Bool) (taken : BitVec 7)
  /-- UART_BREAK (R368): A received break discards the line in progress and restores 115,200 baud. -/
  | uartBreak (bits : Nat)
  /-- MON_DATA_WRITE (R368): A write of MON_DATA queues a byte to send. -/
  | monDataWrite (rq : Requester) (v : Word)
  /-- TAMOP_LINE_TIMEOUT (R368): A line incomplete 30 s after its first character is discarded and MON 0x07 is logged. -/
  | tamopLineTimeout
  /-- TAMOP_PK (R367): The pk command peeks a word. -/
  | tamopPk (addr : Word) (env : BusEnv)
  /-- TAMOP_RD (R367): The rd command makes an ordinary read. -/
  | tamopRd (addr : Word) (env : BusEnv)
  /-- TAMOP_WR (R367): The wr command writes a word. -/
  | tamopWr (addr v : Word) (env : BusEnv)
  /-- TAMOP_REEL (R367): The reel command reports the boot record and the Reel slots. -/
  | tamopReel (pages : List PageErr)
  /-- TAMOP_REEL_BOOT (R367): The reel boot command writes the boot record. -/
  | tamopReelBoot (cur prev : Fin 4)
  /-- TAMOP_REEL_LOAD (R367): The reel load command starts a full load from a Reel slot. -/
  | tamopReelLoad (slot : Fin 4)
  /-- TAMOP_CUT (R367): The cut command lists the Cut slots that are not FREE. -/
  | tamopCut
  /-- TAMOP_CUT_USER (R367): The cut user command arms a USER Cut. -/
  | tamopCutUser (port : BitVec 16) (tick : BitVec 64)
  /-- TAMOP_CUT_SPLICE (R367): The cut splice command runs a Splice from the store. -/
  | tamopCutSplice (ofs : Word) (tick : BitVec 64)
  /-- TAMOP_DL (R367): The dl command prints the oldest Dailies records. -/
  | tamopDl (n : Option (BitVec 12))
  /-- TAMOP_DL_FREE (R367): The dl free command advances DLY_TAIL. -/
  | tamopDlFree (n : BitVec 12)
  /-- TAMOP_LANE (R367): The lane command reports a lane's status. -/
  | tamopLane (l : Fin 512)
  /-- TAMOP_TIME (R367): The time command reports the Slate count and Continuity state. -/
  | tamopTime
  /-- TAMOP_VOTE (R367): The vote command reports a domain's votes and state. -/
  | tamopVote (p : Fin 30)
  /-- TAMOP_VOTE_ON (R367): The vote on command places the supervisor's vote on a domain. -/
  | tamopVoteOn (p : Fin 30)
  /-- TAMOP_VOTE_OFF (R367): The vote off command withdraws the supervisor's vote. -/
  | tamopVoteOff (p : Fin 30)
  /-- TAMOP_BAUD (R367): The baud command sets a new rate from the next line. -/
  | tamopBaud (code : Fin 7)
  /-- CRYSTAL_WINDOW (R371): Each 4,096-cycle window the crystal monitor counts D1 edges and updates XTAL_OK. -/
  | crystalWindow (count : Nat)
  /-- USE_XTAL (R372): A write of CKC_CTL.USE_XTAL moves D4 to the crystal PLL, or is refused. -/
  | useXtal (rq : Requester) (v : Word)
  /-- SYNTH_CONFIG_WRITE (R374): A write of CKC_SYNf_CFG sets a fabric synthesiser, or is refused with CKC 0x07. -/
  | synthConfigWrite (rq : Requester) (f : Fin 8) (v : Word)
  /-- SYNTH_LOCK (R374): A fabric synthesiser locks within 20 µs of being enabled. -/
  | synthLock (f : Fin 8)
  /-- SYNTH_UNLOCK (R375): A fabric synthesiser losing lock stops its output and logs CKC 0x05. -/
  | synthUnlock (f : Fin 8)
  /-- SYNTH_RELOCK (R375): A synthesiser relocks on a TICK cycle and logs CKC 0x06. -/
  | synthRelock (f : Fin 8) (lost : BitVec 16)
  /-- CLOCK_ENABLE_WRITE (R376): A write of a clock-enable register sets block enables, refusing bits of active blocks. -/
  | clockEnableWrite (rq : Requester) (r : EnableReg) (v : Word)
  /-- FCNT_START (R378): A write of CKC_FCNT_CTL.START starts a frequency count. -/
  | fcntStart (rq : Requester) (v : Word)
  /-- FCNT_DONE (R378): The frequency count ends after GATE reference edges with the count. -/
  | fcntDone (count : Nat)
  /-- FCNT_TIMEOUT (R378): A reference with no edge for 2 s ends the count with TIMEOUT. -/
  | fcntTimeout (idleNs : Nat)
  /-- VOTE_CHANGE (R380): A client's vote on a domain changes at its sampled tick, starting a ramp or a drain. -/
  | voteChange (by_ : VoteBy)
  /-- RAMP_START (R381): A queued fabric domain begins its ramp when a ramp place frees. -/
  | rampStart (p : Fin 30)
  /-- RAMP_END (R381): After its ramp count a domain enters ON and its units leave power isolation. -/
  | rampEnd (p : Fin 30)
  /-- RAMP_FAULT (R381): A supply not good within twice the ramp count puts the domain OFF with FAULT. -/
  | rampFault (p : Fin 30)
  /-- SUPPLY_LOSS (R381): A supply reporting not good for 1 µs while ON or in DRAIN takes the domain DOWN with FAULT. -/
  | supplyLoss (p : Fin 30) (lowNs : Nat)
  /-- DRAIN_END (R382): When a draining domain's drop condition holds it enters DOWN on the next tick. -/
  | drainEnd (p : Fin 30)
  /-- DOMAIN_OFF (R382): Within 256 ticks of DOWN the supply is off and the domain is OFF. -/
  | domainOff (p : Fin 30)
  /-- POWER_CUT_ARM (R383): A write of GAF_CUT_CTL.ARM requests a POWER_ON or POWER_OFF Cut. -/
  | powerCutArm (rq : Requester) (v : Word)
  /-- POWER_CUT_CANCEL (R43): A write of GAF_CUT_CTL.CANCEL cancels the armed power Cut. -/
  | powerCutCancel (rq : Requester) (v : Word)
  /-- WAIT_FOR_EVENT (R384): The supervisor's wait-for-event instruction idles, stops D4 or drops its P1 vote per GAF_SLEEP. -/
  | waitForEvent
  /-- WAKE (R385): An enabled wake source restarts D0 and D4, votes P1 and logs GAF 0x06. -/
  | wake (by_ : WakeBy)
  /-- POWER_FAIL_WARNING (R386): A rail below its warning level for 1 µs fires source 3 and logs GAF 0x05. -/
  | powerFailWarning (rail : BitVec 4) (dipNs : Nat)
  /-- UNIT_RELEASE (R388): A write of GAF_RELEASE releases an isolated power, lane or halt unit, or is refused. -/
  | unitRelease (rq : Requester) (v : Word)
  /-- POWER_GOOD (R392): Power-good rising runs the start-up sequence to a released boot image. -/
  | powerGood (straps : Straps)
  /-- BOOT_FALLBACK_LOAD (R394): After a failed boot load's CLEARING ends, the ROM loads slot PREV, or enters Tamop. -/
  | bootFallbackLoad
  /-- FIRMWARE_DESCRIPTOR (R395): After release the ROM checks the firmware descriptor, copies it to SRAM and jumps, or stays in Tamop. -/
  | firmwareDescriptor (pages : List PageErr)
  /-- POWER_GOOD_FALL (R404): Power-good falls when rail 1, 2 or 3 drops below its brown-out level. -/
  | powerGoodFall (rail : Fin 3)
  /-- RESET_PIN (R396): RESET_N low for 1 µs takes a FULL reset. -/
  | resetPin (lowNs : Nat)
  /-- BROWN_OUT (R396): A rail below its brown-out level takes a FULL or SYSTEM reset. -/
  | brownOut (rail : BitVec 4)
  /-- CORE_RESET (R396): A keyed write of GAF_RST with SCOPE 1 takes a CORE reset. -/
  | coreReset (rq : Requester) (v : Word)
  /-- SYSTEM_RESET (R396): A keyed write of GAF_RST with SCOPE 2 takes a SYSTEM reset. -/
  | systemReset (rq : Requester) (v : Word)
  /-- PLL_RATE_WRITE (R180): A write of LNQ_PLLp_RATE sets the PLL rate, or is refused and logs LNQ 0x0A while the PLL is enabled or the rate is out of range. -/
  | pllRateWrite (rq : Requester) (q : Fin 128) (p : Fin 2) (v : Word)
  /-- LANE_CONFIG_WRITE (R178): A write of LNQ_Li_CFG sets the lane's owner, mode, PLLs and dividers, or is refused with LNQ 0x0A while either direction is not OFF. -/
  | laneConfigWrite (rq : Requester) (l : Fin 512) (v : Word)
  /-- SHADOW_SET_WRITE (R255): A write to RATE, TA or TB of a DRAM shadow set clears that set's TRAINED bit, or is refused with DMC 0x08 for the active set in RUN or CHANGING. -/
  | shadowSetWrite (rq : Requester) (n : Fin 4) (set : Fin 3) (which : SetReg) (v : Word)
  /-- ADDRESS_GENERATOR_WRITE (R155): A control-bus write of SE_AGk_BASE or SE_AGk_OFS sets the address generator, or is ignored with SE 0x08 while the engine is in RUN. -/
  | addressGeneratorWrite (rq : Requester) (n : Fin 64) (ag : Fin 4) (r : AgReg) (v : Word)
  /-- MESH_ENABLE (R225): A write of MSH_CFG.EN moves the device from OFF to ALONE, or clears it back to OFF so that no port carries packets. -/
  | meshEnable (rq : Requester) (v : Word)
  /-- ICP_DATA_WORD (R319): A word with VALID on an internal configuration port is taken as 16 Splice image bytes while READY is high, restarting the idle timeout. -/
  | icpDataWord (die : Fin 2) (data : BitVec 128)
  /-- FUSE_KEY_BLOWN (R300): The fuse key finishes blowing 20 ms after an accepted WRITE with FUSE set, the key becomes present and CFG 0x06 is logged. -/
  | fuseKeyBlown
  /-- RESET_N_RISING_EDGE (R396): RESET_N rising after a held low releases the FULL reset, samples the straps and runs the start-up sequence again. -/
  | resetNRisingEdge (straps : Straps)
  /-- TAMOP_UNKNOWN_COMMAND (R367): A Tamop line with an unknown command, a bad argument or more than 128 characters is answered with er 01, er 02 or er 03 and logs MON 0x06. -/
  | tamopUnknownCommand (err : TamopErr)
  deriving DecidableEq, Repr

end Sys2Proof
end

