-- ==== Sys2Proof/Decode.lean ====
section
/-! DEFINITION. The block has no encoding of its commands: no row of spec/opcode_table.json gives bits, so no word
spells one. -/
namespace Sys2Proof

/-- The command that a word spells by the bits of the table: none, as the table gives no row any bits. -/
def decodeTableWord (_nbits _w : Nat) : Option Instr := none

end Sys2Proof
end

