-- ==== Sys2Proof/Config.lean ====
section
/-! DEFINITION. What an implementation fixes and the spec leaves open: opaque constants with no body, so that
nothing can be proved of the values they give. Each is named in notes/assumptions. -/
namespace Sys2Proof.Config

/-- A fresh unconstrained word, one per value of the free counter (log entry 5). -/
opaque freeWord : Nat → Word

/-- A fresh unconstrained bit: which way a rounding the spec does not state goes (log entry 6). -/
opaque freeBit : Nat → Bool

/-- Where a data channel of a bridge ends beyond the hub (R18): a channel of the other bridge, or a hub endpoint. -/
inductive ChanEnd where
  | channel (num : Nat) | dram (port : Nat) | callSheet | mesh
  deriving DecidableEq, Repr, Inhabited

/-- The route of a data channel: the power domain of the region or engine group at its fabric-die end (R27), and its other
end. -/
structure ChanRoute where
  dom  : Nat
  stop : ChanEnd
  deriving DecidableEq, Repr, Inhabited

/-- The route that the loaded routing gives data channel `num` of a die's bridge; none where no design assigns it (R18).
The layout of the routing is Utuno's. -/
opaque channelRoute : List Byte → Nat → Nat → Option ChanRoute

/-- Is the standard deviation of R67 that of a sample, with one less as its divisor? The spec does not say. -/
opaque sigmaSample : Bool

/-- The correction the type 2 loop asks for (R53, R54): the spec gives its bandwidth codes, its inputs and its
limits, not its coefficients. Arguments: BW, FBW, the present correction, the phase error, the frequency offset, the
build-out kept for the frequency role (R60). -/
opaque loopCorrection : Nat → Nat → Int → Int → Int → Int → Int

/-- Units of credit that a port grants its neighbour for a VC when the link comes UP: the spec gives no size of its receive
buffers (R221). -/
opaque meshGrant : Bool → Nat

/-- The host tile (column, row) of a die's Clapper site, which the spec does not give (R234). -/
opaque clapHost : Nat → Nat × Nat

/-- The host tile (column, row) of a lane's fabric hard site (R178): Utuno's device model lists the sites, the spec
does not. -/
opaque laneHost : Nat → Nat × Nat

/-- The payload, in 8-byte words, of a mesh control packet of each TYPE (R221): the spec gives no coding of them. -/
opaque meshWords : Nat → Nat

/-- Whether an access to an address that the spec gives both to a register of mesh ports 8 to 15 and to another of the
block reaches the port's (log entry 61). -/
opaque portAnswers : Nat → Bool

/-- XTS-AES-256 of a 512-byte data unit under a channel's key draw and a tweak (R266): the draw gives the key pair. -/
opaque xts : Nat → BitVec 128 → BitVec 4096 → BitVec 4096

/-- The integrity tag of a sector under a draw's tag key (R269): AES-256-GMAC over the ciphertext, the LBN, the version
counter and STATUS, its first 64 bits. The spec gives neither the nonce nor the widths of the fields. -/
opaque sectorTag : Nat → BitVec 4096 → Nat → Nat → BitVec 32 → BitVec 64

/-- The BCH parity of a sector's 4,192 bits for `t` errors (R268). The spec gives no generator. -/
opaque bchParity : Nat → BitVec 4192 → BitVec 416

/-- The tag of a tree node under a draw's tree key (R270): its counters, level, index and the parent counter. -/
opaque nodeTag : Nat → BitVec 384 → Nat → Nat → Nat → BitVec 64

/-- The BCH parity of a tree node's counters and tag (R270), in its first 60 bits. -/
opaque nodeParity : BitVec 448 → BitVec 60

/-- The data of a sector that cannot be trusted, as it is delivered (R276): the spec gives it no value. -/
opaque freeSector : Nat → BitVec 4096

/-- The factory calibration row, written at manufacture (R291): the spec gives its contents no layout. -/
opaque calibrationRow : BitVec 16384

/-- The words of the boot ROM (R335): the spec gives what the ROM does, not its code. -/
opaque romWord : Nat → Word

/-- The block cipher AES-256 that R293 and R299 name: a key and a block. -/
opaque aes256 : BitVec 256 → BitVec 128 → BitVec 128

/-- Does a frame of a logic tile hold a cell in SHIFT or RAM mode (R326)? The layout of a frame is Utuno's. -/
opaque frameExcluded : BitVec 16384 → Bool

/-- The synthesiser setting that TABLE SUB 2 gives Ff (R374): the layout is Utuno's. -/
opaque synthSetting : List Byte → Nat → BitVec 32

/-- The assignment that TABLE SUB 3 gives GPIO bit g (R353): the layout is Utuno's. -/
opaque gpioMap : List Byte → Nat → BitVec 32

/-- The routing after a Splice commit (R322): of the old routing and the image's, the new entry of every channel whose
fabric-die endpoint lies in a committed region; the regions as SPL_REGr_DEF words. -/
opaque spliceRouting : List Byte → List Byte → List (BitVec 32) → List Byte

/-- Is the device of speed grade 2 (R2)? It is fused at manufacture. -/
opaque grade2 : Bool

/-- Does a frame configure a cluster, an I/O tile or a hard site that uses synthesiser Ff (R374)? The layout of a frame is
Utuno's. -/
opaque frameUsesSynth : BitVec 16384 → Nat → Bool

/-! ## What the frames of a tile configure (R79 to R86, R91, R92). The bits that say so are Utuno's. -/

/-- Cell modes (Table FAB-2). -/
inductive CellMode where
  | lut6 | lut5x2 | arith | shift | ram
  deriving DecidableEq, Repr, Inhabited

/-- The outputs of a cell. -/
inductive CellOut where
  | la | lb | q1 | q2
  deriving DecidableEq, Repr, Inhabited

/-- What a cell input takes (R84): a cell output of its cluster, or a cluster input. -/
inductive ClusterSrc where
  | cell (n : Fin 16) (o : CellOut) | input (k : Fin 52)
  deriving DecidableEq, Repr, Inhabited

/-- The directions and distances of the express links (R85). -/
inductive Dir where
  | left | right | down | up
  deriving DecidableEq, Repr, Inhabited

inductive Dist where
  | one | four | sixteen
  deriving DecidableEq, Repr, Inhabited

/-- A wire of the time bus (Table CTY-13). -/
inductive TimeWireBit where
  | tick | slate (bit : Fin 64) | tod (bit : Fin 96) | state (bit : Fin 2) | bound (bit : Fin 16) | alarm
  deriving DecidableEq, Repr, Inhabited

/-- What a cluster input or an outgoing link wire takes (R84): the tile output of a cell, an incoming link wire, a hard-site
output of the tile, or the time bus. -/
inductive TileSrc where
  | cell (cl c : Fin 16) | link (dir : Dir) (dist : Dist) (wire : Fin 32) | site (port : Fin 4) (wire : Nat) | time (bit : TimeWireBit)
  deriving DecidableEq, Repr, Inhabited

/-- A flip-flop (R80): its clock enable and synchronous reset, of the cluster's two of each, or none; its reset and initial
values; and whether its D input is the table's side rather than DX or DY (Table FAB-2). -/
structure FlopConfig where
  enable   : Option (Fin 2)
  reset    : Option (Fin 2)
  resetVal : Bool
  init     : Bool
  table    : Bool
  deriving DecidableEq, Repr, Inhabited

/-- A cell: I0 to I5, DX and DY are inputs 0 to 7; `lbQ2`: LB of a LUT6 cell passes Q2; `memEn`: the clock enable of a SHIFT or
RAM cell; `chained`: the carry in comes from the chain (R83), else it is `carryIn`; `to`: the tile output. -/
structure CellConfig where
  mode    : CellMode
  table   : BitVec 64
  ins     : Fin 8 → ClusterSrc
  lbQ2    : Bool
  q1      : FlopConfig
  q2      : FlopConfig
  memEn   : Option (Fin 2)
  chained : Bool
  carryIn : Bool
  tile    : CellOut
  deriving Inhabited

/-- A cluster: which of the tile's two clocks it uses (R92); its 52 inputs, of which 48 and 49 are the clock enables and 50 and
51 the resets; and its cells. -/
structure ClusterConfig where
  clk   : Bool
  ins   : Fin 52 → TileSrc
  cells : Fin 16 → CellConfig
  deriving Inhabited

/-- A logic tile: its two clocks (R92), its clusters, what each outgoing link wire takes, and which of the two clocks clocks
the receiving register of each incoming wire. -/
structure TileConfig where
  clks     : Bool → Fin 8
  clusters : Fin 16 → ClusterConfig
  links    : Dir → Dist → Fin 32 → TileSrc
  linkClk  : Dir → Dist → Fin 32 → Bool
  deriving Inhabited

/-- A general I/O pin of user logic (R91): its clock, its synchroniser mode, and the incoming link wires that its output and
output-enable registers take. -/
structure PinConfig where
  user : Bool
  clk  : Bool
  sync : Bool
  out  : Option (Dist × Fin 16)
  oe   : Option (Dist × Fin 16)
  deriving Inhabited

/-- An I/O tile: its two clocks, its eight pins, and the pin whose input each outgoing link wire carries. -/
structure IoTileConfig where
  clks  : Bool → Fin 8
  pins  : Fin 8 → PinConfig
  links : Dist → Fin 16 → Option (Fin 8)
  deriving Inhabited

/-- What the four frames of a logic tile configure. -/
opaque tileConfig : (Fin 4 → BitVec 16384) → TileConfig

/-- What the two frames of an I/O tile configure. -/
opaque ioConfig : (Fin 2 → BitVec 16384) → IoTileConfig

end Sys2Proof.Config
end

