-- ==== Sys2Proof/Machine/Maps.lean ====
section
/-! DEFINITION. The operations on sparse memories, and the bit-field operations on register words. -/
namespace Sys2Proof.Machine

/-- What key `k` reads as: its listed value, or the default of an unlisted key. -/
def SMap.get {α : Type} (dflt : Nat → α) (m : SMap α) (k : Nat) : α :=
  match m.find? (fun p => p.1 == k) with
  | some p => p.2
  | none => dflt k

/-- `m` without key `k`. -/
def SMap.erase {α : Type} (m : SMap α) (k : Nat) : SMap α := m.filter (fun p => p.1 != k)

/-- Put an entry in its place among rising keys. -/
def SMap.insert {α : Type} (k : Nat) (v : α) : SMap α → SMap α
  | [] => [(k, v)]
  | p :: m => if k < p.1 then (k, v) :: p :: m else p :: SMap.insert k v m

/-- Write `v` at `k`, keeping the canonical form: writing what an unlisted key reads as removes the entry. -/
def SMap.put {α : Type} [DecidableEq α] (dflt : Nat → α) (m : SMap α) (k : Nat) (v : α) : SMap α :=
  if v = dflt k then SMap.erase m k else SMap.insert k v (SMap.erase m k)

/-- The canonical form: keys strictly rising, no entry equal to its default. -/
def SMap.wf {α : Type} [DecidableEq α] (dflt : Nat → α) (m : SMap α) : Bool :=
  decide (m.Pairwise (fun p q => p.1 < q.1)) && m.all (fun p => p.2 != dflt p.1)

/-- The value at `k` where unlisted keys read as `z`. -/
def SMap.at {α : Type} (z : α) (m : SMap α) (k : Nat) : α := SMap.get (fun _ => z) m k

/-- Write at `k` where unlisted keys read as `z`. -/
def SMap.set {α : Type} [DecidableEq α] (z : α) (m : SMap α) (k : Nat) (v : α) : SMap α :=
  SMap.put (fun _ => z) m k v

/-- Remove every entry whose key satisfies `p`: those keys read as their default again. -/
def SMap.clear {α : Type} (p : Nat → Bool) (m : SMap α) : SMap α := m.filter (fun e => !p e.1)

/-! ## Bit fields of a word -/

/-- The unsigned value of bits [lo + w − 1 : lo]. -/
def fieldGet (lo w : Nat) (x : Word) : Nat := (x.toNat >>> lo) % 2 ^ w

/-- `x` with bits [lo + w − 1 : lo] holding the low `w` bits of `v`. -/
def fieldSet (lo w v : Nat) (x : Word) : Word :=
  let m : Word := BitVec.ofNat 32 ((2 ^ w - 1) <<< lo)
  (x &&& ~~~m) ||| (BitVec.ofNat 32 ((v % 2 ^ w) <<< lo))

/-- The all-ones mask of a field. -/
def fieldMask (lo w : Nat) : Word := BitVec.ofNat 32 ((2 ^ w - 1) <<< lo)

/-- The signed value of a `w`-bit two's complement number. -/
def signedOf (w v : Nat) : Int := if v % 2 ^ w < 2 ^ (w - 1) then (v % 2 ^ w : Nat) else ((v % 2 ^ w : Nat) : Int) - (2 ^ w : Nat)

/-- The low `w` bits of an integer, in two's complement. -/
def lowBits (w : Nat) (i : Int) : Nat := (i % (2 ^ w : Nat)).toNat

/-- Signed saturation to `w` bits. -/
def satTo (w : Nat) (i : Int) : Int :=
  if i < -(2 ^ (w - 1) : Nat) then -(2 ^ (w - 1) : Nat)
  else if i > (2 ^ (w - 1) : Nat) - 1 then (2 ^ (w - 1) : Nat) - 1 else i

/-- Unsigned saturation at all ones (R36). -/
def satU (w v : Nat) : Nat := min v (2 ^ w - 1)

/-! ## Register rows -/

/-- Is the offset `o` one of the offsets the index pairs `dims` reach? -/
def dimsHas : List (Nat × Nat) → Nat → Bool
  | [], o => o == 0
  | (c, s) :: ds, o => let i := min (o / s) (c - 1); dimsHas ds (o - i * s)

/-- Does the row hold address `a`? -/
def rowHas (r : RegRow) (a : Nat) : Bool := r.base ≤ a && dimsHas r.dims (a - r.base)

/-- The word of the row's Reset column (R9). -/
def rowReset (r : RegRow) : Word :=
  r.fields.foldl (fun x f => fieldSet f.lo f.w f.reset x) 0

/-- What a control-bus write of `v` leaves in a register that holds `old`, field by field as the access
codes state (Table SCOPE-6, R10). A write-only field holds nothing, so it stays as it is; what the write
does is the command's own. -/
def rowWrite (r : RegRow) (old v : Word) : Word :=
  r.fields.foldl (fun x f =>
    match f.acc with
    | .rw => fieldSet f.lo f.w (fieldGet f.lo f.w v) x
    | .w1c => x &&& ~~~(v &&& fieldMask f.lo f.w)
    | .w1s => x ||| (v &&& fieldMask f.lo f.w)
    | .ro | .wo | .rcl => x) old

/-- The word a read returns: write-only fields read zero (Table SCOPE-6). -/
def rowRead (r : RegRow) (x : Word) : Word :=
  r.fields.foldl (fun x f => match f.acc with | .wo => fieldSet f.lo f.w 0 x | _ => x) x

/-- What a read leaves behind: read-clear fields are zero (Table SCOPE-6). -/
def rowAfterRead (r : RegRow) (x : Word) : Word :=
  r.fields.foldl (fun x f => match f.acc with | .rcl => fieldSet f.lo f.w 0 x | _ => x) x

end Sys2Proof.Machine
end

