-- ==== Sys2Proof/Machine/RegTable.lean ====
section
/-! DEFINITION. The register tables of the spec: for every register heading of the chapters its address
(R23, Tables ARCH-5 and ARCH-6) and for every field its place, and for every block the rows with the
access codes (R10, Table SCOPE-6) and the Reset column (R9). A reset entry "—" (pins, fuses or the Reel
store) and a reserved field stand as 0 here. The registers of mesh ports 8 to 15 stand 0x4000 above the addresses the
spec gives them, which it gives to other registers too (log entry 61; Bus.lean maps bus addresses to them). -/
namespace Sys2Proof.Machine.Reg

/-- FAB_ID: Agent identification (01_architecture). -/
def FAB_ID (die : Nat) : Nat := 0x10000000 + die * 0x8000000
def FAB_ID_STEPPING (die : Nat) : RF := ⟨FAB_ID die, 0, 8⟩
def FAB_ID_DIE (die : Nat) : RF := ⟨FAB_ID die, 8, 1⟩
def FAB_ID_AGENT_VER (die : Nat) : RF := ⟨FAB_ID die, 16, 8⟩

/-- FAB_BRG_STAT: Bridge status (01_architecture). -/
def FAB_BRG_STAT (die : Nat) : Nat := 0x10000000 + die * 0x8000000 + 0x10
def FAB_BRG_STAT_CE (die : Nat) : RF := ⟨FAB_BRG_STAT die, 0, 1⟩
def FAB_BRG_STAT_UE (die : Nat) : RF := ⟨FAB_BRG_STAT die, 1, 1⟩
def FAB_BRG_STAT_TIMEOUT (die : Nat) : RF := ⟨FAB_BRG_STAT die, 2, 1⟩
def FAB_BRG_STAT_MISMATCH (die : Nat) : RF := ⟨FAB_BRG_STAT die, 3, 1⟩
def FAB_BRG_STAT_CE_COUNT (die : Nat) : RF := ⟨FAB_BRG_STAT die, 16, 16⟩

/-- SLT_NOW_LO: Slate count, low word (02_slate_and_device_rules). -/
def SLT_NOW_LO : Nat := 0x2100000
def SLT_NOW_LO_COUNT_LO : RF := ⟨SLT_NOW_LO, 0, 32⟩

/-- SLT_NOW_HI: Slate count, high word (02_slate_and_device_rules). -/
def SLT_NOW_HI : Nat := 0x2100004
def SLT_NOW_HI_COUNT_HI : RF := ⟨SLT_NOW_HI, 0, 32⟩

/-- SLT_STAT: Slate status (02_slate_and_device_rules). -/
def SLT_STAT : Nat := 0x2100008
def SLT_STAT_CUT_DONE : RF := ⟨SLT_STAT, 0, 1⟩
def SLT_STAT_CUT_FAIL : RF := ⟨SLT_STAT, 1, 1⟩
def SLT_STAT_STEPPED : RF := ⟨SLT_STAT, 2, 1⟩
def SLT_STAT_PHASE : RF := ⟨SLT_STAT, 4, 2⟩
def SLT_STAT_ARMED : RF := ⟨SLT_STAT, 16, 6⟩

/-- SLT_CUT_SEL: Cut slot select (02_slate_and_device_rules). -/
def SLT_CUT_SEL : Nat := 0x2100010
def SLT_CUT_SEL_SLOT : RF := ⟨SLT_CUT_SEL, 0, 5⟩

/-- SLT_CUT_TICK_LO: Cut tick, low word (02_slate_and_device_rules). -/
def SLT_CUT_TICK_LO : Nat := 0x2100014
def SLT_CUT_TICK_LO_TICK_LO : RF := ⟨SLT_CUT_TICK_LO, 0, 32⟩

/-- SLT_CUT_TICK_HI: Cut tick, high word (02_slate_and_device_rules). -/
def SLT_CUT_TICK_HI : Nat := 0x2100018
def SLT_CUT_TICK_HI_TICK_HI : RF := ⟨SLT_CUT_TICK_HI, 0, 32⟩

/-- SLT_CUT_CTL: Cut slot control and state (02_slate_and_device_rules). -/
def SLT_CUT_CTL : Nat := 0x210001C
def SLT_CUT_CTL_ARM : RF := ⟨SLT_CUT_CTL, 0, 1⟩
def SLT_CUT_CTL_CANCEL : RF := ⟨SLT_CUT_CTL, 1, 1⟩
def SLT_CUT_CTL_KIND : RF := ⟨SLT_CUT_CTL, 4, 3⟩
def SLT_CUT_CTL_STATE : RF := ⟨SLT_CUT_CTL, 8, 3⟩
def SLT_CUT_CTL_STATUS : RF := ⟨SLT_CUT_CTL, 12, 4⟩
def SLT_CUT_CTL_TARGET : RF := ⟨SLT_CUT_CTL, 16, 16⟩

/-- DLY_CTL: Log control (02_slate_and_device_rules). -/
def DLY_CTL : Nat := 0x2700000
def DLY_CTL_MIN_SEV : RF := ⟨DLY_CTL, 0, 3⟩
def DLY_CTL_WATERMARK : RF := ⟨DLY_CTL, 16, 12⟩

/-- DLY_STAT: Log status (02_slate_and_device_rules). -/
def DLY_STAT : Nat := 0x2700004
def DLY_STAT_HEAD : RF := ⟨DLY_STAT, 0, 11⟩
def DLY_STAT_WM : RF := ⟨DLY_STAT, 11, 1⟩
def DLY_STAT_COUNT : RF := ⟨DLY_STAT, 16, 12⟩

/-- DLY_TAIL: Oldest unread record (02_slate_and_device_rules). -/
def DLY_TAIL : Nat := 0x2700008
def DLY_TAIL_TAIL : RF := ⟨DLY_TAIL, 0, 11⟩

/-- DLY_DROP: Records not stored (02_slate_and_device_rules). -/
def DLY_DROP : Nat := 0x270000C
def DLY_DROP_LOW : RF := ⟨DLY_DROP, 0, 16⟩
def DLY_DROP_HIGH : RF := ⟨DLY_DROP, 16, 16⟩

/-- CTY_CTL: Control (03_continuity_timing). -/
def CTY_CTL : Nat := 0x2110000
def CTY_CTL_MODE : RF := ⟨CTY_CTL, 0, 2⟩
def CTY_CTL_REVERTIVE : RF := ⟨CTY_CTL, 2, 1⟩
def CTY_CTL_STEP_EN : RF := ⟨CTY_CTL, 3, 1⟩
def CTY_CTL_DAC_EN : RF := ⟨CTY_CTL, 4, 1⟩
def CTY_CTL_BW : RF := ⟨CTY_CTL, 8, 4⟩
def CTY_CTL_FBW : RF := ⟨CTY_CTL, 12, 4⟩
def CTY_CTL_SLEW_MAX : RF := ⟨CTY_CTL, 16, 16⟩

/-- CTY_STAT: Status (03_continuity_timing). -/
def CTY_STAT : Nat := 0x2110004
def CTY_STAT_STATE : RF := ⟨CTY_STAT, 0, 3⟩
def CTY_STAT_TIME_SLOT : RF := ⟨CTY_STAT, 4, 3⟩
def CTY_STAT_TIME_VALID : RF := ⟨CTY_STAT, 7, 1⟩
def CTY_STAT_FREQ_SLOT : RF := ⟨CTY_STAT, 8, 3⟩
def CTY_STAT_FREQ_VALID : RF := ⟨CTY_STAT, 11, 1⟩
def CTY_STAT_MDL_VALID : RF := ⟨CTY_STAT, 12, 1⟩
def CTY_STAT_TEMP_OOR : RF := ⟨CTY_STAT, 13, 1⟩
def CTY_STAT_LO_FAIL : RF := ⟨CTY_STAT, 14, 1⟩
def CTY_STAT_REF_SW : RF := ⟨CTY_STAT, 16, 1⟩
def CTY_STAT_HO_ENTER : RF := ⟨CTY_STAT, 17, 1⟩
def CTY_STAT_ALARM : RF := ⟨CTY_STAT, 18, 1⟩
def CTY_STAT_TOD_STEP : RF := ⟨CTY_STAT, 19, 1⟩
def CTY_STAT_LOS : RF := ⟨CTY_STAT, 20, 1⟩

/-- CTY_LOCK: Lock criterion (03_continuity_timing). -/
def CTY_LOCK : Nat := 0x2110008
def CTY_LOCK_THRESH : RF := ⟨CTY_LOCK, 0, 16⟩
def CTY_LOCK_DWELL : RF := ⟨CTY_LOCK, 16, 12⟩

/-- CTY_WTR: Wait to restore (03_continuity_timing). -/
def CTY_WTR : Nat := 0x211000C
def CTY_WTR_WTR : RF := ⟨CTY_WTR, 0, 12⟩

/-- CTY_LO_CFG: Local oscillator (03_continuity_timing). -/
def CTY_LO_CFG : Nat := 0x2110010
def CTY_LO_CFG_NOM_HZ : RF := ⟨CTY_LO_CFG, 0, 27⟩

/-- CTY_FCW_LO: Frequency correction (03_continuity_timing). -/
def CTY_FCW_LO : Nat := 0x2110020
def CTY_FCW_LO_FCW_LO : RF := ⟨CTY_FCW_LO, 0, 32⟩

/-- CTY_FCW_HI: Frequency correction (03_continuity_timing). -/
def CTY_FCW_HI : Nat := 0x2110024
def CTY_FCW_HI_FCW_HI : RF := ⟨CTY_FCW_HI, 0, 16⟩

/-- CTY_TE_EST: Time error estimate (03_continuity_timing). -/
def CTY_TE_EST : Nat := 0x2110028
def CTY_TE_EST_TE : RF := ⟨CTY_TE_EST, 0, 32⟩

/-- CTY_TE_BOUND: Time error bound (03_continuity_timing). -/
def CTY_TE_BOUND : Nat := 0x211002C
def CTY_TE_BOUND_BOUND : RF := ⟨CTY_TE_BOUND, 0, 32⟩

/-- CTY_HO_CFG: Holdover settings (03_continuity_timing). -/
def CTY_HO_CFG : Nat := 0x2110030
def CTY_HO_CFG_ALARM : RF := ⟨CTY_HO_CFG, 0, 16⟩
def CTY_HO_CFG_NOISE : RF := ⟨CTY_HO_CFG, 16, 8⟩

/-- CTY_HO_TIME: Holdover duration (03_continuity_timing). -/
def CTY_HO_TIME : Nat := 0x2110034
def CTY_HO_TIME_SECONDS : RF := ⟨CTY_HO_TIME, 0, 32⟩

/-- CTY_MDL_CTL: Model control (03_continuity_timing). -/
def CTY_MDL_CTL : Nat := 0x2110040
def CTY_MDL_CTL_TWIN : RF := ⟨CTY_MDL_CTL, 0, 8⟩
def CTY_MDL_CTL_AWIN : RF := ⟨CTY_MDL_CTL, 8, 10⟩
def CTY_MDL_CTL_TLAG : RF := ⟨CTY_MDL_CTL, 18, 10⟩
def CTY_MDL_CTL_SENSOR : RF := ⟨CTY_MDL_CTL, 28, 2⟩
def CTY_MDL_CTL_FREEZE : RF := ⟨CTY_MDL_CTL, 30, 1⟩
def CTY_MDL_CTL_CLEAR : RF := ⟨CTY_MDL_CTL, 31, 1⟩

/-- CTY_MDL_SEL: Model parameter select (03_continuity_timing). -/
def CTY_MDL_SEL : Nat := 0x2110044
def CTY_MDL_SEL_INDEX : RF := ⟨CTY_MDL_SEL, 0, 4⟩

/-- CTY_MDL_VAL_LO: Model parameter value (03_continuity_timing). -/
def CTY_MDL_VAL_LO : Nat := 0x2110048
def CTY_MDL_VAL_LO_VAL : RF := ⟨CTY_MDL_VAL_LO, 0, 32⟩

/-- CTY_MDL_VAL_HI: Model parameter value (03_continuity_timing). -/
def CTY_MDL_VAL_HI : Nat := 0x211004C
def CTY_MDL_VAL_HI_VAL : RF := ⟨CTY_MDL_VAL_HI, 0, 32⟩

/-- CTY_TEMP: Temperature (03_continuity_timing). -/
def CTY_TEMP : Nat := 0x2110050
def CTY_TEMP_RAW : RF := ⟨CTY_TEMP, 0, 16⟩
def CTY_TEMP_FILT : RF := ⟨CTY_TEMP, 16, 16⟩

/-- CTY_TSENS: External sensor (03_continuity_timing). -/
def CTY_TSENS : Nat := 0x2110054
def CTY_TSENS_ADDR : RF := ⟨CTY_TSENS, 0, 7⟩
def CTY_TSENS_POINTER : RF := ⟨CTY_TSENS, 8, 8⟩

/-- CTY_MAP_TICK_LO: Mapping tick (03_continuity_timing). -/
def CTY_MAP_TICK_LO : Nat := 0x2110060
def CTY_MAP_TICK_LO_TICK : RF := ⟨CTY_MAP_TICK_LO, 0, 32⟩

/-- CTY_MAP_TICK_HI: Mapping tick (03_continuity_timing). -/
def CTY_MAP_TICK_HI : Nat := 0x2110064
def CTY_MAP_TICK_HI_TICK : RF := ⟨CTY_MAP_TICK_HI, 0, 32⟩

/-- CTY_MAP_SEC_LO: Mapping second (03_continuity_timing). -/
def CTY_MAP_SEC_LO : Nat := 0x2110068
def CTY_MAP_SEC_LO_SEC_LO : RF := ⟨CTY_MAP_SEC_LO, 0, 32⟩

/-- CTY_MAP_SEC_HI: Mapping second (03_continuity_timing). -/
def CTY_MAP_SEC_HI : Nat := 0x211006C
def CTY_MAP_SEC_HI_SEC_HI : RF := ⟨CTY_MAP_SEC_HI, 0, 16⟩

/-- CTY_UTC_OFS: TAI minus UTC (03_continuity_timing). -/
def CTY_UTC_OFS : Nat := 0x2110070
def CTY_UTC_OFS_OFS : RF := ⟨CTY_UTC_OFS, 0, 16⟩

/-- CTY_TOD_SET: Time-of-day step (03_continuity_timing). -/
def CTY_TOD_SET : Nat := 0x2110074
def CTY_TOD_SET_STEP : RF := ⟨CTY_TOD_SET, 0, 32⟩

/-- CTY_PTP_META: PTP sample slot (03_continuity_timing). -/
def CTY_PTP_META : Nat := 0x2110080
def CTY_PTP_META_SLOT : RF := ⟨CTY_PTP_META, 0, 3⟩
def CTY_PTP_META_FRAC : RF := ⟨CTY_PTP_META, 16, 16⟩

/-- CTY_PTP_OFS: PTP offset sample (03_continuity_timing). -/
def CTY_PTP_OFS : Nat := 0x2110084
def CTY_PTP_OFS_OFS : RF := ⟨CTY_PTP_OFS, 0, 32⟩

/-- CTY_TODRX: Time-of-day receiver (03_continuity_timing). -/
def CTY_TODRX : Nat := 0x2110090
def CTY_TODRX_DATA : RF := ⟨CTY_TODRX, 0, 8⟩
def CTY_TODRX_VALID : RF := ⟨CTY_TODRX, 8, 1⟩
def CTY_TODRX_FERR : RF := ⟨CTY_TODRX, 9, 1⟩
def CTY_TODRX_OVR : RF := ⟨CTY_TODRX, 10, 1⟩
def CTY_TODRX_BAUD : RF := ⟨CTY_TODRX, 16, 4⟩

/-- CTY_REFn_CFG: Slot configuration (03_continuity_timing). -/
def CTY_REFn_CFG (n : Nat) : Nat := 0x2110100 + n * 0x10
def CTY_REFn_CFG_EN (n : Nat) : RF := ⟨CTY_REFn_CFG n, 0, 1⟩
def CTY_REFn_CFG_ROLE (n : Nat) : RF := ⟨CTY_REFn_CFG n, 1, 2⟩
def CTY_REFn_CFG_KIND (n : Nat) : RF := ⟨CTY_REFn_CFG n, 4, 4⟩
def CTY_REFn_CFG_PRIO (n : Nat) : RF := ⟨CTY_REFn_CFG n, 8, 3⟩
def CTY_REFn_CFG_NUM (n : Nat) : RF := ⟨CTY_REFn_CFG n, 16, 9⟩

/-- CTY_REFn_QUAL: Slot qualification (03_continuity_timing). -/
def CTY_REFn_QUAL (n : Nat) : Nat := 0x2110104 + n * 0x10
def CTY_REFn_QUAL_QUAL_TIME (n : Nat) : RF := ⟨CTY_REFn_QUAL n, 0, 12⟩
def CTY_REFn_QUAL_FREQ_LIM (n : Nat) : RF := ⟨CTY_REFn_QUAL n, 12, 16⟩

/-- CTY_REFn_UNC: Slot uncertainty (03_continuity_timing). -/
def CTY_REFn_UNC (n : Nat) : Nat := 0x2110108 + n * 0x10
def CTY_REFn_UNC_UNC (n : Nat) : RF := ⟨CTY_REFn_UNC n, 0, 16⟩

/-- CTY_REFn_STAT: Slot status (03_continuity_timing). -/
def CTY_REFn_STAT (n : Nat) : Nat := 0x211010C + n * 0x10
def CTY_REFn_STAT_QSTATE (n : Nat) : RF := ⟨CTY_REFn_STAT n, 0, 2⟩
def CTY_REFn_STAT_SEL_T (n : Nat) : RF := ⟨CTY_REFn_STAT n, 2, 1⟩
def CTY_REFn_STAT_SEL_F (n : Nat) : RF := ⟨CTY_REFn_STAT n, 3, 1⟩
def CTY_REFn_STAT_LOS (n : Nat) : RF := ⟨CTY_REFn_STAT n, 4, 1⟩
def CTY_REFn_STAT_FOFS (n : Nat) : RF := ⟨CTY_REFn_STAT n, 8, 24⟩

/-- CTY_PPS_CTL: PPS output (03_continuity_timing). -/
def CTY_PPS_CTL : Nat := 0x2110200
def CTY_PPS_CTL_EN : RF := ⟨CTY_PPS_CTL, 0, 1⟩
def CTY_PPS_CTL_WIDTH : RF := ⟨CTY_PPS_CTL, 8, 10⟩

/-- CTY_PPS_DLY: PPS output delay (03_continuity_timing). -/
def CTY_PPS_DLY : Nat := 0x2110204
def CTY_PPS_DLY_DLY : RF := ⟨CTY_PPS_DLY, 0, 32⟩

/-- CTY_FOUTf: Frequency output (03_continuity_timing). -/
def CTY_FOUTf (f : Nat) : Nat := 0x2110280 + f * 0x4
def CTY_FOUTf_EN (f : Nat) : RF := ⟨CTY_FOUTf f, 0, 1⟩
def CTY_FOUTf_SRC (f : Nat) : RF := ⟨CTY_FOUTf f, 1, 1⟩
def CTY_FOUTf_DIV (f : Nat) : RF := ⟨CTY_FOUTf f, 16, 16⟩

/-- CTY_DAC_CFG: External DAC (03_continuity_timing). -/
def CTY_DAC_CFG : Nat := 0x2110290
def CTY_DAC_CFG_WIDTH : RF := ⟨CTY_DAC_CFG, 0, 2⟩
def CTY_DAC_CFG_SHIFT : RF := ⟨CTY_DAC_CFG, 2, 6⟩
def CTY_DAC_CFG_MID : RF := ⟨CTY_DAC_CFG, 8, 20⟩

/-- CTY_SYSs_CTL: SYSREF control (03_continuity_timing). -/
def CTY_SYSs_CTL (s : Nat) : Nat := 0x2110300 + s * 0x10
def CTY_SYSs_CTL_MODE (s : Nat) : RF := ⟨CTY_SYSs_CTL s, 0, 2⟩
def CTY_SYSs_CTL_COUNT (s : Nat) : RF := ⟨CTY_SYSs_CTL s, 8, 8⟩
def CTY_SYSs_CTL_WIDTH (s : Nat) : RF := ⟨CTY_SYSs_CTL s, 16, 8⟩

/-- CTY_SYSs_PER: SYSREF period (03_continuity_timing). -/
def CTY_SYSs_PER (s : Nat) : Nat := 0x2110304 + s * 0x10
def CTY_SYSs_PER_PER (s : Nat) : RF := ⟨CTY_SYSs_PER s, 0, 32⟩

/-- CTY_SYSs_OFS: SYSREF offset (03_continuity_timing). -/
def CTY_SYSs_OFS (s : Nat) : Nat := 0x2110308 + s * 0x10
def CTY_SYSs_OFS_OFS (s : Nat) : RF := ⟨CTY_SYSs_OFS s, 0, 32⟩

/-- CTY_SYSs_DLY: SYSREF delay (03_continuity_timing). -/
def CTY_SYSs_DLY (s : Nat) : Nat := 0x211030C + s * 0x10
def CTY_SYSs_DLY_COARSE (s : Nat) : RF := ⟨CTY_SYSs_DLY s, 0, 2⟩
def CTY_SYSs_DLY_FINE (s : Nat) : RF := ⟨CTY_SYSs_DLY s, 2, 7⟩

/-- CTY_TEM_CTL: Time error measurement (03_continuity_timing). -/
def CTY_TEM_CTL : Nat := 0x2110400
def CTY_TEM_CTL_A : RF := ⟨CTY_TEM_CTL, 0, 4⟩
def CTY_TEM_CTL_B : RF := ⟨CTY_TEM_CTL, 4, 4⟩
def CTY_TEM_CTL_USED : RF := ⟨CTY_TEM_CTL, 8, 12⟩
def CTY_TEM_CTL_START : RF := ⟨CTY_TEM_CTL, 30, 1⟩
def CTY_TEM_CTL_DONE : RF := ⟨CTY_TEM_CTL, 31, 1⟩

/-- CTY_TEM_WIN: Measurement window (03_continuity_timing). -/
def CTY_TEM_WIN : Nat := 0x2110410
def CTY_TEM_WIN_WINDOW : RF := ⟨CTY_TEM_WIN, 0, 12⟩

/-- CTY_TEM_MEAN: Results (03_continuity_timing). -/
def CTY_TEM_MEAN : Nat := 0x2110404
def CTY_TEM_MEAN_VALUE : RF := ⟨CTY_TEM_MEAN, 0, 32⟩

/-- CTY_TEM_MIN: Results (03_continuity_timing). -/
def CTY_TEM_MIN : Nat := 0x2110408
def CTY_TEM_MIN_VALUE : RF := ⟨CTY_TEM_MIN, 0, 32⟩

/-- CTY_TEM_MAX: Results (03_continuity_timing). -/
def CTY_TEM_MAX : Nat := 0x211040C
def CTY_TEM_MAX_VALUE : RF := ⟨CTY_TEM_MAX, 0, 32⟩

/-- FAB_PRB_SELn: Probe select (04_fabric_logic_and_routing). -/
def FAB_PRB_SELn (die n : Nat) : Nat := 0x10000000 + die * 0x8000000 + 0x1000 + n * 0x4
def FAB_PRB_SELn_TILE (die n : Nat) : RF := ⟨FAB_PRB_SELn die n, 0, 13⟩
def FAB_PRB_SELn_CELL (die n : Nat) : RF := ⟨FAB_PRB_SELn die n, 13, 8⟩
def FAB_PRB_SELn_OUT (die n : Nat) : RF := ⟨FAB_PRB_SELn die n, 21, 2⟩
def FAB_PRB_SELn_EN (die n : Nat) : RF := ⟨FAB_PRB_SELn die n, 31, 1⟩

/-- FAB_PRB_PINp: PROBE pin select (04_fabric_logic_and_routing). -/
def FAB_PRB_PINp (die p : Nat) : Nat := 0x10000000 + die * 0x8000000 + 0x1100 + p * 0x4
def FAB_PRB_PINp_PROBE (die p : Nat) : RF := ⟨FAB_PRB_PINp die p, 0, 6⟩
def FAB_PRB_PINp_EN (die p : Nat) : RF := ⟨FAB_PRB_PINp die p, 7, 1⟩

/-- FAB_CAP_CTL: Capture control (04_fabric_logic_and_routing). -/
def FAB_CAP_CTL (die : Nat) : Nat := 0x10000000 + die * 0x8000000 + 0x1200
def FAB_CAP_CTL_ARM (die : Nat) : RF := ⟨FAB_CAP_CTL die, 0, 1⟩
def FAB_CAP_CTL_ABORT (die : Nat) : RF := ⟨FAB_CAP_CTL die, 1, 1⟩
def FAB_CAP_CTL_SWTRIG (die : Nat) : RF := ⟨FAB_CAP_CTL die, 2, 1⟩
def FAB_CAP_CTL_TRIG_SRC (die : Nat) : RF := ⟨FAB_CAP_CTL die, 4, 2⟩
def FAB_CAP_CTL_CLK (die : Nat) : RF := ⟨FAB_CAP_CTL die, 8, 3⟩
def FAB_CAP_CTL_POST (die : Nat) : RF := ⟨FAB_CAP_CTL die, 16, 15⟩

/-- FAB_CAP_STAT: Capture status (04_fabric_logic_and_routing). -/
def FAB_CAP_STAT (die : Nat) : Nat := 0x10000000 + die * 0x8000000 + 0x1204
def FAB_CAP_STAT_STATE (die : Nat) : RF := ⟨FAB_CAP_STAT die, 0, 3⟩
def FAB_CAP_STAT_STATUS (die : Nat) : RF := ⟨FAB_CAP_STAT die, 4, 4⟩
def FAB_CAP_STAT_DONE (die : Nat) : RF := ⟨FAB_CAP_STAT die, 8, 1⟩
def FAB_CAP_STAT_INVALID (die : Nat) : RF := ⟨FAB_CAP_STAT die, 9, 1⟩
def FAB_CAP_STAT_ENDED (die : Nat) : RF := ⟨FAB_CAP_STAT die, 10, 1⟩

/-- FAB_CAP_CNT: Capture count and phase (04_fabric_logic_and_routing). -/
def FAB_CAP_CNT (die : Nat) : Nat := 0x10000000 + die * 0x8000000 + 0x1208
def FAB_CAP_CNT_COUNT (die : Nat) : RF := ⟨FAB_CAP_CNT die, 0, 15⟩
def FAB_CAP_CNT_PHASE (die : Nat) : RF := ⟨FAB_CAP_CNT die, 16, 3⟩

/-- FAB_CAP_MASK_LO: Trigger mask (04_fabric_logic_and_routing). -/
def FAB_CAP_MASK_LO (die : Nat) : Nat := 0x10000000 + die * 0x8000000 + 0x1210
def FAB_CAP_MASK_LO_MASK (die : Nat) : RF := ⟨FAB_CAP_MASK_LO die, 0, 32⟩

/-- FAB_CAP_MASK_HI: Trigger mask (04_fabric_logic_and_routing). -/
def FAB_CAP_MASK_HI (die : Nat) : Nat := 0x10000000 + die * 0x8000000 + 0x1214
def FAB_CAP_MASK_HI_MASK (die : Nat) : RF := ⟨FAB_CAP_MASK_HI die, 0, 32⟩

/-- FAB_CAP_VAL_LO: Trigger value (04_fabric_logic_and_routing). -/
def FAB_CAP_VAL_LO (die : Nat) : Nat := 0x10000000 + die * 0x8000000 + 0x1218
def FAB_CAP_VAL_LO_VAL (die : Nat) : RF := ⟨FAB_CAP_VAL_LO die, 0, 32⟩

/-- FAB_CAP_VAL_HI: Trigger value (04_fabric_logic_and_routing). -/
def FAB_CAP_VAL_HI (die : Nat) : Nat := 0x10000000 + die * 0x8000000 + 0x121C
def FAB_CAP_VAL_HI_VAL (die : Nat) : RF := ⟨FAB_CAP_VAL_HI die, 0, 32⟩

/-- FAB_CAP_AT_LO: Trigger tick (04_fabric_logic_and_routing). -/
def FAB_CAP_AT_LO (die : Nat) : Nat := 0x10000000 + die * 0x8000000 + 0x1220
def FAB_CAP_AT_LO_AT (die : Nat) : RF := ⟨FAB_CAP_AT_LO die, 0, 32⟩

/-- FAB_CAP_AT_HI: Trigger tick (04_fabric_logic_and_routing). -/
def FAB_CAP_AT_HI (die : Nat) : Nat := 0x10000000 + die * 0x8000000 + 0x1224
def FAB_CAP_AT_HI_AT (die : Nat) : RF := ⟨FAB_CAP_AT_HI die, 0, 32⟩

/-- FAB_CAP_TRIG_TICK_LO: Trigger sample tick (04_fabric_logic_and_routing). -/
def FAB_CAP_TRIG_TICK_LO (die : Nat) : Nat := 0x10000000 + die * 0x8000000 + 0x1228
def FAB_CAP_TRIG_TICK_LO_TICK (die : Nat) : RF := ⟨FAB_CAP_TRIG_TICK_LO die, 0, 32⟩

/-- FAB_CAP_TRIG_TICK_HI: Trigger sample tick (04_fabric_logic_and_routing). -/
def FAB_CAP_TRIG_TICK_HI (die : Nat) : Nat := 0x10000000 + die * 0x8000000 + 0x122C
def FAB_CAP_TRIG_TICK_HI_TICK (die : Nat) : RF := ⟨FAB_CAP_TRIG_TICK_HI die, 0, 32⟩

/-- FAB_MEM_STAT: Memory status (05_fabric_memory_and_arithmetic). -/
def FAB_MEM_STAT (die : Nat) : Nat := 0x10000000 + die * 0x8000000 + 0x2000
def FAB_MEM_STAT_CE (die : Nat) : RF := ⟨FAB_MEM_STAT die, 0, 1⟩
def FAB_MEM_STAT_UE (die : Nat) : RF := ⟨FAB_MEM_STAT die, 1, 1⟩
def FAB_MEM_STAT_COLL (die : Nat) : RF := ⟨FAB_MEM_STAT die, 2, 1⟩
def FAB_MEM_STAT_QERR (die : Nat) : RF := ⟨FAB_MEM_STAT die, 3, 1⟩
def FAB_MEM_STAT_REFUSED (die : Nat) : RF := ⟨FAB_MEM_STAT die, 4, 1⟩

/-- FAB_MEM_CNT: Memory event counts (05_fabric_memory_and_arithmetic). -/
def FAB_MEM_CNT (die : Nat) : Nat := 0x10000000 + die * 0x8000000 + 0x2004
def FAB_MEM_CNT_CE_COUNT (die : Nat) : RF := ⟨FAB_MEM_CNT die, 0, 16⟩
def FAB_MEM_CNT_COLL_COUNT (die : Nat) : RF := ⟨FAB_MEM_CNT die, 16, 16⟩

/-- FAB_MEM_ERRLOC: First uncorrectable error (05_fabric_memory_and_arithmetic). -/
def FAB_MEM_ERRLOC (die : Nat) : Nat := 0x10000000 + die * 0x8000000 + 0x2008
def FAB_MEM_ERRLOC_KIND (die : Nat) : RF := ⟨FAB_MEM_ERRLOC die, 0, 2⟩
def FAB_MEM_ERRLOC_INDEX (die : Nat) : RF := ⟨FAB_MEM_ERRLOC die, 2, 12⟩
def FAB_MEM_ERRLOC_ADDR (die : Nat) : RF := ⟨FAB_MEM_ERRLOC die, 14, 16⟩
def FAB_MEM_ERRLOC_VALID (die : Nat) : RF := ⟨FAB_MEM_ERRLOC die, 31, 1⟩

/-- FAB_MT_CTL: March control (05_fabric_memory_and_arithmetic). -/
def FAB_MT_CTL (die : Nat) : Nat := if die = 2 then 0x230F100 else 0x10000000 + die * 0x8000000 + 0x2100
def FAB_MT_CTL_START (die : Nat) : RF := ⟨FAB_MT_CTL die, 0, 1⟩
def FAB_MT_CTL_ABORT (die : Nat) : RF := ⟨FAB_MT_CTL die, 1, 1⟩
def FAB_MT_CTL_PRESERVE (die : Nat) : RF := ⟨FAB_MT_CTL die, 2, 1⟩
def FAB_MT_CTL_KINDS (die : Nat) : RF := ⟨FAB_MT_CTL die, 4, 3⟩

/-- FAB_MT_SEL: March region select (05_fabric_memory_and_arithmetic). -/
def FAB_MT_SEL (die : Nat) : Nat := 0x10000000 + die * 0x8000000 + 0x2104
def FAB_MT_SEL_REGIONS (die : Nat) : RF := ⟨FAB_MT_SEL die, 0, 8⟩

/-- FAB_MT_ENG: March engine select (05_fabric_memory_and_arithmetic). -/
def FAB_MT_ENG (die : Nat) : Nat := 0x10000000 + die * 0x8000000 + 0x2108
def FAB_MT_ENG_ENGINES (die : Nat) : RF := ⟨FAB_MT_ENG die, 0, 32⟩

/-- FAB_MT_STAT: March status (05_fabric_memory_and_arithmetic). -/
def FAB_MT_STAT (die : Nat) : Nat := if die = 2 then 0x230F10C else 0x10000000 + die * 0x8000000 + 0x210C
def FAB_MT_STAT_STATE (die : Nat) : RF := ⟨FAB_MT_STAT die, 0, 2⟩
def FAB_MT_STAT_STATUS (die : Nat) : RF := ⟨FAB_MT_STAT die, 4, 4⟩
def FAB_MT_STAT_DONE (die : Nat) : RF := ⟨FAB_MT_STAT die, 8, 1⟩
def FAB_MT_STAT_FAIL (die : Nat) : RF := ⟨FAB_MT_STAT die, 9, 1⟩
def FAB_MT_STAT_FAILS (die : Nat) : RF := ⟨FAB_MT_STAT die, 16, 12⟩

/-- FAB_MT_FAIL: First march failure (05_fabric_memory_and_arithmetic). -/
def FAB_MT_FAIL (die : Nat) : Nat := if die = 2 then 0x230F110 else 0x10000000 + die * 0x8000000 + 0x2110
def FAB_MT_FAIL_KIND (die : Nat) : RF := ⟨FAB_MT_FAIL die, 0, 2⟩
def FAB_MT_FAIL_INDEX (die : Nat) : RF := ⟨FAB_MT_FAIL die, 2, 12⟩
def FAB_MT_FAIL_ADDR (die : Nat) : RF := ⟨FAB_MT_FAIL die, 14, 16⟩
def FAB_MT_FAIL_VALID (die : Nat) : RF := ⟨FAB_MT_FAIL die, 31, 1⟩

/-- SE_CTL: Engine control (06_signal_engines). -/
def SE_CTL (n : Nat) : Nat := 0x10400000 + (n / 32) * 0x8000000 + (n % 32) * 0x20000
def SE_CTL_HALT (n : Nat) : RF := ⟨SE_CTL n, 0, 1⟩
def SE_CTL_STEP (n : Nat) : RF := ⟨SE_CTL n, 1, 1⟩
def SE_CTL_RESUME (n : Nat) : RF := ⟨SE_CTL n, 2, 1⟩
def SE_CTL_ACC_SAT (n : Nat) : RF := ⟨SE_CTL n, 3, 1⟩
def SE_CTL_STRM_SRC (n : Nat) : RF := ⟨SE_CTL n, 4, 1⟩

/-- SE_STAT: Engine status (06_signal_engines). -/
def SE_STAT (n : Nat) : Nat := 0x10400000 + (n / 32) * 0x8000000 + (n % 32) * 0x20000 + 0x4
def SE_STAT_STATE (n : Nat) : RF := ⟨SE_STAT n, 0, 3⟩
def SE_STAT_TRAP (n : Nat) : RF := ⟨SE_STAT n, 4, 1⟩
def SE_STAT_PSN_USED (n : Nat) : RF := ⟨SE_STAT n, 5, 1⟩
def SE_STAT_CE (n : Nat) : RF := ⟨SE_STAT n, 6, 1⟩
def SE_STAT_UE (n : Nat) : RF := ⟨SE_STAT n, 7, 1⟩
def SE_STAT_OVF (n : Nat) : RF := ⟨SE_STAT n, 8, 1⟩
def SE_STAT_STRM_REJ (n : Nat) : RF := ⟨SE_STAT n, 9, 1⟩
def SE_STAT_EVT (n : Nat) : RF := ⟨SE_STAT n, 10, 1⟩

/-- SE_PC: Program counter (06_signal_engines). -/
def SE_PC (n : Nat) : Nat := 0x10400000 + (n / 32) * 0x8000000 + (n % 32) * 0x20000 + 0x8
def SE_PC_PC (n : Nat) : RF := ⟨SE_PC n, 0, 11⟩
def SE_PC_FLOW (n : Nat) : RF := ⟨SE_PC n, 16, 16⟩

/-- SE_TRAP: Trap record (06_signal_engines). -/
def SE_TRAP (n : Nat) : Nat := 0x10400000 + (n / 32) * 0x8000000 + (n % 32) * 0x20000 + 0xC
def SE_TRAP_CAUSE (n : Nat) : RF := ⟨SE_TRAP n, 0, 4⟩
def SE_TRAP_SLOT (n : Nat) : RF := ⟨SE_TRAP n, 4, 3⟩
def SE_TRAP_PC (n : Nat) : RF := ⟨SE_TRAP n, 8, 11⟩
def SE_TRAP_VALID (n : Nat) : RF := ⟨SE_TRAP n, 31, 1⟩

/-- SE_CNT: Error counts (06_signal_engines). -/
def SE_CNT (n : Nat) : Nat := 0x10400000 + (n / 32) * 0x8000000 + (n % 32) * 0x20000 + 0x10
def SE_CNT_CE_COUNT (n : Nat) : RF := ⟨SE_CNT n, 0, 16⟩
def SE_CNT_TRAP_COUNT (n : Nat) : RF := ⟨SE_CNT n, 16, 16⟩

/-- SE_XIDLE: Idle X cycles (06_signal_engines). -/
def SE_XIDLE (n : Nat) : Nat := 0x10400000 + (n / 32) * 0x8000000 + (n % 32) * 0x20000 + 0x14
def SE_XIDLE_IDLE (n : Nat) : RF := ⟨SE_XIDLE n, 0, 32⟩

/-- SE_XRUN: Longest X run (06_signal_engines). -/
def SE_XRUN (n : Nat) : Nat := 0x10400000 + (n / 32) * 0x8000000 + (n % 32) * 0x20000 + 0x18
def SE_XRUN_MAXRUN (n : Nat) : RF := ⟨SE_XRUN n, 0, 32⟩

/-- SE_EVT: Event code (06_signal_engines). -/
def SE_EVT (n : Nat) : Nat := 0x10400000 + (n / 32) * 0x8000000 + (n % 32) * 0x20000 + 0x1C
def SE_EVT_CODE (n : Nat) : RF := ⟨SE_EVT n, 0, 8⟩

/-- SE_ERRLOC: First uncorrectable error (06_signal_engines). -/
def SE_ERRLOC (n : Nat) : Nat := 0x10400000 + (n / 32) * 0x8000000 + (n % 32) * 0x20000 + 0x20
def SE_ERRLOC_MEM (n : Nat) : RF := ⟨SE_ERRLOC n, 0, 2⟩
def SE_ERRLOC_ADDR (n : Nat) : RF := ⟨SE_ERRLOC n, 2, 16⟩
def SE_ERRLOC_VALID (n : Nat) : RF := ⟨SE_ERRLOC n, 31, 1⟩

/-- SE_STRM: Stream buffers (06_signal_engines). -/
def SE_STRM (n : Nat) : Nat := 0x10400000 + (n / 32) * 0x8000000 + (n % 32) * 0x20000 + 0x24
def SE_STRM_IN_WORDS (n : Nat) : RF := ⟨SE_STRM n, 0, 10⟩
def SE_STRM_OUT_WORDS (n : Nat) : RF := ⟨SE_STRM n, 16, 10⟩

/-- SE_AGk_BASE: Address generator base (06_signal_engines). -/
def SE_AGk_BASE (n k : Nat) : Nat := 0x10400000 + (n / 32) * 0x8000000 + (n % 32) * 0x20000 + 0x40 + k * 0x10
def SE_AGk_BASE_BASE (n k : Nat) : RF := ⟨SE_AGk_BASE n k, 0, 16⟩
def SE_AGk_BASE_LEN (n k : Nat) : RF := ⟨SE_AGk_BASE n k, 16, 16⟩

/-- SE_AGk_OFS: Address generator offset (06_signal_engines). -/
def SE_AGk_OFS (n k : Nat) : Nat := 0x10400000 + (n / 32) * 0x8000000 + (n % 32) * 0x20000 + 0x44 + k * 0x10
def SE_AGk_OFS_OFS (n k : Nat) : RF := ⟨SE_AGk_OFS n k, 0, 16⟩

/-- SE_AGk_MOD: Address generator modifier (06_signal_engines). -/
def SE_AGk_MOD (n k : Nat) : Nat := 0x10400000 + (n / 32) * 0x8000000 + (n % 32) * 0x20000 + 0x48 + k * 0x10
def SE_AGk_MOD_STEP (n k : Nat) : RF := ⟨SE_AGk_MOD n k, 0, 16⟩
def SE_AGk_MOD_MODE (n k : Nat) : RF := ⟨SE_AGk_MOD n k, 16, 2⟩
def SE_AGk_MOD_BRW (n k : Nat) : RF := ⟨SE_AGk_MOD n k, 18, 4⟩

/-- DLM_CTL: Mover control (06_signal_engines). -/
def DLM_CTL (n : Nat) : Nat := 0x10800000 + (n / 32) * 0x8000000 + (n % 32) * 0x800
def DLM_CTL_EN (n : Nat) : RF := ⟨DLM_CTL n, 0, 1⟩
def DLM_CTL_RESUME (n : Nat) : RF := ⟨DLM_CTL n, 1, 1⟩
def DLM_CTL_EVT_EN (n : Nat) : RF := ⟨DLM_CTL n, 2, 1⟩

/-- DLM_STAT: Mover status (06_signal_engines). -/
def DLM_STAT (n : Nat) : Nat := 0x10800000 + (n / 32) * 0x8000000 + (n % 32) * 0x800 + 0x4
def DLM_STAT_STATE (n : Nat) : RF := ⟨DLM_STAT n, 0, 2⟩
def DLM_STAT_LAST (n : Nat) : RF := ⟨DLM_STAT n, 4, 4⟩
def DLM_STAT_DONE (n : Nat) : RF := ⟨DLM_STAT n, 8, 1⟩
def DLM_STAT_HALT (n : Nat) : RF := ⟨DLM_STAT n, 9, 1⟩
def DLM_STAT_ERR (n : Nat) : RF := ⟨DLM_STAT n, 10, 1⟩
def DLM_STAT_FULL (n : Nat) : RF := ⟨DLM_STAT n, 11, 1⟩
def DLM_STAT_HEAD (n : Nat) : RF := ⟨DLM_STAT n, 16, 4⟩

/-- DLM_TAIL: Ring tail (06_signal_engines). -/
def DLM_TAIL (n : Nat) : Nat := 0x10800000 + (n / 32) * 0x8000000 + (n % 32) * 0x800 + 0x8
def DLM_TAIL_TAIL (n : Nat) : RF := ⟨DLM_TAIL n, 0, 4⟩

/-- DLM_CNT: Completed descriptors (06_signal_engines). -/
def DLM_CNT (n : Nat) : Nat := 0x10800000 + (n / 32) * 0x8000000 + (n % 32) * 0x800 + 0xC
def DLM_CNT_DONE_COUNT (n : Nat) : RF := ⟨DLM_CNT n, 0, 16⟩

/-- CSH_CTL: Scheduler control (07_call_sheet_and_scheduler). -/
def CSH_CTL : Nat := 0x2300000
def CSH_CTL_STOP : RF := ⟨CSH_CTL, 0, 1⟩
def CSH_CTL_EVT_EN : RF := ⟨CSH_CTL, 1, 1⟩
def CSH_CTL_LATE_EVT : RF := ⟨CSH_CTL, 2, 1⟩

/-- CSH_STAT: Scheduler status (07_call_sheet_and_scheduler). -/
def CSH_STAT : Nat := 0x2300004
def CSH_STAT_STATE : RF := ⟨CSH_STAT, 0, 2⟩
def CSH_STAT_ACTIVE : RF := ⟨CSH_STAT, 2, 1⟩
def CSH_STAT_LATE : RF := ⟨CSH_STAT, 4, 1⟩
def CSH_STAT_SKIP : RF := ⟨CSH_STAT, 5, 1⟩
def CSH_STAT_EXPIRE : RF := ⟨CSH_STAT, 6, 1⟩
def CSH_STAT_CE : RF := ⟨CSH_STAT, 7, 1⟩
def CSH_STAT_UE : RF := ⟨CSH_STAT, 8, 1⟩
def CSH_STAT_FSTALL : RF := ⟨CSH_STAT, 9, 1⟩
def CSH_STAT_INVALID : RF := ⟨CSH_STAT, 10, 1⟩
def CSH_STAT_REFUSED : RF := ⟨CSH_STAT, 11, 1⟩

/-- CSH_BANKb_LEN: Bank length (07_call_sheet_and_scheduler). -/
def CSH_BANKb_LEN (b : Nat) : Nat := 0x2300010 + b * 0x10
def CSH_BANKb_LEN_LEN (b : Nat) : RF := ⟨CSH_BANKb_LEN b, 0, 19⟩

/-- CSH_BANKb_PER: Bank period (07_call_sheet_and_scheduler). -/
def CSH_BANKb_PER (b : Nat) : Nat := 0x2300014 + b * 0x10
def CSH_BANKb_PER_PER (b : Nat) : RF := ⟨CSH_BANKb_PER b, 0, 22⟩

/-- CSH_CUT_TICK_LO: SCHEDULE Cut tick (07_call_sheet_and_scheduler). -/
def CSH_CUT_TICK_LO : Nat := 0x2300030
def CSH_CUT_TICK_LO_TICK : RF := ⟨CSH_CUT_TICK_LO, 0, 32⟩

/-- CSH_CUT_TICK_HI: SCHEDULE Cut tick (07_call_sheet_and_scheduler). -/
def CSH_CUT_TICK_HI : Nat := 0x2300034
def CSH_CUT_TICK_HI_TICK : RF := ⟨CSH_CUT_TICK_HI, 0, 32⟩

/-- CSH_CUT_CTL: SCHEDULE Cut request (07_call_sheet_and_scheduler). -/
def CSH_CUT_CTL : Nat := 0x2300038
def CSH_CUT_CTL_ARM : RF := ⟨CSH_CUT_CTL, 0, 1⟩
def CSH_CUT_CTL_CANCEL : RF := ⟨CSH_CUT_CTL, 1, 1⟩
def CSH_CUT_CTL_BANK : RF := ⟨CSH_CUT_CTL, 2, 1⟩
def CSH_CUT_CTL_SLOT : RF := ⟨CSH_CUT_CTL, 8, 5⟩
def CSH_CUT_CTL_STATUS : RF := ⟨CSH_CUT_CTL, 16, 4⟩
def CSH_CUT_CTL_STATE : RF := ⟨CSH_CUT_CTL, 20, 3⟩

/-- CSH_PSTART_LO: Period start (07_call_sheet_and_scheduler). -/
def CSH_PSTART_LO : Nat := 0x2300040
def CSH_PSTART_LO_TICK : RF := ⟨CSH_PSTART_LO, 0, 32⟩

/-- CSH_PSTART_HI: Period start (07_call_sheet_and_scheduler). -/
def CSH_PSTART_HI : Nat := 0x2300044
def CSH_PSTART_HI_TICK : RF := ⟨CSH_PSTART_HI, 0, 32⟩

/-- CSH_PCOUNT: Period count (07_call_sheet_and_scheduler). -/
def CSH_PCOUNT : Nat := 0x2300048
def CSH_PCOUNT_COUNT : RF := ⟨CSH_PCOUNT, 0, 32⟩

/-- CSH_CNT: Entry error counts (07_call_sheet_and_scheduler). -/
def CSH_CNT : Nat := 0x230004C
def CSH_CNT_CE_COUNT : RF := ⟨CSH_CNT, 0, 16⟩
def CSH_CNT_UE_COUNT : RF := ⟨CSH_CNT, 16, 16⟩

/-- CSH_ERR: First entry error (07_call_sheet_and_scheduler). -/
def CSH_ERR : Nat := 0x2300050
def CSH_ERR_INDEX : RF := ⟨CSH_ERR, 0, 18⟩
def CSH_ERR_BANK : RF := ⟨CSH_ERR, 18, 1⟩
def CSH_ERR_REASON : RF := ⟨CSH_ERR, 19, 4⟩
def CSH_ERR_VALID : RF := ⟨CSH_ERR, 31, 1⟩

/-- CSH_ENGn_STAT: Engine queue status (07_call_sheet_and_scheduler). -/
def CSH_ENGn_STAT (n : Nat) : Nat := 0x2301000 + n * 0x80
def CSH_ENGn_STAT_DEPTH (n : Nat) : RF := ⟨CSH_ENGn_STAT n, 0, 9⟩
def CSH_ENGn_STAT_MAXDEPTH (n : Nat) : RF := ⟨CSH_ENGn_STAT n, 16, 9⟩
def CSH_ENGn_STAT_WAIT (n : Nat) : RF := ⟨CSH_ENGn_STAT n, 28, 4⟩

/-- CSH_ENGn_ISSUE: Issues (07_call_sheet_and_scheduler). -/
def CSH_ENGn_ISSUE (n : Nat) : Nat := 0x2301004 + n * 0x80
def CSH_ENGn_ISSUE_COUNT (n : Nat) : RF := ⟨CSH_ENGn_ISSUE n, 0, 32⟩

/-- CSH_ENGn_LATE: Late and skipped (07_call_sheet_and_scheduler). -/
def CSH_ENGn_LATE (n : Nat) : Nat := 0x2301008 + n * 0x80
def CSH_ENGn_LATE_LATE (n : Nat) : RF := ⟨CSH_ENGn_LATE n, 0, 16⟩
def CSH_ENGn_LATE_SKIP (n : Nat) : RF := ⟨CSH_ENGn_LATE n, 16, 16⟩

/-- CSH_ENGn_EXP: Expired and aborted (07_call_sheet_and_scheduler). -/
def CSH_ENGn_EXP (n : Nat) : Nat := 0x230100C + n * 0x80
def CSH_ENGn_EXP_EXPIRED (n : Nat) : RF := ⟨CSH_ENGn_EXP n, 0, 16⟩
def CSH_ENGn_EXP_ABORTED (n : Nat) : RF := ⟨CSH_ENGn_EXP n, 16, 16⟩

/-- CSH_ENGn_BUSY: Busy load (07_call_sheet_and_scheduler). -/
def CSH_ENGn_BUSY (n : Nat) : Nat := 0x2301010 + n * 0x80
def CSH_ENGn_BUSY_BUSY (n : Nat) : RF := ⟨CSH_ENGn_BUSY n, 0, 22⟩

/-- CSH_ENGn_MVDONE: Mover count (07_call_sheet_and_scheduler). -/
def CSH_ENGn_MVDONE (n : Nat) : Nat := 0x2301014 + n * 0x80
def CSH_ENGn_MVDONE_COUNT (n : Nat) : RF := ⟨CSH_ENGn_MVDONE n, 0, 8⟩

/-- CSH_ENGn_HISTk: Waiting-time bin (07_call_sheet_and_scheduler). -/
def CSH_ENGn_HISTk (n k : Nat) : Nat := 0x2301040 + n * 0x80 + k * 0x4
def CSH_ENGn_HISTk_COUNT (n k : Nat) : RF := ⟨CSH_ENGn_HISTk n k, 0, 32⟩

/-- LNQ_PLLp_CFG: PLL control (08_serial_lanes). -/
def LNQ_PLLp_CFG (q p : Nat) : Nat := 0x10100000 + (q / 64) * 0x8000000 + (q % 64) * 0x1000 + 0x10 + p * 0x10
def LNQ_PLLp_CFG_EN (q p : Nat) : RF := ⟨LNQ_PLLp_CFG q p, 0, 1⟩

/-- LNQ_PLLp_RATE: PLL rate (08_serial_lanes). -/
def LNQ_PLLp_RATE (q p : Nat) : Nat := 0x10100000 + (q / 64) * 0x8000000 + (q % 64) * 0x1000 + 0x14 + p * 0x10
def LNQ_PLLp_RATE_RATE (q p : Nat) : RF := ⟨LNQ_PLLp_RATE q p, 0, 26⟩

/-- LNQ_PLLp_STAT: PLL status (08_serial_lanes). -/
def LNQ_PLLp_STAT (q p : Nat) : Nat := 0x10100000 + (q / 64) * 0x8000000 + (q % 64) * 0x1000 + 0x18 + p * 0x10
def LNQ_PLLp_STAT_LOCK (q p : Nat) : RF := ⟨LNQ_PLLp_STAT q p, 0, 1⟩
def LNQ_PLLp_STAT_UNLOCK (q p : Nat) : RF := ⟨LNQ_PLLp_STAT q p, 1, 1⟩

/-- LNQ_Li_CFG: Lane configuration (08_serial_lanes). -/
def LNQ_Li_CFG (l : Nat) : Nat := 0x10100400 + (l / 256) * 0x8000000 + ((l / 4) % 64) * 0x1000 + (l % 4) * 0x100
def LNQ_Li_CFG_OWNER (l : Nat) : RF := ⟨LNQ_Li_CFG l, 0, 3⟩
def LNQ_Li_CFG_MODE (l : Nat) : RF := ⟨LNQ_Li_CFG l, 4, 2⟩
def LNQ_Li_CFG_TX_PLL (l : Nat) : RF := ⟨LNQ_Li_CFG l, 6, 1⟩
def LNQ_Li_CFG_RX_PLL (l : Nat) : RF := ⟨LNQ_Li_CFG l, 7, 1⟩
def LNQ_Li_CFG_TX_DIV (l : Nat) : RF := ⟨LNQ_Li_CFG l, 8, 3⟩
def LNQ_Li_CFG_RX_DIV (l : Nat) : RF := ⟨LNQ_Li_CFG l, 11, 3⟩
def LNQ_Li_CFG_TX_POL (l : Nat) : RF := ⟨LNQ_Li_CFG l, 14, 1⟩
def LNQ_Li_CFG_RX_POL (l : Nat) : RF := ⟨LNQ_Li_CFG l, 15, 1⟩
def LNQ_Li_CFG_SCR_EN (l : Nat) : RF := ⟨LNQ_Li_CFG l, 16, 1⟩
def LNQ_Li_CFG_DSC_EN (l : Nat) : RF := ⟨LNQ_Li_CFG l, 17, 1⟩

/-- LNQ_Li_PWR: Power request and state (08_serial_lanes). -/
def LNQ_Li_PWR (l : Nat) : Nat := 0x10100400 + (l / 256) * 0x8000000 + ((l / 4) % 64) * 0x1000 + (l % 4) * 0x100 + 0x4
def LNQ_Li_PWR_TX_REQ (l : Nat) : RF := ⟨LNQ_Li_PWR l, 0, 2⟩
def LNQ_Li_PWR_RX_REQ (l : Nat) : RF := ⟨LNQ_Li_PWR l, 2, 2⟩
def LNQ_Li_PWR_AT_EN (l : Nat) : RF := ⟨LNQ_Li_PWR l, 4, 1⟩
def LNQ_Li_PWR_TX_STATE (l : Nat) : RF := ⟨LNQ_Li_PWR l, 8, 3⟩
def LNQ_Li_PWR_RX_STATE (l : Nat) : RF := ⟨LNQ_Li_PWR l, 12, 3⟩
def LNQ_Li_PWR_PENDING (l : Nat) : RF := ⟨LNQ_Li_PWR l, 15, 1⟩

/-- LNQ_Li_AT_LO: Request tick (08_serial_lanes). -/
def LNQ_Li_AT_LO (l : Nat) : Nat := 0x10100400 + (l / 256) * 0x8000000 + ((l / 4) % 64) * 0x1000 + (l % 4) * 0x100 + 0x8
def LNQ_Li_AT_LO_AT (l : Nat) : RF := ⟨LNQ_Li_AT_LO l, 0, 32⟩

/-- LNQ_Li_AT_HI: Request tick (08_serial_lanes). -/
def LNQ_Li_AT_HI (l : Nat) : Nat := 0x10100400 + (l / 256) * 0x8000000 + ((l / 4) % 64) * 0x1000 + (l % 4) * 0x100 + 0xC
def LNQ_Li_AT_HI_AT (l : Nat) : RF := ⟨LNQ_Li_AT_HI l, 0, 32⟩

/-- LNQ_Li_TXEQ: Transmit equaliser (08_serial_lanes). -/
def LNQ_Li_TXEQ (l : Nat) : Nat := 0x10100400 + (l / 256) * 0x8000000 + ((l / 4) % 64) * 0x1000 + (l % 4) * 0x100 + 0x10
def LNQ_Li_TXEQ_PRE (l : Nat) : RF := ⟨LNQ_Li_TXEQ l, 0, 5⟩
def LNQ_Li_TXEQ_MAIN (l : Nat) : RF := ⟨LNQ_Li_TXEQ l, 5, 6⟩
def LNQ_Li_TXEQ_POST (l : Nat) : RF := ⟨LNQ_Li_TXEQ l, 11, 5⟩
def LNQ_Li_TXEQ_SWING (l : Nat) : RF := ⟨LNQ_Li_TXEQ l, 16, 4⟩

/-- LNQ_Li_ADAPT: Adaptation control (08_serial_lanes). -/
def LNQ_Li_ADAPT (l : Nat) : Nat := 0x10100400 + (l / 256) * 0x8000000 + ((l / 4) % 64) * 0x1000 + (l % 4) * 0x100 + 0x14
def LNQ_Li_ADAPT_FREEZE (l : Nat) : RF := ⟨LNQ_Li_ADAPT l, 0, 1⟩
def LNQ_Li_ADAPT_DWELL (l : Nat) : RF := ⟨LNQ_Li_ADAPT l, 4, 4⟩
def LNQ_Li_ADAPT_ERRLIM (l : Nat) : RF := ⟨LNQ_Li_ADAPT l, 8, 8⟩
def LNQ_Li_ADAPT_MIN_SCORE (l : Nat) : RF := ⟨LNQ_Li_ADAPT l, 16, 8⟩
def LNQ_Li_ADAPT_HYST (l : Nat) : RF := ⟨LNQ_Li_ADAPT l, 24, 8⟩

/-- LNQ_Li_EYE: Eye score (08_serial_lanes). -/
def LNQ_Li_EYE (l : Nat) : Nat := 0x10100400 + (l / 256) * 0x8000000 + ((l / 4) % 64) * 0x1000 + (l % 4) * 0x100 + 0x18
def LNQ_Li_EYE_SCORE (l : Nat) : RF := ⟨LNQ_Li_EYE l, 0, 8⟩
def LNQ_Li_EYE_V (l : Nat) : RF := ⟨LNQ_Li_EYE l, 8, 7⟩
def LNQ_Li_EYE_H (l : Nat) : RF := ⟨LNQ_Li_EYE l, 16, 7⟩
def LNQ_Li_EYE_CTLE (l : Nat) : RF := ⟨LNQ_Li_EYE l, 24, 4⟩

/-- LNQ_Li_DFEj: DFE taps (08_serial_lanes). -/
def LNQ_Li_DFEj (l j : Nat) : Nat := 0x10100400 + (l / 256) * 0x8000000 + ((l / 4) % 64) * 0x1000 + (l % 4) * 0x100 + 0x1C + j * 0x4
def LNQ_Li_DFEj_TAP0 (l j : Nat) : RF := ⟨LNQ_Li_DFEj l j, 0, 8⟩
def LNQ_Li_DFEj_TAP1 (l j : Nat) : RF := ⟨LNQ_Li_DFEj l j, 8, 8⟩
def LNQ_Li_DFEj_TAP2 (l j : Nat) : RF := ⟨LNQ_Li_DFEj l j, 16, 8⟩
def LNQ_Li_DFEj_TAP3 (l j : Nat) : RF := ⟨LNQ_Li_DFEj l j, 24, 8⟩

/-- LNQ_Li_STAT: Lane status (08_serial_lanes). -/
def LNQ_Li_STAT (l : Nat) : Nat := 0x10100400 + (l / 256) * 0x8000000 + ((l / 4) % 64) * 0x1000 + (l % 4) * 0x100 + 0x30
def LNQ_Li_STAT_SIG_DET (l : Nat) : RF := ⟨LNQ_Li_STAT l, 0, 1⟩
def LNQ_Li_STAT_CDR_LOCK (l : Nat) : RF := ⟨LNQ_Li_STAT l, 1, 1⟩
def LNQ_Li_STAT_BLK_LOCK (l : Nat) : RF := ⟨LNQ_Li_STAT l, 2, 1⟩
def LNQ_Li_STAT_HI_BER (l : Nat) : RF := ⟨LNQ_Li_STAT l, 3, 1⟩
def LNQ_Li_STAT_LOW_EYE (l : Nat) : RF := ⟨LNQ_Li_STAT l, 4, 1⟩
def LNQ_Li_STAT_PHASE (l : Nat) : RF := ⟨LNQ_Li_STAT l, 5, 2⟩
def LNQ_Li_STAT_CDR_LOSS (l : Nat) : RF := ⟨LNQ_Li_STAT l, 8, 1⟩
def LNQ_Li_STAT_BLK_LOSS (l : Nat) : RF := ⟨LNQ_Li_STAT l, 9, 1⟩
def LNQ_Li_STAT_HBER_EV (l : Nat) : RF := ⟨LNQ_Li_STAT l, 10, 1⟩
def LNQ_Li_STAT_EYE_EV (l : Nat) : RF := ⟨LNQ_Li_STAT l, 11, 1⟩
def LNQ_Li_STAT_EB_ERR (l : Nat) : RF := ⟨LNQ_Li_STAT l, 12, 1⟩
def LNQ_Li_STAT_ADAPT_FAIL (l : Nat) : RF := ⟨LNQ_Li_STAT l, 13, 1⟩
def LNQ_Li_STAT_SLEEP_DONE (l : Nat) : RF := ⟨LNQ_Li_STAT l, 14, 1⟩
def LNQ_Li_STAT_WAKE_DONE (l : Nat) : RF := ⟨LNQ_Li_STAT l, 15, 1⟩

/-- LNQ_Li_CNT: Lane counts (08_serial_lanes). -/
def LNQ_Li_CNT (l : Nat) : Nat := 0x10100400 + (l / 256) * 0x8000000 + ((l / 4) % 64) * 0x1000 + (l % 4) * 0x100 + 0x34
def LNQ_Li_CNT_HDR_ERR (l : Nat) : RF := ⟨LNQ_Li_CNT l, 0, 16⟩
def LNQ_Li_CNT_EB_DROP (l : Nat) : RF := ⟨LNQ_Li_CNT l, 16, 16⟩

/-- LNQ_Li_PCS: Error-ratio window (08_serial_lanes). -/
def LNQ_Li_PCS (l : Nat) : Nat := 0x10100400 + (l / 256) * 0x8000000 + ((l / 4) % 64) * 0x1000 + (l % 4) * 0x100 + 0x38
def LNQ_Li_PCS_HBER_LIM (l : Nat) : RF := ⟨LNQ_Li_PCS l, 0, 8⟩
def LNQ_Li_PCS_HBER_WIN (l : Nat) : RF := ⟨LNQ_Li_PCS l, 8, 16⟩

/-- LNQ_Li_FILL_LO: Fill payload (08_serial_lanes). -/
def LNQ_Li_FILL_LO (l : Nat) : Nat := 0x10100400 + (l / 256) * 0x8000000 + ((l / 4) % 64) * 0x1000 + (l % 4) * 0x100 + 0x3C
def LNQ_Li_FILL_LO_FILL (l : Nat) : RF := ⟨LNQ_Li_FILL_LO l, 0, 32⟩

/-- LNQ_Li_FILL_HI: Fill payload (08_serial_lanes). -/
def LNQ_Li_FILL_HI (l : Nat) : Nat := 0x10100400 + (l / 256) * 0x8000000 + ((l / 4) % 64) * 0x1000 + (l % 4) * 0x100 + 0x40
def LNQ_Li_FILL_HI_FILL (l : Nat) : RF := ⟨LNQ_Li_FILL_HI l, 0, 32⟩

/-- LNQ_Li_RXLAT: Receive latency (08_serial_lanes). -/
def LNQ_Li_RXLAT (l : Nat) : Nat := 0x10100400 + (l / 256) * 0x8000000 + ((l / 4) % 64) * 0x1000 + (l % 4) * 0x100 + 0x44
def LNQ_Li_RXLAT_WAIT (l : Nat) : RF := ⟨LNQ_Li_RXLAT l, 0, 7⟩

/-- LNQ_Li_TEST: Loopback and patterns (08_serial_lanes). -/
def LNQ_Li_TEST (l : Nat) : Nat := 0x10100400 + (l / 256) * 0x8000000 + ((l / 4) % 64) * 0x1000 + (l % 4) * 0x100 + 0x50
def LNQ_Li_TEST_LOOP (l : Nat) : RF := ⟨LNQ_Li_TEST l, 0, 3⟩
def LNQ_Li_TEST_GEN (l : Nat) : RF := ⟨LNQ_Li_TEST l, 4, 3⟩
def LNQ_Li_TEST_GEN_EN (l : Nat) : RF := ⟨LNQ_Li_TEST l, 7, 1⟩
def LNQ_Li_TEST_CHK (l : Nat) : RF := ⟨LNQ_Li_TEST l, 8, 3⟩
def LNQ_Li_TEST_CHK_EN (l : Nat) : RF := ⟨LNQ_Li_TEST l, 11, 1⟩
def LNQ_Li_TEST_CHK_SYNC (l : Nat) : RF := ⟨LNQ_Li_TEST l, 12, 1⟩
def LNQ_Li_TEST_INJ (l : Nat) : RF := ⟨LNQ_Li_TEST l, 13, 1⟩

/-- LNQ_Li_PERR: Pattern errors (08_serial_lanes). -/
def LNQ_Li_PERR (l : Nat) : Nat := 0x10100400 + (l / 256) * 0x8000000 + ((l / 4) % 64) * 0x1000 + (l % 4) * 0x100 + 0x54
def LNQ_Li_PERR_ERRORS (l : Nat) : RF := ⟨LNQ_Li_PERR l, 0, 32⟩

/-- LNQ_Li_PBITS_LO: Pattern bits (08_serial_lanes). -/
def LNQ_Li_PBITS_LO (l : Nat) : Nat := 0x10100400 + (l / 256) * 0x8000000 + ((l / 4) % 64) * 0x1000 + (l % 4) * 0x100 + 0x58
def LNQ_Li_PBITS_LO_BITS_LO (l : Nat) : RF := ⟨LNQ_Li_PBITS_LO l, 0, 32⟩

/-- LNQ_Li_PBITS_HI: Pattern bits (08_serial_lanes). -/
def LNQ_Li_PBITS_HI (l : Nat) : Nat := 0x10100400 + (l / 256) * 0x8000000 + ((l / 4) % 64) * 0x1000 + (l % 4) * 0x100 + 0x5C
def LNQ_Li_PBITS_HI_BITS_HI (l : Nat) : RF := ⟨LNQ_Li_PBITS_HI l, 0, 16⟩

/-- LNQ_Li_UPAT_LO: User pattern (08_serial_lanes). -/
def LNQ_Li_UPAT_LO (l : Nat) : Nat := 0x10100400 + (l / 256) * 0x8000000 + ((l / 4) % 64) * 0x1000 + (l % 4) * 0x100 + 0x60
def LNQ_Li_UPAT_LO_UPAT (l : Nat) : RF := ⟨LNQ_Li_UPAT_LO l, 0, 32⟩

/-- LNQ_Li_UPAT_HI: User pattern (08_serial_lanes). -/
def LNQ_Li_UPAT_HI (l : Nat) : Nat := 0x10100400 + (l / 256) * 0x8000000 + ((l / 4) % 64) * 0x1000 + (l % 4) * 0x100 + 0x64
def LNQ_Li_UPAT_HI_UPAT (l : Nat) : RF := ⟨LNQ_Li_UPAT_HI l, 0, 32⟩

/-- ETH_CFG: MAC configuration (09_ethernet_fronthaul_converters). -/
def ETH_CFG (m : Nat) : Nat := 0x10200000 + (m / 16) * 0x8000000 + (m % 16) * 0x1000
def ETH_CFG_EN (m : Nat) : RF := ⟨ETH_CFG m, 0, 1⟩
def ETH_CFG_SPEED (m : Nat) : RF := ⟨ETH_CFG m, 1, 2⟩
def ETH_CFG_FEC (m : Nat) : RF := ⟨ETH_CFG m, 3, 1⟩
def ETH_CFG_LANE (m : Nat) : RF := ⟨ETH_CFG m, 4, 4⟩
def ETH_CFG_QUAD (m : Nat) : RF := ⟨ETH_CFG m, 8, 4⟩
def ETH_CFG_MAX_LEN (m : Nat) : RF := ⟨ETH_CFG m, 16, 14⟩

/-- ETH_STAT: MAC status (09_ethernet_fronthaul_converters). -/
def ETH_STAT (m : Nat) : Nat := 0x10200000 + (m / 16) * 0x8000000 + (m % 16) * 0x1000 + 0x4
def ETH_STAT_LINK (m : Nat) : RF := ⟨ETH_STAT m, 0, 1⟩
def ETH_STAT_LF (m : Nat) : RF := ⟨ETH_STAT m, 1, 1⟩
def ETH_STAT_RF (m : Nat) : RF := ⟨ETH_STAT m, 2, 1⟩
def ETH_STAT_FEC_LOCK (m : Nat) : RF := ⟨ETH_STAT m, 3, 1⟩
def ETH_STAT_LINK_EV (m : Nat) : RF := ⟨ETH_STAT m, 8, 1⟩
def ETH_STAT_FCS (m : Nat) : RF := ⟨ETH_STAT m, 9, 1⟩
def ETH_STAT_DISCARD (m : Nat) : RF := ⟨ETH_STAT m, 10, 1⟩
def ETH_STAT_OVF (m : Nat) : RF := ⟨ETH_STAT m, 11, 1⟩
def ETH_STAT_ECP_ERR (m : Nat) : RF := ⟨ETH_STAT m, 12, 1⟩
def ETH_STAT_TX_REJ (m : Nat) : RF := ⟨ETH_STAT m, 13, 1⟩
def ETH_STAT_TS_OVF (m : Nat) : RF := ⟨ETH_STAT m, 14, 1⟩
def ETH_STAT_FEC_UE (m : Nat) : RF := ⟨ETH_STAT m, 15, 1⟩
def ETH_STAT_TX_PSN (m : Nat) : RF := ⟨ETH_STAT m, 16, 1⟩

/-- ETH_RXF: Frames delivered (09_ethernet_fronthaul_converters). -/
def ETH_RXF (m : Nat) : Nat := 0x10200000 + (m / 16) * 0x8000000 + (m % 16) * 0x1000 + 0x8
def ETH_RXF_COUNT (m : Nat) : RF := ⟨ETH_RXF m, 0, 32⟩

/-- ETH_RXE: Receive discards (09_ethernet_fronthaul_converters). -/
def ETH_RXE (m : Nat) : Nat := 0x10200000 + (m / 16) * 0x8000000 + (m % 16) * 0x1000 + 0xC
def ETH_RXE_FCS (m : Nat) : RF := ⟨ETH_RXE m, 0, 16⟩
def ETH_RXE_DISC (m : Nat) : RF := ⟨ETH_RXE m, 16, 16⟩

/-- ETH_OVF: Port discards (09_ethernet_fronthaul_converters). -/
def ETH_OVF (m : Nat) : Nat := 0x10200000 + (m / 16) * 0x8000000 + (m % 16) * 0x1000 + 0x10
def ETH_OVF_OVF (m : Nat) : RF := ⟨ETH_OVF m, 0, 16⟩
def ETH_OVF_ECP_ERR (m : Nat) : RF := ⟨ETH_OVF m, 16, 16⟩

/-- ETH_TXF: Frames sent (09_ethernet_fronthaul_converters). -/
def ETH_TXF (m : Nat) : Nat := 0x10200000 + (m / 16) * 0x8000000 + (m % 16) * 0x1000 + 0x14
def ETH_TXF_COUNT (m : Nat) : RF := ⟨ETH_TXF m, 0, 32⟩

/-- ETH_FEC: RS-FEC counts (09_ethernet_fronthaul_converters). -/
def ETH_FEC (m : Nat) : Nat := 0x10200000 + (m / 16) * 0x8000000 + (m % 16) * 0x1000 + 0x18
def ETH_FEC_CORR (m : Nat) : RF := ⟨ETH_FEC m, 0, 16⟩
def ETH_FEC_UNCORR (m : Nat) : RF := ⟨ETH_FEC m, 16, 16⟩

/-- ETH_ECP_CFG: eCPRI parser (09_ethernet_fronthaul_converters). -/
def ETH_ECP_CFG (m : Nat) : Nat := 0x10200000 + (m / 16) * 0x8000000 + (m % 16) * 0x1000 + 0x1C
def ETH_ECP_CFG_DEF_PORT (m : Nat) : RF := ⟨ETH_ECP_CFG m, 0, 2⟩
def ETH_ECP_CFG_OTHER_PORT (m : Nat) : RF := ⟨ETH_ECP_CFG m, 2, 2⟩
def ETH_ECP_CFG_REV (m : Nat) : RF := ⟨ETH_ECP_CFG m, 4, 4⟩

/-- ETH_TXTS_TAG: Transmit timestamp tag (09_ethernet_fronthaul_converters). -/
def ETH_TXTS_TAG (m : Nat) : Nat := 0x10200000 + (m / 16) * 0x8000000 + (m % 16) * 0x1000 + 0x20
def ETH_TXTS_TAG_TAG (m : Nat) : RF := ⟨ETH_TXTS_TAG m, 0, 16⟩
def ETH_TXTS_TAG_VALID (m : Nat) : RF := ⟨ETH_TXTS_TAG m, 16, 1⟩

/-- ETH_TXTS_SEC: Timestamp seconds, low (09_ethernet_fronthaul_converters). -/
def ETH_TXTS_SEC (m : Nat) : Nat := 0x10200000 + (m / 16) * 0x8000000 + (m % 16) * 0x1000 + 0x24
def ETH_TXTS_SEC_SEC_LO (m : Nat) : RF := ⟨ETH_TXTS_SEC m, 0, 32⟩

/-- ETH_TXTS_X: Timestamp seconds, high, and fraction (09_ethernet_fronthaul_converters). -/
def ETH_TXTS_X (m : Nat) : Nat := 0x10200000 + (m / 16) * 0x8000000 + (m % 16) * 0x1000 + 0x28
def ETH_TXTS_X_SEC_HI (m : Nat) : RF := ⟨ETH_TXTS_X m, 0, 16⟩
def ETH_TXTS_X_FRAC (m : Nat) : RF := ⟨ETH_TXTS_X m, 16, 16⟩

/-- ETH_TXTS_NS: Timestamp nanoseconds (09_ethernet_fronthaul_converters). -/
def ETH_TXTS_NS (m : Nat) : Nat := 0x10200000 + (m / 16) * 0x8000000 + (m % 16) * 0x1000 + 0x2C
def ETH_TXTS_NS_NS (m : Nat) : RF := ⟨ETH_TXTS_NS m, 0, 32⟩

/-- ETH_ECPn_MATCH: Match value (09_ethernet_fronthaul_converters). -/
def ETH_ECPn_MATCH (m n : Nat) : Nat := 0x10200000 + (m / 16) * 0x8000000 + (m % 16) * 0x1000 + 0x100 + n * 0x8
def ETH_ECPn_MATCH_ID (m n : Nat) : RF := ⟨ETH_ECPn_MATCH m n, 0, 16⟩
def ETH_ECPn_MATCH_MASK (m n : Nat) : RF := ⟨ETH_ECPn_MATCH m n, 16, 16⟩

/-- ETH_ECPn_ACT: Match action (09_ethernet_fronthaul_converters). -/
def ETH_ECPn_ACT (m n : Nat) : Nat := 0x10200000 + (m / 16) * 0x8000000 + (m % 16) * 0x1000 + 0x104 + n * 0x8
def ETH_ECPn_ACT_TYPE (m n : Nat) : RF := ⟨ETH_ECPn_ACT m n, 0, 8⟩
def ETH_ECPn_ACT_ANY (m n : Nat) : RF := ⟨ETH_ECPn_ACT m n, 8, 1⟩
def ETH_ECPn_ACT_PORT (m n : Nat) : RF := ⟨ETH_ECPn_ACT m n, 9, 2⟩
def ETH_ECPn_ACT_EN (m n : Nat) : RF := ⟨ETH_ECPn_ACT m n, 11, 1⟩
def ETH_ECPn_ACT_TAG (m n : Nat) : RF := ⟨ETH_ECPn_ACT m n, 16, 12⟩

/-- JLK_CFG: Link configuration (09_ethernet_fronthaul_converters). -/
def JLK_CFG (j : Nat) : Nat := 0x10210000 + (j / 16) * 0x8000000 + (j % 16) * 0x1000
def JLK_CFG_EN (j : Nat) : RF := ⟨JLK_CFG j, 0, 1⟩
def JLK_CFG_DIR (j : Nat) : RF := ⟨JLK_CFG j, 1, 1⟩
def JLK_CFG_SYS (j : Nat) : RF := ⟨JLK_CFG j, 2, 3⟩
def JLK_CFG_CRC_EN (j : Nat) : RF := ⟨JLK_CFG j, 5, 1⟩
def JLK_CFG_E (j : Nat) : RF := ⟨JLK_CFG j, 6, 5⟩
def JLK_CFG_RBD (j : Nat) : RF := ⟨JLK_CFG j, 12, 12⟩

/-- JLK_LANES: Lanes (09_ethernet_fronthaul_converters). -/
def JLK_LANES (j : Nat) : Nat := 0x10210000 + (j / 16) * 0x8000000 + (j % 16) * 0x1000 + 0x4
def JLK_LANES_MASK (j : Nat) : RF := ⟨JLK_LANES j, 0, 16⟩

/-- JLK_LEMC: LEMC offset (09_ethernet_fronthaul_converters). -/
def JLK_LEMC (j : Nat) : Nat := 0x10210000 + (j / 16) * 0x8000000 + (j % 16) * 0x1000 + 0x8
def JLK_LEMC_OFS (j : Nat) : RF := ⟨JLK_LEMC j, 0, 12⟩

/-- JLK_STAT: Link status (09_ethernet_fronthaul_converters). -/
def JLK_STAT (j : Nat) : Nat := 0x10210000 + (j / 16) * 0x8000000 + (j % 16) * 0x1000 + 0xC
def JLK_STAT_STATE (j : Nat) : RF := ⟨JLK_STAT j, 0, 3⟩
def JLK_STAT_START (j : Nat) : RF := ⟨JLK_STAT j, 4, 4⟩
def JLK_STAT_STATE_EV (j : Nat) : RF := ⟨JLK_STAT j, 8, 1⟩
def JLK_STAT_CRC (j : Nat) : RF := ⟨JLK_STAT j, 9, 1⟩
def JLK_STAT_LATE (j : Nat) : RF := ⟨JLK_STAT j, 10, 1⟩
def JLK_STAT_EMB_LOSS (j : Nat) : RF := ⟨JLK_STAT j, 11, 1⟩
def JLK_STAT_RESYNC (j : Nat) : RF := ⟨JLK_STAT j, 12, 1⟩
def JLK_STAT_TX_PSN (j : Nat) : RF := ⟨JLK_STAT j, 13, 1⟩

/-- JLK_INFO: Derived figures (09_ethernet_fronthaul_converters). -/
def JLK_INFO (j : Nat) : Nat := 0x10210000 + (j / 16) * 0x8000000 + (j % 16) * 0x1000 + 0x10
def JLK_INFO_O (j : Nat) : RF := ⟨JLK_INFO j, 0, 5⟩
def JLK_INFO_L (j : Nat) : RF := ⟨JLK_INFO j, 5, 4⟩
def JLK_INFO_PE (j : Nat) : RF := ⟨JLK_INFO j, 12, 13⟩

/-- JLK_RXLAT: Arrival and margin (09_ethernet_fronthaul_converters). -/
def JLK_RXLAT (j : Nat) : Nat := 0x10210000 + (j / 16) * 0x8000000 + (j % 16) * 0x1000 + 0x14
def JLK_RXLAT_ARRIVAL (j : Nat) : RF := ⟨JLK_RXLAT j, 0, 16⟩
def JLK_RXLAT_MARGIN (j : Nat) : RF := ⟨JLK_RXLAT j, 16, 16⟩

/-- JLK_CNT: Link error counts (09_ethernet_fronthaul_converters). -/
def JLK_CNT (j : Nat) : Nat := 0x10210000 + (j / 16) * 0x8000000 + (j % 16) * 0x1000 + 0x18
def JLK_CNT_CRC (j : Nat) : RF := ⟨JLK_CNT j, 0, 16⟩
def JLK_CNT_LATE (j : Nat) : RF := ⟨JLK_CNT j, 16, 16⟩

/-- MSH_ID: Strap number (10_mesh_multidevice). -/
def MSH_ID : Nat := 0x2600000
def MSH_ID_STRAP : RF := ⟨MSH_ID, 0, 10⟩

/-- MSH_SERIAL: Device serial (10_mesh_multidevice). -/
def MSH_SERIAL : Nat := 0x2600004
def MSH_SERIAL_SERIAL : RF := ⟨MSH_SERIAL, 0, 32⟩

/-- MSH_CFG: Mesh configuration (10_mesh_multidevice). -/
def MSH_CFG : Nat := 0x2600008
def MSH_CFG_EN : RF := ⟨MSH_CFG, 0, 1⟩
def MSH_CFG_NUM_MODE : RF := ⟨MSH_CFG, 1, 1⟩
def MSH_CFG_ROOT_ELIG : RF := ⟨MSH_CFG, 2, 1⟩
def MSH_CFG_PRIO : RF := ⟨MSH_CFG, 4, 4⟩
def MSH_CFG_SETTLE : RF := ⟨MSH_CFG, 8, 8⟩
def MSH_CFG_BAR_TO : RF := ⟨MSH_CFG, 16, 16⟩

/-- MSH_STAT: Mesh status (10_mesh_multidevice). -/
def MSH_STAT : Nat := 0x260000C
def MSH_STAT_STATE : RF := ⟨MSH_STAT, 0, 3⟩
def MSH_STAT_NUM : RF := ⟨MSH_STAT, 4, 10⟩
def MSH_STAT_ROOT : RF := ⟨MSH_STAT, 16, 10⟩

/-- MSH_EVT: Mesh events (10_mesh_multidevice). -/
def MSH_EVT : Nat := 0x2600010
def MSH_EVT_TOPO : RF := ⟨MSH_EVT, 0, 1⟩
def MSH_EVT_ROOT_CHG : RF := ⟨MSH_EVT, 1, 1⟩
def MSH_EVT_STEP : RF := ⟨MSH_EVT, 2, 1⟩
def MSH_EVT_CLP_DONE : RF := ⟨MSH_EVT, 3, 1⟩
def MSH_EVT_CLP_FAIL : RF := ⟨MSH_EVT, 4, 1⟩
def MSH_EVT_BAR_REL : RF := ⟨MSH_EVT, 5, 1⟩
def MSH_EVT_SNAP : RF := ⟨MSH_EVT, 6, 1⟩
def MSH_EVT_LINK : RF := ⟨MSH_EVT, 7, 1⟩
def MSH_EVT_RXB : RF := ⟨MSH_EVT, 8, 1⟩

/-- MSH_TOPO: Tree (10_mesh_multidevice). -/
def MSH_TOPO : Nat := 0x2600014
def MSH_TOPO_DEPTH : RF := ⟨MSH_TOPO, 0, 10⟩
def MSH_TOPO_COUNT : RF := ⟨MSH_TOPO, 11, 11⟩
def MSH_TOPO_UP : RF := ⟨MSH_TOPO, 22, 4⟩
def MSH_TOPO_UP_VALID : RF := ⟨MSH_TOPO, 26, 1⟩

/-- MSH_CNT: Data counts (10_mesh_multidevice). -/
def MSH_CNT : Nat := 0x2600018
def MSH_CNT_LATE : RF := ⟨MSH_CNT, 0, 16⟩
def MSH_CNT_DISC : RF := ⟨MSH_CNT, 16, 16⟩

/-- MSH_PORTp_CFG: Port configuration (10_mesh_multidevice). -/
def MSH_PORTp_CFG (p : Nat) : Nat := if p < 8 then 0x2600100 + p * 0x20 else 0x2604100 + p * 0x20
def MSH_PORTp_CFG_EN (p : Nat) : RF := ⟨MSH_PORTp_CFG p, 0, 1⟩
def MSH_PORTp_CFG_WIDTH (p : Nat) : RF := ⟨MSH_PORTp_CFG p, 1, 2⟩
def MSH_PORTp_CFG_QUAD (p : Nat) : RF := ⟨MSH_PORTp_CFG p, 4, 6⟩

/-- MSH_PORTp_STAT: Port status (10_mesh_multidevice). -/
def MSH_PORTp_STAT (p : Nat) : Nat := if p < 8 then 0x2600104 + p * 0x20 else 0x2604104 + p * 0x20
def MSH_PORTp_STAT_STATE (p : Nat) : RF := ⟨MSH_PORTp_STAT p, 0, 2⟩
def MSH_PORTp_STAT_CAUSE (p : Nat) : RF := ⟨MSH_PORTp_STAT p, 4, 3⟩
def MSH_PORTp_STAT_PEER (p : Nat) : RF := ⟨MSH_PORTp_STAT p, 8, 10⟩
def MSH_PORTp_STAT_PEER_PORT (p : Nat) : RF := ⟨MSH_PORTp_STAT p, 18, 4⟩

/-- MSH_PORTp_DLY: Link time (10_mesh_multidevice). -/
def MSH_PORTp_DLY (p : Nat) : Nat := if p < 8 then 0x2600108 + p * 0x20 else 0x2604108 + p * 0x20
def MSH_PORTp_DLY_TIME (p : Nat) : RF := ⟨MSH_PORTp_DLY p, 0, 32⟩

/-- MSH_PORTp_ASYM: Asymmetry (10_mesh_multidevice). -/
def MSH_PORTp_ASYM (p : Nat) : Nat := if p < 8 then 0x260010C + p * 0x20 else 0x260410C + p * 0x20
def MSH_PORTp_ASYM_ASYM (p : Nat) : RF := ⟨MSH_PORTp_ASYM p, 0, 16⟩

/-- MSH_PORTp_CNT: Port counts (10_mesh_multidevice). -/
def MSH_PORTp_CNT (p : Nat) : Nat := if p < 8 then 0x2600110 + p * 0x20 else 0x2604110 + p * 0x20
def MSH_PORTp_CNT_RETRY (p : Nat) : RF := ⟨MSH_PORTp_CNT p, 0, 16⟩
def MSH_PORTp_CNT_CRC (p : Nat) : RF := ⟨MSH_PORTp_CNT p, 16, 16⟩

/-- MSH_CLP_TICK_LO: Clapper tick (10_mesh_multidevice). -/
def MSH_CLP_TICK_LO : Nat := 0x2600200
def MSH_CLP_TICK_LO_TICK : RF := ⟨MSH_CLP_TICK_LO, 0, 32⟩

/-- MSH_CLP_TICK_HI: Clapper tick (10_mesh_multidevice). -/
def MSH_CLP_TICK_HI : Nat := 0x2600204
def MSH_CLP_TICK_HI_TICK : RF := ⟨MSH_CLP_TICK_HI, 0, 32⟩

/-- MSH_CLP_CTL: Clapper request (10_mesh_multidevice). -/
def MSH_CLP_CTL : Nat := 0x2600208
def MSH_CLP_CTL_GO : RF := ⟨MSH_CLP_CTL, 0, 1⟩
def MSH_CLP_CTL_CANCEL : RF := ⟨MSH_CLP_CTL, 1, 1⟩
def MSH_CLP_CTL_KIND : RF := ⟨MSH_CLP_CTL, 4, 3⟩
def MSH_CLP_CTL_STATUS : RF := ⟨MSH_CLP_CTL, 8, 4⟩
def MSH_CLP_CTL_STATE : RF := ⟨MSH_CLP_CTL, 12, 2⟩
def MSH_CLP_CTL_FAILS : RF := ⟨MSH_CLP_CTL, 16, 10⟩

/-- MSH_CLP_ARG: Clapper argument (10_mesh_multidevice). -/
def MSH_CLP_ARG : Nat := 0x260020C
def MSH_CLP_ARG_KIND : RF := ⟨MSH_CLP_ARG, 0, 4⟩
def MSH_CLP_ARG_ID : RF := ⟨MSH_CLP_ARG, 8, 8⟩
def MSH_CLP_ARG_TARGET : RF := ⟨MSH_CLP_ARG, 16, 16⟩

/-- MSH_CLP_DATAk: Broadcast payload (10_mesh_multidevice). -/
def MSH_CLP_DATAk (k : Nat) : Nat := 0x2600210 + k * 0x4
def MSH_CLP_DATAk_DATA (k : Nat) : RF := ⟨MSH_CLP_DATAk k, 0, 32⟩

/-- MSH_RXB_DATAk: Received payload (10_mesh_multidevice). -/
def MSH_RXB_DATAk (k : Nat) : Nat := 0x2600240 + k * 0x4
def MSH_RXB_DATAk_DATA (k : Nat) : RF := ⟨MSH_RXB_DATAk k, 0, 32⟩

/-- MSH_RXB_STAT: Received broadcast (10_mesh_multidevice). -/
def MSH_RXB_STAT : Nat := 0x2600260
def MSH_RXB_STAT_SRC : RF := ⟨MSH_RXB_STAT, 0, 10⟩
def MSH_RXB_STAT_OVR : RF := ⟨MSH_RXB_STAT, 11, 1⟩

/-- MSH_BAR: Barrier (10_mesh_multidevice). -/
def MSH_BAR : Nat := 0x2600280
def MSH_BAR_ID : RF := ⟨MSH_BAR, 0, 4⟩
def MSH_BAR_ARRIVE : RF := ⟨MSH_BAR, 4, 1⟩
def MSH_BAR_ARRIVED : RF := ⟨MSH_BAR, 5, 1⟩
def MSH_BAR_STATUS : RF := ⟨MSH_BAR, 6, 4⟩

/-- MSH_SNAP_TE: Snapshot values (10_mesh_multidevice). -/
def MSH_SNAP_TE : Nat := 0x2600300
def MSH_SNAP_TE_VALUE : RF := ⟨MSH_SNAP_TE, 0, 32⟩

/-- MSH_SNAP_BOUND: Snapshot values (10_mesh_multidevice). -/
def MSH_SNAP_BOUND : Nat := 0x2600304
def MSH_SNAP_BOUND_VALUE : RF := ⟨MSH_SNAP_BOUND, 0, 32⟩

/-- MSH_SNAP_PCOUNT: Snapshot values (10_mesh_multidevice). -/
def MSH_SNAP_PCOUNT : Nat := 0x2600308
def MSH_SNAP_PCOUNT_VALUE : RF := ⟨MSH_SNAP_PCOUNT, 0, 32⟩

/-- MSH_SNAP_MISC: Snapshot state (10_mesh_multidevice). -/
def MSH_SNAP_MISC : Nat := 0x260030C
def MSH_SNAP_MISC_CTY_STATE : RF := ⟨MSH_SNAP_MISC, 0, 3⟩
def MSH_SNAP_MISC_DLY_HEAD : RF := ⟨MSH_SNAP_MISC, 4, 11⟩
def MSH_SNAP_MISC_ID : RF := ⟨MSH_SNAP_MISC, 16, 8⟩

/-- MSH_RTd: Routing entry (10_mesh_multidevice). -/
def MSH_RTd (d : Nat) : Nat := 0x2608000 + d * 0x4
def MSH_RTd_PORT (d : Nat) : RF := ⟨MSH_RTd d, 0, 4⟩
def MSH_RTd_LOCAL (d : Nat) : RF := ⟨MSH_RTd d, 4, 1⟩
def MSH_RTd_VALID (d : Nat) : RF := ⟨MSH_RTd d, 5, 1⟩
def MSH_RTd_HOPS (d : Nat) : RF := ⟨MSH_RTd d, 6, 10⟩

/-- DMC_CFG: Channel configuration (11_dram_controller). -/
def DMC_CFG (n : Nat) : Nat := 0x2400000 + n * 0x10000
def DMC_CFG_EN (n : Nat) : RF := ⟨DMC_CFG n, 0, 1⟩
def DMC_CFG_RANKS (n : Nat) : RF := ⟨DMC_CFG n, 1, 1⟩
def DMC_CFG_DENSITY (n : Nat) : RF := ⟨DMC_CFG n, 2, 1⟩
def DMC_CFG_REF_MODE (n : Nat) : RF := ⟨DMC_CFG n, 3, 1⟩

/-- DMC_STAT: Channel status (11_dram_controller). -/
def DMC_STAT (n : Nat) : Nat := 0x2400000 + n * 0x10000 + 0x4
def DMC_STAT_STATE (n : Nat) : RF := ⟨DMC_STAT n, 0, 3⟩
def DMC_STAT_SET (n : Nat) : RF := ⟨DMC_STAT n, 3, 2⟩
def DMC_STAT_TRAINED (n : Nat) : RF := ⟨DMC_STAT n, 5, 3⟩
def DMC_STAT_HOT (n : Nat) : RF := ⟨DMC_STAT n, 8, 1⟩
def DMC_STAT_DRIFT (n : Nat) : RF := ⟨DMC_STAT n, 9, 1⟩
def DMC_STAT_RH_FULL (n : Nat) : RF := ⟨DMC_STAT n, 10, 1⟩
def DMC_STAT_INORDER (n : Nat) : RF := ⟨DMC_STAT n, 11, 5⟩
def DMC_STAT_TRAIN_DONE (n : Nat) : RF := ⟨DMC_STAT n, 16, 1⟩
def DMC_STAT_TRAIN_FAIL (n : Nat) : RF := ⟨DMC_STAT n, 17, 1⟩
def DMC_STAT_FCHG_DONE (n : Nat) : RF := ⟨DMC_STAT n, 18, 1⟩
def DMC_STAT_TIMEOUT (n : Nat) : RF := ⟨DMC_STAT n, 19, 1⟩
def DMC_STAT_MISS (n : Nat) : RF := ⟨DMC_STAT n, 20, 1⟩
def DMC_STAT_CLK_FAIL (n : Nat) : RF := ⟨DMC_STAT n, 21, 1⟩
def DMC_STAT_REFUSED (n : Nat) : RF := ⟨DMC_STAT n, 22, 1⟩

/-- DMC_TRAIN: Training (11_dram_controller). -/
def DMC_TRAIN (n : Nat) : Nat := 0x2400000 + n * 0x10000 + 0x8
def DMC_TRAIN_START (n : Nat) : RF := ⟨DMC_TRAIN n, 0, 1⟩
def DMC_TRAIN_SET (n : Nat) : RF := ⟨DMC_TRAIN n, 1, 2⟩
def DMC_TRAIN_STATUS (n : Nat) : RF := ⟨DMC_TRAIN n, 4, 4⟩
def DMC_TRAIN_STEP (n : Nat) : RF := ⟨DMC_TRAIN n, 8, 3⟩

/-- DMC_FCHG: Frequency change (11_dram_controller). -/
def DMC_FCHG (n : Nat) : Nat := 0x2400000 + n * 0x10000 + 0xC
def DMC_FCHG_GO (n : Nat) : RF := ⟨DMC_FCHG n, 0, 1⟩
def DMC_FCHG_SET (n : Nat) : RF := ⟨DMC_FCHG n, 1, 2⟩
def DMC_FCHG_AT_EN (n : Nat) : RF := ⟨DMC_FCHG n, 3, 1⟩
def DMC_FCHG_STATUS (n : Nat) : RF := ⟨DMC_FCHG n, 4, 4⟩
def DMC_FCHG_PENDING (n : Nat) : RF := ⟨DMC_FCHG n, 8, 1⟩

/-- DMC_FCHG_AT_LO: Change tick (11_dram_controller). -/
def DMC_FCHG_AT_LO (n : Nat) : Nat := 0x2400000 + n * 0x10000 + 0x10
def DMC_FCHG_AT_LO_AT (n : Nat) : RF := ⟨DMC_FCHG_AT_LO n, 0, 32⟩

/-- DMC_FCHG_AT_HI: Change tick (11_dram_controller). -/
def DMC_FCHG_AT_HI (n : Nat) : Nat := 0x2400000 + n * 0x10000 + 0x14
def DMC_FCHG_AT_HI_AT (n : Nat) : RF := ⟨DMC_FCHG_AT_HI n, 0, 32⟩

/-- DMC_CNT: Error counts (11_dram_controller). -/
def DMC_CNT (n : Nat) : Nat := 0x2400000 + n * 0x10000 + 0x18
def DMC_CNT_TIMEOUT (n : Nat) : RF := ⟨DMC_CNT n, 0, 16⟩
def DMC_CNT_ADDR_ERR (n : Nat) : RF := ⟨DMC_CNT n, 16, 16⟩

/-- DMC_ERR: First timeout (11_dram_controller). -/
def DMC_ERR (n : Nat) : Nat := 0x2400000 + n * 0x10000 + 0x1C
def DMC_ERR_BURST (n : Nat) : RF := ⟨DMC_ERR n, 0, 30⟩
def DMC_ERR_WRITE (n : Nat) : RF := ⟨DMC_ERR n, 30, 1⟩
def DMC_ERR_VALID (n : Nat) : RF := ⟨DMC_ERR n, 31, 1⟩

/-- DMC_RH: Row disturbance control (11_dram_controller). -/
def DMC_RH (n : Nat) : Nat := 0x2400000 + n * 0x10000 + 0x20
def DMC_RH_THRESH (n : Nat) : RF := ⟨DMC_RH n, 0, 16⟩
def DMC_RH_BLAST (n : Nat) : RF := ⟨DMC_RH n, 16, 2⟩
def DMC_RH_PSHIFT (n : Nat) : RF := ⟨DMC_RH n, 18, 4⟩
def DMC_RH_RFM_EN (n : Nat) : RF := ⟨DMC_RH n, 22, 1⟩

/-- DMC_RH_STAT: Row disturbance status (11_dram_controller). -/
def DMC_RH_STAT (n : Nat) : Nat := 0x2400000 + n * 0x10000 + 0x24
def DMC_RH_STAT_USED (n : Nat) : RF := ⟨DMC_RH_STAT n, 0, 13⟩
def DMC_RH_STAT_MITIG (n : Nat) : RF := ⟨DMC_RH_STAT n, 16, 16⟩

/-- DMC_SETs_RATE: Set rate (11_dram_controller). -/
def DMC_SETs_RATE (n s : Nat) : Nat := 0x2400000 + n * 0x10000 + 0x100 + s * 0x10
def DMC_SETs_RATE_RATE (n s : Nat) : RF := ⟨DMC_SETs_RATE n s, 0, 3⟩

/-- DMC_SETs_TA: Set timings A (11_dram_controller). -/
def DMC_SETs_TA (n s : Nat) : Nat := 0x2400000 + n * 0x10000 + 0x104 + s * 0x10
def DMC_SETs_TA_CL (n s : Nat) : RF := ⟨DMC_SETs_TA n s, 0, 7⟩
def DMC_SETs_TA_CWL (n s : Nat) : RF := ⟨DMC_SETs_TA n s, 7, 7⟩
def DMC_SETs_TA_RCD (n s : Nat) : RF := ⟨DMC_SETs_TA n s, 14, 7⟩
def DMC_SETs_TA_RP (n s : Nat) : RF := ⟨DMC_SETs_TA n s, 21, 7⟩

/-- DMC_SETs_TB: Set timings B (11_dram_controller). -/
def DMC_SETs_TB (n s : Nat) : Nat := 0x2400000 + n * 0x10000 + 0x108 + s * 0x10
def DMC_SETs_TB_RAS (n s : Nat) : RF := ⟨DMC_SETs_TB n s, 0, 8⟩
def DMC_SETs_TB_RFC (n s : Nat) : RF := ⟨DMC_SETs_TB n s, 8, 12⟩
def DMC_SETs_TB_FAW (n s : Nat) : RF := ⟨DMC_SETs_TB n s, 20, 8⟩

/-- DMC_PORTk_CFG: Port target (11_dram_controller). -/
def DMC_PORTk_CFG (n k : Nat) : Nat := 0x2400000 + n * 0x10000 + 0x200 + k * 0x8
def DMC_PORTk_CFG_TGT (n k : Nat) : RF := ⟨DMC_PORTk_CFG n k, 0, 16⟩
def DMC_PORTk_CFG_PANIC_EN (n k : Nat) : RF := ⟨DMC_PORTk_CFG n k, 16, 1⟩

/-- DMC_PORTk_CNT: Port counts (11_dram_controller). -/
def DMC_PORTk_CNT (n k : Nat) : Nat := 0x2400000 + n * 0x10000 + 0x204 + k * 0x8
def DMC_PORTk_CNT_MISS (n k : Nat) : RF := ⟨DMC_PORTk_CNT n k, 0, 16⟩
def DMC_PORTk_CNT_PANIC (n k : Nat) : RF := ⟨DMC_PORTk_CNT n k, 16, 16⟩

/-- MPE_CFG: Configuration (12_memory_protection). -/
def MPE_CFG : Nat := 0x2500000
def MPE_CFG_CHMASK : RF := ⟨MPE_CFG, 0, 4⟩
def MPE_CFG_BCH_T : RF := ⟨MPE_CFG, 4, 6⟩
def MPE_CFG_ROT_GAP : RF := ⟨MPE_CFG, 16, 8⟩

/-- MPE_STAT: Status (12_memory_protection). -/
def MPE_STAT : Nat := 0x2500004
def MPE_STAT_CE : RF := ⟨MPE_STAT, 0, 1⟩
def MPE_STAT_UE : RF := ⟨MPE_STAT, 1, 1⟩
def MPE_STAT_INTEG : RF := ⟨MPE_STAT, 2, 1⟩
def MPE_STAT_TREE : RF := ⟨MPE_STAT, 3, 1⟩
def MPE_STAT_RETIRED : RF := ⟨MPE_STAT, 4, 1⟩
def MPE_STAT_ROT_DONE : RF := ⟨MPE_STAT, 5, 1⟩
def MPE_STAT_REFUSED : RF := ⟨MPE_STAT, 6, 1⟩
def MPE_STAT_RNG_FAIL : RF := ⟨MPE_STAT, 7, 1⟩

/-- MPE_WIN_BASE: Window base (12_memory_protection). -/
def MPE_WIN_BASE : Nat := 0x2500008
def MPE_WIN_BASE_BASE : RF := ⟨MPE_WIN_BASE, 0, 18⟩

/-- MPE_CAP: Protected capacity (12_memory_protection). -/
def MPE_CAP : Nat := 0x250000C
def MPE_CAP_MIB : RF := ⟨MPE_CAP, 0, 18⟩

/-- MPE_CNT: Error counts (12_memory_protection). -/
def MPE_CNT : Nat := 0x2500010
def MPE_CNT_CE_COUNT : RF := ⟨MPE_CNT, 0, 16⟩
def MPE_CNT_UE_COUNT : RF := ⟨MPE_CNT, 16, 16⟩

/-- MPE_ERR: First untrusted sector (12_memory_protection). -/
def MPE_ERR : Nat := 0x2500014
def MPE_ERR_LBN : RF := ⟨MPE_ERR, 0, 29⟩
def MPE_ERR_VALID : RF := ⟨MPE_ERR, 31, 1⟩

/-- MPE_ERR_CAUSE: First error cause (12_memory_protection). -/
def MPE_ERR_CAUSE : Nat := 0x2500018
def MPE_ERR_CAUSE_CAUSE : RF := ⟨MPE_ERR_CAUSE, 0, 2⟩
def MPE_ERR_CAUSE_CHAN : RF := ⟨MPE_ERR_CAUSE, 2, 2⟩
def MPE_ERR_CAUSE_CONSUMER : RF := ⟨MPE_ERR_CAUSE, 4, 3⟩

/-- MPE_CHn_STAT: Channel state (12_memory_protection). -/
def MPE_CHn_STAT (n : Nat) : Nat := 0x2500100 + n * 0x40
def MPE_CHn_STAT_STATE (n : Nat) : RF := ⟨MPE_CHn_STAT n, 0, 2⟩
def MPE_CHn_STAT_TREE_FAIL (n : Nat) : RF := ⟨MPE_CHn_STAT n, 2, 1⟩
def MPE_CHn_STAT_KEYGEN (n : Nat) : RF := ⟨MPE_CHn_STAT n, 8, 8⟩

/-- MPE_CHn_BND: Rotation boundary (12_memory_protection). -/
def MPE_CHn_BND (n : Nat) : Nat := 0x2500104 + n * 0x40
def MPE_CHn_BND_BOUND (n : Nat) : RF := ⟨MPE_CHn_BND n, 0, 27⟩

/-- MPE_CHn_SECT: Channel sectors (12_memory_protection). -/
def MPE_CHn_SECT (n : Nat) : Nat := 0x2500108 + n * 0x40
def MPE_CHn_SECT_SECTORS (n : Nat) : RF := ⟨MPE_CHn_SECT n, 0, 27⟩

/-- MPE_CHn_KEY_TICK_LO: KEY Cut tick (12_memory_protection). -/
def MPE_CHn_KEY_TICK_LO (n : Nat) : Nat := 0x250010C + n * 0x40
def MPE_CHn_KEY_TICK_LO_TICK (n : Nat) : RF := ⟨MPE_CHn_KEY_TICK_LO n, 0, 32⟩

/-- MPE_CHn_KEY_TICK_HI: KEY Cut tick (12_memory_protection). -/
def MPE_CHn_KEY_TICK_HI (n : Nat) : Nat := 0x2500110 + n * 0x40
def MPE_CHn_KEY_TICK_HI_TICK (n : Nat) : RF := ⟨MPE_CHn_KEY_TICK_HI n, 0, 32⟩

/-- MPE_CHn_KEY_CTL: KEY Cut request (12_memory_protection). -/
def MPE_CHn_KEY_CTL (n : Nat) : Nat := 0x2500114 + n * 0x40
def MPE_CHn_KEY_CTL_ARM (n : Nat) : RF := ⟨MPE_CHn_KEY_CTL n, 0, 1⟩
def MPE_CHn_KEY_CTL_CANCEL (n : Nat) : RF := ⟨MPE_CHn_KEY_CTL n, 1, 1⟩
def MPE_CHn_KEY_CTL_SLOT (n : Nat) : RF := ⟨MPE_CHn_KEY_CTL n, 8, 5⟩
def MPE_CHn_KEY_CTL_STATUS (n : Nat) : RF := ⟨MPE_CHn_KEY_CTL n, 16, 4⟩
def MPE_CHn_KEY_CTL_STATE (n : Nat) : RF := ⟨MPE_CHn_KEY_CTL n, 20, 3⟩

/-- MPE_RETn_e: Retire entry (12_memory_protection). -/
def MPE_RETn_e (n e : Nat) : Nat := 0x2501000 + n * 0x400 + e * 0x4
def MPE_RETn_e_KIND (n e : Nat) : RF := ⟨MPE_RETn_e n e, 0, 2⟩
def MPE_RETn_e_INDEX (n e : Nat) : RF := ⟨MPE_RETn_e n e, 2, 27⟩
def MPE_RETn_e_HIT (n e : Nat) : RF := ⟨MPE_RETn_e n e, 31, 1⟩

/-- NVS_CFG: Store configuration (13_configuration_store_and_loading). -/
def NVS_CFG : Nat := 0x2210000
def NVS_CFG_ECC_T : RF := ⟨NVS_CFG, 0, 6⟩
def NVS_CFG_WEAR_THR : RF := ⟨NVS_CFG, 6, 6⟩

/-- NVS_CMD: Operation command (13_configuration_store_and_loading). -/
def NVS_CMD : Nat := 0x2210004
def NVS_CMD_GO : RF := ⟨NVS_CMD, 0, 1⟩
def NVS_CMD_SUSPEND : RF := ⟨NVS_CMD, 1, 1⟩
def NVS_CMD_RESUME : RF := ⟨NVS_CMD, 2, 1⟩
def NVS_CMD_OP : RF := ⟨NVS_CMD, 4, 2⟩
def NVS_CMD_COUNT : RF := ⟨NVS_CMD, 16, 7⟩

/-- NVS_ADDR: Operation offset (13_configuration_store_and_loading). -/
def NVS_ADDR : Nat := 0x2210008
def NVS_ADDR_OFFSET : RF := ⟨NVS_ADDR, 0, 30⟩

/-- NVS_SRC: Program source (13_configuration_store_and_loading). -/
def NVS_SRC : Nat := 0x221000C
def NVS_SRC_ADDR : RF := ⟨NVS_SRC, 0, 32⟩

/-- NVS_STAT: Store status (13_configuration_store_and_loading). -/
def NVS_STAT : Nat := 0x2210010
def NVS_STAT_STATE : RF := ⟨NVS_STAT, 0, 2⟩
def NVS_STAT_STATUS : RF := ⟨NVS_STAT, 4, 4⟩
def NVS_STAT_BANK : RF := ⟨NVS_STAT, 8, 5⟩
def NVS_STAT_DONE : RF := ⟨NVS_STAT, 16, 1⟩
def NVS_STAT_REFUSED : RF := ⟨NVS_STAT, 17, 1⟩
def NVS_STAT_BUSY_READ : RF := ⟨NVS_STAT, 18, 1⟩
def NVS_STAT_CE : RF := ⟨NVS_STAT, 19, 1⟩
def NVS_STAT_UE : RF := ⟨NVS_STAT, 20, 1⟩
def NVS_STAT_WEAR : RF := ⟨NVS_STAT, 21, 1⟩
def NVS_STAT_INTERRUPTED : RF := ⟨NVS_STAT, 22, 1⟩
def NVS_STAT_BROWNOUT : RF := ⟨NVS_STAT, 23, 1⟩
def NVS_STAT_RO_WRITE : RF := ⟨NVS_STAT, 24, 1⟩

/-- NVS_CNT: Page error counts (13_configuration_store_and_loading). -/
def NVS_CNT : Nat := 0x2210014
def NVS_CNT_CE_COUNT : RF := ⟨NVS_CNT, 0, 16⟩
def NVS_CNT_WEAR_COUNT : RF := ⟨NVS_CNT, 16, 16⟩

/-- NVS_ERR: First uncorrectable page (13_configuration_store_and_loading). -/
def NVS_ERR : Nat := 0x2210018
def NVS_ERR_PAGE : RF := ⟨NVS_ERR, 0, 19⟩
def NVS_ERR_VALID : RF := ⟨NVS_ERR, 31, 1⟩

/-- NVS_INTR: Interrupted blocks (13_configuration_store_and_loading). -/
def NVS_INTR : Nat := 0x221001C
def NVS_INTR_COUNT : RF := ⟨NVS_INTR, 0, 12⟩
def NVS_INTR_FIRST : RF := ⟨NVS_INTR, 16, 12⟩
def NVS_INTR_VALID : RF := ⟨NVS_INTR, 31, 1⟩

/-- NVS_WIN: Read window base (13_configuration_store_and_loading). -/
def NVS_WIN : Nat := 0x2210020
def NVS_WIN_BASE : RF := ⟨NVS_WIN, 0, 15⟩

/-- NVS_BOOT: Boot record values (13_configuration_store_and_loading). -/
def NVS_BOOT : Nat := 0x2210024
def NVS_BOOT_CUR : RF := ⟨NVS_BOOT, 0, 2⟩
def NVS_BOOT_PREV : RF := ⟨NVS_BOOT, 2, 2⟩

/-- NVS_BOOT_STAT: Boot record (13_configuration_store_and_loading). -/
def NVS_BOOT_STAT : Nat := 0x2210028
def NVS_BOOT_STAT_CUR : RF := ⟨NVS_BOOT_STAT, 0, 2⟩
def NVS_BOOT_STAT_PREV : RF := ⟨NVS_BOOT_STAT, 2, 2⟩
def NVS_BOOT_STAT_VALID : RF := ⟨NVS_BOOT_STAT, 4, 1⟩
def NVS_BOOT_STAT_SEQ : RF := ⟨NVS_BOOT_STAT, 8, 24⟩

/-- CFG_CTL: Loader control (13_configuration_store_and_loading). -/
def CFG_CTL : Nat := 0x2200000
def CFG_CTL_START : RF := ⟨CFG_CTL, 0, 1⟩
def CFG_CTL_ABORT : RF := ⟨CFG_CTL, 1, 1⟩
def CFG_CTL_END : RF := ⟨CFG_CTL, 2, 1⟩
def CFG_CTL_SRC : RF := ⟨CFG_CTL, 3, 2⟩
def CFG_CTL_SLOT : RF := ⟨CFG_CTL, 5, 2⟩
def CFG_CTL_PORT : RF := ⟨CFG_CTL, 8, 4⟩

/-- CFG_STAT: Loader status (13_configuration_store_and_loading). -/
def CFG_STAT : Nat := 0x2200004
def CFG_STAT_STATE : RF := ⟨CFG_STAT, 0, 3⟩
def CFG_STAT_STATUS : RF := ⟨CFG_STAT, 4, 4⟩
def CFG_STAT_DONE : RF := ⟨CFG_STAT, 8, 1⟩
def CFG_STAT_FAIL : RF := ⟨CFG_STAT, 9, 1⟩
def CFG_STAT_SPACE : RF := ⟨CFG_STAT, 16, 16⟩

/-- CFG_DATA: Supervisor stream (13_configuration_store_and_loading). -/
def CFG_DATA : Nat := 0x2200008
def CFG_DATA_WORD : RF := ⟨CFG_DATA, 0, 32⟩

/-- CFG_IMG: Released image (13_configuration_store_and_loading). -/
def CFG_IMG : Nat := 0x220000C
def CFG_IMG_BUILD : RF := ⟨CFG_IMG, 0, 32⟩

/-- CFG_IMG_SRC: Released image source (13_configuration_store_and_loading). -/
def CFG_IMG_SRC : Nat := 0x2200010
def CFG_IMG_SRC_SRC : RF := ⟨CFG_IMG_SRC, 0, 2⟩
def CFG_IMG_SRC_SLOT : RF := ⟨CFG_IMG_SRC, 2, 2⟩
def CFG_IMG_SRC_TARGET : RF := ⟨CFG_IMG_SRC, 4, 10⟩
def CFG_IMG_SRC_VALID : RF := ⟨CFG_IMG_SRC, 31, 1⟩

/-- CFG_FAIL: Last failure (13_configuration_store_and_loading). -/
def CFG_FAIL : Nat := 0x2200014
def CFG_FAIL_STATUS : RF := ⟨CFG_FAIL, 0, 4⟩
def CFG_FAIL_SRC : RF := ⟨CFG_FAIL, 4, 2⟩
def CFG_FAIL_OFFSET : RF := ⟨CFG_FAIL, 8, 24⟩

/-- CFG_SERVE: Serving neighbours (13_configuration_store_and_loading). -/
def CFG_SERVE : Nat := 0x2200018
def CFG_SERVE_EN : RF := ⟨CFG_SERVE, 0, 1⟩

/-- CFG_PORT_CNT: Stray load-port words (13_configuration_store_and_loading). -/
def CFG_PORT_CNT : Nat := 0x220001C
def CFG_PORT_CNT_COUNT : RF := ⟨CFG_PORT_CNT, 0, 32⟩

/-- CFG_KEY_DATAk: Key data (13_configuration_store_and_loading). -/
def CFG_KEY_DATAk (k : Nat) : Nat := 0x2200100 + k * 0x4
def CFG_KEY_DATAk_DATA (k : Nat) : RF := ⟨CFG_KEY_DATAk k, 0, 32⟩

/-- CFG_KEY_CTL: Key control (13_configuration_store_and_loading). -/
def CFG_KEY_CTL : Nat := 0x2200120
def CFG_KEY_CTL_WRITE : RF := ⟨CFG_KEY_CTL, 0, 1⟩
def CFG_KEY_CTL_ERASE : RF := ⟨CFG_KEY_CTL, 1, 1⟩
def CFG_KEY_CTL_FUSE : RF := ⟨CFG_KEY_CTL, 2, 1⟩

/-- CFG_KEY_STAT: Key status (13_configuration_store_and_loading). -/
def CFG_KEY_STAT : Nat := 0x2200124
def CFG_KEY_STAT_FUSE_PRESENT : RF := ⟨CFG_KEY_STAT, 0, 1⟩
def CFG_KEY_STAT_STORE_PRESENT : RF := ⟨CFG_KEY_STAT, 1, 1⟩
def CFG_KEY_STAT_OPTION : RF := ⟨CFG_KEY_STAT, 2, 1⟩
def CFG_KEY_STAT_ERASED : RF := ⟨CFG_KEY_STAT, 3, 1⟩
def CFG_KEY_STAT_TAMPER : RF := ⟨CFG_KEY_STAT, 4, 1⟩

/-- CFG_KEY_CHK: Key check (13_configuration_store_and_loading). -/
def CFG_KEY_CHK : Nat := 0x2200128
def CFG_KEY_CHK_CHK : RF := ⟨CFG_KEY_CHK, 0, 32⟩

/-- SPL_CTL: Splice control (14_splice_and_scrub). -/
def SPL_CTL : Nat := 0x2220000
def SPL_CTL_START : RF := ⟨SPL_CTL, 0, 1⟩
def SPL_CTL_ABORT : RF := ⟨SPL_CTL, 1, 1⟩
def SPL_CTL_END : RF := ⟨SPL_CTL, 2, 1⟩
def SPL_CTL_SRC : RF := ⟨SPL_CTL, 3, 1⟩
def SPL_CTL_ICP_EN : RF := ⟨SPL_CTL, 4, 2⟩

/-- SPL_STAT: Splice status (14_splice_and_scrub). -/
def SPL_STAT : Nat := 0x2220004
def SPL_STAT_STATE : RF := ⟨SPL_STAT, 0, 3⟩
def SPL_STAT_STATUS : RF := ⟨SPL_STAT, 4, 4⟩
def SPL_STAT_DONE : RF := ⟨SPL_STAT, 8, 1⟩
def SPL_STAT_FAIL : RF := ⟨SPL_STAT, 9, 1⟩
def SPL_STAT_SPACE : RF := ⟨SPL_STAT, 16, 16⟩

/-- SPL_CUT_TICK_LO: Commit tick (14_splice_and_scrub). -/
def SPL_CUT_TICK_LO : Nat := 0x2220008
def SPL_CUT_TICK_LO_TICK : RF := ⟨SPL_CUT_TICK_LO, 0, 32⟩

/-- SPL_CUT_TICK_HI: Commit tick (14_splice_and_scrub). -/
def SPL_CUT_TICK_HI : Nat := 0x222000C
def SPL_CUT_TICK_HI_TICK : RF := ⟨SPL_CUT_TICK_HI, 0, 32⟩

/-- SPL_SRC: Store source (14_splice_and_scrub). -/
def SPL_SRC : Nat := 0x2220010
def SPL_SRC_OFFSET : RF := ⟨SPL_SRC, 0, 30⟩

/-- SPL_DATA: Supervisor stream (14_splice_and_scrub). -/
def SPL_DATA : Nat := 0x2220014
def SPL_DATA_WORD : RF := ⟨SPL_DATA, 0, 32⟩

/-- SPL_FAIL: Last failure (14_splice_and_scrub). -/
def SPL_FAIL : Nat := 0x2220018
def SPL_FAIL_STATUS : RF := ⟨SPL_FAIL, 0, 4⟩
def SPL_FAIL_SRC : RF := ⟨SPL_FAIL, 4, 2⟩
def SPL_FAIL_OFFSET : RF := ⟨SPL_FAIL, 8, 24⟩

/-- SPL_SCRUB_CTL: Scrub control (14_splice_and_scrub). -/
def SPL_SCRUB_CTL : Nat := 0x2220020
def SPL_SCRUB_CTL_EN : RF := ⟨SPL_SCRUB_CTL, 0, 1⟩

/-- SPL_SCRUB_STAT: Scrub status (14_splice_and_scrub). -/
def SPL_SCRUB_STAT : Nat := 0x2220024
def SPL_SCRUB_STAT_SLOT : RF := ⟨SPL_SCRUB_STAT, 0, 15⟩
def SPL_SCRUB_STAT_ACTIVE : RF := ⟨SPL_SCRUB_STAT, 15, 1⟩
def SPL_SCRUB_STAT_QUEUE : RF := ⟨SPL_SCRUB_STAT, 16, 5⟩
def SPL_SCRUB_STAT_MISMATCH : RF := ⟨SPL_SCRUB_STAT, 24, 1⟩
def SPL_SCRUB_STAT_ISOLATED : RF := ⟨SPL_SCRUB_STAT, 25, 1⟩

/-- SPL_SCRUB_CNT: Scrub counts (14_splice_and_scrub). -/
def SPL_SCRUB_CNT : Nat := 0x2220028
def SPL_SCRUB_CNT_MISMATCH : RF := ⟨SPL_SCRUB_CNT, 0, 16⟩
def SPL_SCRUB_CNT_DEFERRED : RF := ⟨SPL_SCRUB_CNT, 16, 16⟩

/-- SPL_SCRUB_ERR: First mismatch (14_splice_and_scrub). -/
def SPL_SCRUB_ERR : Nat := 0x222002C
def SPL_SCRUB_ERR_FRAME : RF := ⟨SPL_SCRUB_ERR, 0, 31⟩
def SPL_SCRUB_ERR_VALID : RF := ⟨SPL_SCRUB_ERR, 31, 1⟩

/-- SPL_REGr_DEF: Region definition (14_splice_and_scrub). -/
def SPL_REGr_DEF (r : Nat) : Nat := 0x2220100 + r * 0x10
def SPL_REGr_DEF_VALID (r : Nat) : RF := ⟨SPL_REGr_DEF r, 0, 1⟩
def SPL_REGr_DEF_DIE (r : Nat) : RF := ⟨SPL_REGr_DEF r, 1, 1⟩
def SPL_REGr_DEF_IO (r : Nat) : RF := ⟨SPL_REGr_DEF r, 2, 1⟩
def SPL_REGr_DEF_X0 (r : Nat) : RF := ⟨SPL_REGr_DEF r, 4, 7⟩
def SPL_REGr_DEF_X1 (r : Nat) : RF := ⟨SPL_REGr_DEF r, 11, 7⟩
def SPL_REGr_DEF_Y0 (r : Nat) : RF := ⟨SPL_REGr_DEF r, 18, 6⟩
def SPL_REGr_DEF_Y1 (r : Nat) : RF := ⟨SPL_REGr_DEF r, 24, 6⟩

/-- SPL_REGr_STAT: Region status (14_splice_and_scrub). -/
def SPL_REGr_STAT (r : Nat) : Nat := 0x2220104 + r * 0x10
def SPL_REGr_STAT_STATE (r : Nat) : RF := ⟨SPL_REGr_STAT r, 0, 2⟩
def SPL_REGr_STAT_ISOLATED (r : Nat) : RF := ⟨SPL_REGr_STAT r, 2, 1⟩
def SPL_REGr_STAT_STAGING (r : Nat) : RF := ⟨SPL_REGr_STAT r, 3, 1⟩
def SPL_REGr_STAT_REPAIR (r : Nat) : RF := ⟨SPL_REGr_STAT r, 4, 1⟩
def SPL_REGr_STAT_REPAIRED (r : Nat) : RF := ⟨SPL_REGr_STAT r, 8, 1⟩
def SPL_REGr_STAT_HARD (r : Nat) : RF := ⟨SPL_REGr_STAT r, 9, 1⟩
def SPL_REGr_STAT_ABORTED (r : Nat) : RF := ⟨SPL_REGr_STAT r, 10, 1⟩
def SPL_REGr_STAT_MISMATCH (r : Nat) : RF := ⟨SPL_REGr_STAT r, 16, 16⟩

/-- SPL_REGr_CTL: Region control (14_splice_and_scrub). -/
def SPL_REGr_CTL (r : Nat) : Nat := 0x2220108 + r * 0x10
def SPL_REGr_CTL_RELEASE (r : Nat) : RF := ⟨SPL_REGr_CTL r, 0, 1⟩

/-- SPL_REGr_EXCL: Excluded frames (14_splice_and_scrub). -/
def SPL_REGr_EXCL (r : Nat) : Nat := 0x222010C + r * 0x10
def SPL_REGr_EXCL_COUNT (r : Nat) : RF := ⟨SPL_REGr_EXCL r, 0, 13⟩

/-- EVC_SRCs_CFG: Source configuration (15_supervisor_and_events). -/
def EVC_SRCs_CFG (s : Nat) : Nat := 0x2000000 + s * 0x4
def EVC_SRCs_CFG_EN (s : Nat) : RF := ⟨EVC_SRCs_CFG s, 0, 1⟩
def EVC_SRCs_CFG_SENSE (s : Nat) : RF := ⟨EVC_SRCs_CFG s, 1, 2⟩
def EVC_SRCs_CFG_TARGET (s : Nat) : RF := ⟨EVC_SRCs_CFG s, 3, 3⟩
def EVC_SRCs_CFG_FILTER (s : Nat) : RF := ⟨EVC_SRCs_CFG s, 8, 6⟩

/-- EVC_PENDk: Pending (15_supervisor_and_events). -/
def EVC_PENDk (k : Nat) : Nat := 0x2000400 + k * 0x4
def EVC_PENDk_PEND (k : Nat) : RF := ⟨EVC_PENDk k, 0, 32⟩

/-- EVC_SETPENDk: Set pending (15_supervisor_and_events). -/
def EVC_SETPENDk (k : Nat) : Nat := 0x2000420 + k * 0x4
def EVC_SETPENDk_SET (k : Nat) : RF := ⟨EVC_SETPENDk k, 0, 32⟩

/-- EVC_CLAIMt: Claim (15_supervisor_and_events). -/
def EVC_CLAIMt (t : Nat) : Nat := 0x2000800 + t * 0x8
def EVC_CLAIMt_SRC (t : Nat) : RF := ⟨EVC_CLAIMt t, 0, 8⟩
def EVC_CLAIMt_VALID (t : Nat) : RF := ⟨EVC_CLAIMt t, 31, 1⟩

/-- EVC_COMPLETEt: Completion (15_supervisor_and_events). -/
def EVC_COMPLETEt (t : Nat) : Nat := 0x2000804 + t * 0x8
def EVC_COMPLETEt_SRC (t : Nat) : RF := ⟨EVC_COMPLETEt t, 0, 8⟩

/-- EVC_NMI: Non-maskable events (15_supervisor_and_events). -/
def EVC_NMI : Nat := 0x2000C00
def EVC_NMI_NMI : RF := ⟨EVC_NMI, 0, 4⟩

/-- EVC_FAULT: Completion fault (15_supervisor_and_events). -/
def EVC_FAULT : Nat := 0x2000C04
def EVC_FAULT_NAMED : RF := ⟨EVC_FAULT, 0, 8⟩
def EVC_FAULT_ACTIVE : RF := ⟨EVC_FAULT, 8, 8⟩
def EVC_FAULT_TARGET : RF := ⟨EVC_FAULT, 16, 3⟩
def EVC_FAULT_NONE : RF := ⟨EVC_FAULT, 19, 1⟩
def EVC_FAULT_VALID : RF := ⟨EVC_FAULT, 31, 1⟩

/-- EVC_VEC_EVT: Vectors (15_supervisor_and_events). -/
def EVC_VEC_EVT : Nat := 0x2000C10
def EVC_VEC_EVT_ADDR : RF := ⟨EVC_VEC_EVT, 2, 30⟩

/-- EVC_VEC_NMI: Vectors (15_supervisor_and_events). -/
def EVC_VEC_NMI : Nat := 0x2000C14
def EVC_VEC_NMI_ADDR : RF := ⟨EVC_VEC_NMI, 2, 30⟩

/-- EVC_VEC_TRAP: Vectors (15_supervisor_and_events). -/
def EVC_VEC_TRAP : Nat := 0x2000C18
def EVC_VEC_TRAP_ADDR : RF := ⟨EVC_VEC_TRAP, 2, 30⟩

/-- EVC_TRAP: Trap record (15_supervisor_and_events). -/
def EVC_TRAP : Nat := 0x2000C20
def EVC_TRAP_CAUSE : RF := ⟨EVC_TRAP, 0, 4⟩
def EVC_TRAP_DBL : RF := ⟨EVC_TRAP, 30, 1⟩
def EVC_TRAP_VALID : RF := ⟨EVC_TRAP, 31, 1⟩

/-- EVC_TRAP_ADDR: Trap address (15_supervisor_and_events). -/
def EVC_TRAP_ADDR : Nat := 0x2000C24
def EVC_TRAP_ADDR_ADDR : RF := ⟨EVC_TRAP_ADDR, 0, 32⟩

/-- WDG_CTL: Watchdog control (15_supervisor_and_events). -/
def WDG_CTL : Nat := 0x2030000
def WDG_CTL_EN : RF := ⟨WDG_CTL, 0, 1⟩
def WDG_CTL_RUN_ON_HALT : RF := ⟨WDG_CTL, 1, 1⟩
def WDG_CTL_LOCK : RF := ⟨WDG_CTL, 2, 1⟩

/-- WDG_LOAD: Reload value (15_supervisor_and_events). -/
def WDG_LOAD : Nat := 0x2030004
def WDG_LOAD_LOAD : RF := ⟨WDG_LOAD, 0, 32⟩

/-- WDG_WARN: Warning point (15_supervisor_and_events). -/
def WDG_WARN : Nat := 0x2030008
def WDG_WARN_WARN : RF := ⟨WDG_WARN, 0, 32⟩

/-- WDG_SVC: Service (15_supervisor_and_events). -/
def WDG_SVC : Nat := 0x203000C
def WDG_SVC_KEY : RF := ⟨WDG_SVC, 0, 32⟩

/-- WDG_COUNT: Count (15_supervisor_and_events). -/
def WDG_COUNT : Nat := 0x2030010
def WDG_COUNT_COUNT : RF := ⟨WDG_COUNT, 0, 32⟩

/-- TWI_CFG: Target configuration (15_supervisor_and_events). -/
def TWI_CFG : Nat := 0x2050000
def TWI_CFG_ADDR : RF := ⟨TWI_CFG, 0, 7⟩
def TWI_CFG_EN : RF := ⟨TWI_CFG, 7, 1⟩

/-- TWI_MCTL: Controller transfer (15_supervisor_and_events). -/
def TWI_MCTL : Nat := 0x2050004
def TWI_MCTL_GO : RF := ⟨TWI_MCTL, 0, 1⟩
def TWI_MCTL_BUSY : RF := ⟨TWI_MCTL, 1, 1⟩
def TWI_MCTL_STATUS : RF := ⟨TWI_MCTL, 4, 4⟩
def TWI_MCTL_ADDR : RF := ⟨TWI_MCTL, 8, 7⟩
def TWI_MCTL_WLEN : RF := ⟨TWI_MCTL, 16, 4⟩
def TWI_MCTL_RLEN : RF := ⟨TWI_MCTL, 20, 4⟩
def TWI_MCTL_SPEED : RF := ⟨TWI_MCTL, 24, 2⟩

/-- TWI_MDATA_LO: Controller data (15_supervisor_and_events). -/
def TWI_MDATA_LO : Nat := 0x2050008
def TWI_MDATA_LO_DATA : RF := ⟨TWI_MDATA_LO, 0, 32⟩

/-- TWI_MDATA_HI: Controller data (15_supervisor_and_events). -/
def TWI_MDATA_HI : Nat := 0x205000C
def TWI_MDATA_HI_DATA : RF := ⟨TWI_MDATA_HI, 0, 32⟩

/-- GPIO_OUTw: Output levels (15_supervisor_and_events). -/
def GPIO_OUTw (w : Nat) : Nat := 0x2060000 + w * 0x10
def GPIO_OUTw_OUT (w : Nat) : RF := ⟨GPIO_OUTw w, 0, 32⟩

/-- GPIO_OEw: Output enables (15_supervisor_and_events). -/
def GPIO_OEw (w : Nat) : Nat := 0x2060004 + w * 0x10
def GPIO_OEw_OE (w : Nat) : RF := ⟨GPIO_OEw w, 0, 32⟩

/-- GPIO_INw: Input levels (15_supervisor_and_events). -/
def GPIO_INw (w : Nat) : Nat := 0x2060008 + w * 0x10
def GPIO_INw_IN (w : Nat) : RF := ⟨GPIO_INw w, 0, 32⟩

/-- GPIO_EDGEw: Level changes (15_supervisor_and_events). -/
def GPIO_EDGEw (w : Nat) : Nat := 0x206000C + w * 0x10
def GPIO_EDGEw_EDGE (w : Nat) : RF := ⟨GPIO_EDGEw w, 0, 32⟩

/-- GPIO_MAPg: Pin assignment (15_supervisor_and_events). -/
def GPIO_MAPg (g : Nat) : Nat := 0x2060100 + g * 0x4
def GPIO_MAPg_BANK (g : Nat) : RF := ⟨GPIO_MAPg g, 0, 4⟩
def GPIO_MAPg_PIN (g : Nat) : RF := ⟨GPIO_MAPg g, 4, 6⟩
def GPIO_MAPg_VALID (g : Nat) : RF := ⟨GPIO_MAPg g, 31, 1⟩

/-- MON_CFG: UART configuration (16_debug_and_monitor). -/
def MON_CFG : Nat := 0x2040000
def MON_CFG_BAUD : RF := ⟨MON_CFG, 0, 3⟩
def MON_CFG_EN : RF := ⟨MON_CFG, 3, 1⟩

/-- MON_STAT: UART status (16_debug_and_monitor). -/
def MON_STAT : Nat := 0x2040004
def MON_STAT_RX_COUNT : RF := ⟨MON_STAT, 0, 7⟩
def MON_STAT_TX_FREE : RF := ⟨MON_STAT, 8, 7⟩
def MON_STAT_FERR : RF := ⟨MON_STAT, 16, 1⟩
def MON_STAT_OVR : RF := ⟨MON_STAT, 17, 1⟩
def MON_STAT_BRK : RF := ⟨MON_STAT, 18, 1⟩

/-- MON_DATA: UART data (16_debug_and_monitor). -/
def MON_DATA : Nat := 0x2040008
def MON_DATA_DATA : RF := ⟨MON_DATA, 0, 8⟩
def MON_DATA_VALID : RF := ⟨MON_DATA, 8, 1⟩

/-- CKC_CTL: Clock control (17_clocks_and_power). -/
def CKC_CTL : Nat := 0x2010000
def CKC_CTL_USE_XTAL : RF := ⟨CKC_CTL, 0, 1⟩
def CKC_CTL_AUTO : RF := ⟨CKC_CTL, 1, 1⟩

/-- CKC_STAT: Clock status (17_clocks_and_power). -/
def CKC_STAT : Nat := 0x2010004
def CKC_STAT_XTAL_OK : RF := ⟨CKC_STAT, 0, 1⟩
def CKC_STAT_ON_RC : RF := ⟨CKC_STAT, 1, 1⟩
def CKC_STAT_XTAL_FAIL : RF := ⟨CKC_STAT, 2, 1⟩
def CKC_STAT_SYN_UNLOCK : RF := ⟨CKC_STAT, 3, 1⟩
def CKC_STAT_GATED : RF := ⟨CKC_STAT, 4, 1⟩
def CKC_STAT_REFUSED : RF := ⟨CKC_STAT, 5, 1⟩
def CKC_STAT_SYN_LOCK : RF := ⟨CKC_STAT, 8, 8⟩

/-- CKC_EN_HUB: Hub block enables (17_clocks_and_power). -/
def CKC_EN_HUB : Nat := 0x2010010
def CKC_EN_HUB_EN : RF := ⟨CKC_EN_HUB, 0, 13⟩

/-- CKC_EN_IFd: Interface enables (17_clocks_and_power). -/
def CKC_EN_IFd (d : Nat) : Nat := 0x2010020 + d * 0x4
def CKC_EN_IFd_MAC (d : Nat) : RF := ⟨CKC_EN_IFd d, 0, 16⟩
def CKC_EN_IFd_JLK (d : Nat) : RF := ⟨CKC_EN_IFd d, 16, 16⟩

/-- CKC_EN_SEd: Engine enables (17_clocks_and_power). -/
def CKC_EN_SEd (d : Nat) : Nat := 0x2010028 + d * 0x4
def CKC_EN_SEd_EN (d : Nat) : RF := ⟨CKC_EN_SEd d, 0, 32⟩

/-- CKC_EN_LNQd_k: Lane quad enables (17_clocks_and_power). -/
def CKC_EN_LNQd_k (d k : Nat) : Nat := 0x2010030 + d * 0x8 + k * 0x4
def CKC_EN_LNQd_k_EN (d k : Nat) : RF := ⟨CKC_EN_LNQd_k d k, 0, 32⟩

/-- CKC_SYNf_CFG: Fabric synthesiser (17_clocks_and_power). -/
def CKC_SYNf_CFG (f : Nat) : Nat := 0x2010100 + f * 0x4
def CKC_SYNf_CFG_P (f : Nat) : RF := ⟨CKC_SYNf_CFG f, 0, 16⟩
def CKC_SYNf_CFG_Q (f : Nat) : RF := ⟨CKC_SYNf_CFG f, 16, 14⟩
def CKC_SYNf_CFG_EN (f : Nat) : RF := ⟨CKC_SYNf_CFG f, 31, 1⟩

/-- CKC_FCNT_CTL: Frequency counter control (17_clocks_and_power). -/
def CKC_FCNT_CTL : Nat := 0x2010200
def CKC_FCNT_CTL_START : RF := ⟨CKC_FCNT_CTL, 0, 1⟩
def CKC_FCNT_CTL_DONE : RF := ⟨CKC_FCNT_CTL, 1, 1⟩
def CKC_FCNT_CTL_STATUS : RF := ⟨CKC_FCNT_CTL, 2, 4⟩
def CKC_FCNT_CTL_MEAS : RF := ⟨CKC_FCNT_CTL, 6, 5⟩
def CKC_FCNT_CTL_REF : RF := ⟨CKC_FCNT_CTL, 11, 5⟩
def CKC_FCNT_CTL_LANE : RF := ⟨CKC_FCNT_CTL, 16, 9⟩
def CKC_FCNT_CTL_PIN : RF := ⟨CKC_FCNT_CTL, 25, 5⟩

/-- CKC_FCNT_GATE: Gate length (17_clocks_and_power). -/
def CKC_FCNT_GATE : Nat := 0x2010204
def CKC_FCNT_GATE_GATE : RF := ⟨CKC_FCNT_GATE, 0, 32⟩

/-- CKC_FCNT_RES: Count (17_clocks_and_power). -/
def CKC_FCNT_RES : Nat := 0x2010208
def CKC_FCNT_RES_COUNT : RF := ⟨CKC_FCNT_RES, 0, 32⟩

/-- GAF_DOMd_STAT: Domain state (17_clocks_and_power). -/
def GAF_DOMd_STAT (d : Nat) : Nat := 0x2020000 + d * 0x4
def GAF_DOMd_STAT_VOTES (d : Nat) : RF := ⟨GAF_DOMd_STAT d, 0, 8⟩
def GAF_DOMd_STAT_STATE (d : Nat) : RF := ⟨GAF_DOMd_STAT d, 8, 3⟩
def GAF_DOMd_STAT_ISOLATED (d : Nat) : RF := ⟨GAF_DOMd_STAT d, 11, 1⟩
def GAF_DOMd_STAT_CUT_PEND (d : Nat) : RF := ⟨GAF_DOMd_STAT d, 12, 1⟩
def GAF_DOMd_STAT_FAULT (d : Nat) : RF := ⟨GAF_DOMd_STAT d, 13, 1⟩
def GAF_DOMd_STAT_QUEUED (d : Nat) : RF := ⟨GAF_DOMd_STAT d, 14, 1⟩

/-- GAF_SVOTE: Supervisor votes (17_clocks_and_power). -/
def GAF_SVOTE : Nat := 0x2020080
def GAF_SVOTE_VOTE : RF := ⟨GAF_SVOTE, 0, 30⟩

/-- GAF_CUT_TICK_LO: Power Cut tick (17_clocks_and_power). -/
def GAF_CUT_TICK_LO : Nat := 0x2020090
def GAF_CUT_TICK_LO_TICK : RF := ⟨GAF_CUT_TICK_LO, 0, 32⟩

/-- GAF_CUT_TICK_HI: Power Cut tick (17_clocks_and_power). -/
def GAF_CUT_TICK_HI : Nat := 0x2020094
def GAF_CUT_TICK_HI_TICK : RF := ⟨GAF_CUT_TICK_HI, 0, 32⟩

/-- GAF_CUT_CTL: Power Cut request (17_clocks_and_power). -/
def GAF_CUT_CTL : Nat := 0x2020098
def GAF_CUT_CTL_ARM : RF := ⟨GAF_CUT_CTL, 0, 1⟩
def GAF_CUT_CTL_CANCEL : RF := ⟨GAF_CUT_CTL, 1, 1⟩
def GAF_CUT_CTL_OFF : RF := ⟨GAF_CUT_CTL, 2, 1⟩
def GAF_CUT_CTL_DOMAIN : RF := ⟨GAF_CUT_CTL, 3, 5⟩
def GAF_CUT_CTL_SLOT : RF := ⟨GAF_CUT_CTL, 8, 5⟩
def GAF_CUT_CTL_CLIENT : RF := ⟨GAF_CUT_CTL, 13, 3⟩
def GAF_CUT_CTL_STATUS : RF := ⟨GAF_CUT_CTL, 16, 4⟩
def GAF_CUT_CTL_STATE : RF := ⟨GAF_CUT_CTL, 20, 3⟩

/-- GAF_SLEEP: Sleep mode (17_clocks_and_power). -/
def GAF_SLEEP : Nat := 0x20200A0
def GAF_SLEEP_MODE : RF := ⟨GAF_SLEEP, 0, 2⟩
def GAF_SLEEP_D0_STOP : RF := ⟨GAF_SLEEP, 2, 1⟩

/-- GAF_WAKE_EN: Wake sources (17_clocks_and_power). -/
def GAF_WAKE_EN : Nat := 0x20200A4
def GAF_WAKE_EN_TWI : RF := ⟨GAF_WAKE_EN, 0, 1⟩
def GAF_WAKE_EN_LATCH : RF := ⟨GAF_WAKE_EN, 1, 1⟩
def GAF_WAKE_EN_ALARM : RF := ⟨GAF_WAKE_EN, 2, 1⟩
def GAF_WAKE_EN_P2 : RF := ⟨GAF_WAKE_EN, 3, 1⟩

/-- GAF_WAKE_CAUSE: Wake cause (17_clocks_and_power). -/
def GAF_WAKE_CAUSE : Nat := 0x20200A8
def GAF_WAKE_CAUSE_COLD : RF := ⟨GAF_WAKE_CAUSE, 0, 1⟩
def GAF_WAKE_CAUSE_TWI : RF := ⟨GAF_WAKE_CAUSE, 1, 1⟩
def GAF_WAKE_CAUSE_LATCH : RF := ⟨GAF_WAKE_CAUSE, 2, 1⟩
def GAF_WAKE_CAUSE_ALARM : RF := ⟨GAF_WAKE_CAUSE, 3, 1⟩
def GAF_WAKE_CAUSE_SOURCE : RF := ⟨GAF_WAKE_CAUSE, 8, 8⟩

/-- GAF_RELEASE: Unit release (17_clocks_and_power). -/
def GAF_RELEASE : Nat := 0x20200B0
def GAF_RELEASE_KIND : RF := ⟨GAF_RELEASE, 0, 3⟩
def GAF_RELEASE_UNIT : RF := ⟨GAF_RELEASE, 3, 7⟩
def GAF_RELEASE_GO : RF := ⟨GAF_RELEASE, 31, 1⟩

/-- GAF_STAT: Gaffer status (17_clocks_and_power). -/
def GAF_STAT : Nat := 0x20200B4
def GAF_STAT_PFW : RF := ⟨GAF_STAT, 0, 1⟩
def GAF_STAT_RAMP_FAULT : RF := ⟨GAF_STAT, 1, 1⟩
def GAF_STAT_REFUSED : RF := ⟨GAF_STAT, 2, 1⟩
def GAF_STAT_DEFER : RF := ⟨GAF_STAT, 3, 1⟩

/-- GAF_RST: Software reset (18_startup_reset_recovery). -/
def GAF_RST : Nat := 0x20200C0
def GAF_RST_SCOPE : RF := ⟨GAF_RST, 0, 2⟩
def GAF_RST_KEY : RF := ⟨GAF_RST, 16, 16⟩

/-- GAF_RST_CAUSE: Last reset (18_startup_reset_recovery). -/
def GAF_RST_CAUSE : Nat := 0x20200C4
def GAF_RST_CAUSE_CAUSE : RF := ⟨GAF_RST_CAUSE, 0, 4⟩
def GAF_RST_CAUSE_SCOPE : RF := ⟨GAF_RST_CAUSE, 4, 2⟩
def GAF_RST_CAUSE_RAIL : RF := ⟨GAF_RST_CAUSE, 8, 8⟩
def GAF_RST_CAUSE_BOOT_MODE : RF := ⟨GAF_RST_CAUSE, 16, 2⟩

/-- The rows of the FAB registers. -/
def rowsFab : List RegRow :=
  [⟨0x10000000, [(2, 0x8000000)], [⟨0, 8, .ro, 0⟩, ⟨8, 1, .ro, 0⟩, ⟨16, 8, .ro, 1⟩]⟩,
   ⟨0x10000010, [(2, 0x8000000)], [⟨0, 1, .w1c, 0⟩, ⟨1, 1, .w1c, 0⟩, ⟨2, 1, .w1c, 0⟩, ⟨3, 1, .w1c, 0⟩, ⟨16, 16, .rcl, 0⟩]⟩,
   ⟨0x10001000, [(2, 0x8000000), (64, 0x4)], [⟨0, 13, .rw, 0⟩, ⟨13, 8, .rw, 0⟩, ⟨21, 2, .rw, 0⟩, ⟨31, 1, .rw, 0⟩]⟩,
   ⟨0x10001100, [(2, 0x8000000), (16, 0x4)], [⟨0, 6, .rw, 0⟩, ⟨7, 1, .rw, 0⟩]⟩,
   ⟨0x10001200, [(2, 0x8000000)], [⟨0, 1, .wo, 0⟩, ⟨1, 1, .wo, 0⟩, ⟨2, 1, .wo, 0⟩, ⟨4, 2, .rw, 0⟩, ⟨8, 3, .rw, 0⟩, ⟨16, 15, .rw, 0x2000⟩]⟩,
   ⟨0x10001204, [(2, 0x8000000)], [⟨0, 3, .ro, 0⟩, ⟨4, 4, .ro, 0⟩, ⟨8, 1, .w1c, 0⟩, ⟨9, 1, .w1c, 0⟩, ⟨10, 1, .w1c, 0⟩]⟩,
   ⟨0x10001208, [(2, 0x8000000)], [⟨0, 15, .ro, 0⟩, ⟨16, 3, .ro, 0⟩]⟩,
   ⟨0x10001210, [(2, 0x8000000)], [⟨0, 32, .rw, 0⟩]⟩,
   ⟨0x10001214, [(2, 0x8000000)], [⟨0, 32, .rw, 0⟩]⟩,
   ⟨0x10001218, [(2, 0x8000000)], [⟨0, 32, .rw, 0⟩]⟩,
   ⟨0x1000121C, [(2, 0x8000000)], [⟨0, 32, .rw, 0⟩]⟩,
   ⟨0x10001220, [(2, 0x8000000)], [⟨0, 32, .rw, 0⟩]⟩,
   ⟨0x10001224, [(2, 0x8000000)], [⟨0, 32, .rw, 0⟩]⟩,
   ⟨0x10001228, [(2, 0x8000000)], [⟨0, 32, .ro, 0⟩]⟩,
   ⟨0x1000122C, [(2, 0x8000000)], [⟨0, 32, .ro, 0⟩]⟩,
   ⟨0x10002000, [(2, 0x8000000)], [⟨0, 1, .w1c, 0⟩, ⟨1, 1, .w1c, 0⟩, ⟨2, 1, .w1c, 0⟩, ⟨3, 1, .w1c, 0⟩, ⟨4, 1, .w1c, 0⟩]⟩,
   ⟨0x10002004, [(2, 0x8000000)], [⟨0, 16, .rcl, 0⟩, ⟨16, 16, .rcl, 0⟩]⟩,
   ⟨0x10002008, [(2, 0x8000000)], [⟨0, 2, .ro, 0⟩, ⟨2, 12, .ro, 0⟩, ⟨14, 16, .ro, 0⟩, ⟨31, 1, .ro, 0⟩]⟩,
   ⟨0x10002100, [(2, 0x8000000)], [⟨0, 1, .wo, 0⟩, ⟨1, 1, .wo, 0⟩, ⟨2, 1, .rw, 0⟩, ⟨4, 3, .rw, 0⟩]⟩,
   ⟨0x10002104, [(2, 0x8000000)], [⟨0, 8, .rw, 0⟩]⟩,
   ⟨0x10002108, [(2, 0x8000000)], [⟨0, 32, .rw, 0⟩]⟩,
   ⟨0x1000210C, [(2, 0x8000000)], [⟨0, 2, .ro, 0⟩, ⟨4, 4, .ro, 0⟩, ⟨8, 1, .w1c, 0⟩, ⟨9, 1, .w1c, 0⟩, ⟨16, 12, .ro, 0⟩]⟩,
   ⟨0x10002110, [(2, 0x8000000)], [⟨0, 2, .ro, 0⟩, ⟨2, 12, .ro, 0⟩, ⟨14, 16, .ro, 0⟩, ⟨31, 1, .ro, 0⟩]⟩]

/-- The rows of the SLT registers. -/
def rowsSlt : List RegRow :=
  [⟨0x2100000, [], [⟨0, 32, .ro, 0⟩]⟩,
   ⟨0x2100004, [], [⟨0, 32, .ro, 0⟩]⟩,
   ⟨0x2100008, [], [⟨0, 1, .w1c, 0⟩, ⟨1, 1, .w1c, 0⟩, ⟨2, 1, .w1c, 0⟩, ⟨4, 2, .ro, 0⟩, ⟨16, 6, .ro, 0⟩]⟩,
   ⟨0x2100010, [], [⟨0, 5, .rw, 0⟩]⟩,
   ⟨0x2100014, [], [⟨0, 32, .rw, 0⟩]⟩,
   ⟨0x2100018, [], [⟨0, 32, .rw, 0⟩]⟩,
   ⟨0x210001C, [], [⟨0, 1, .wo, 0⟩, ⟨1, 1, .wo, 0⟩, ⟨4, 3, .ro, 0⟩, ⟨8, 3, .ro, 0⟩, ⟨12, 4, .ro, 0⟩, ⟨16, 16, .rw, 0⟩]⟩]

/-- The rows of the DLY registers. -/
def rowsDly : List RegRow :=
  [⟨0x2700000, [], [⟨0, 3, .rw, 0⟩, ⟨16, 12, .rw, 0x600⟩]⟩,
   ⟨0x2700004, [], [⟨0, 11, .ro, 0⟩, ⟨11, 1, .w1c, 0⟩, ⟨16, 12, .ro, 0⟩]⟩,
   ⟨0x2700008, [], [⟨0, 11, .rw, 0⟩]⟩,
   ⟨0x270000C, [], [⟨0, 16, .rcl, 0⟩, ⟨16, 16, .rcl, 0⟩]⟩]

/-- The rows of the CTY registers. -/
def rowsCty : List RegRow :=
  [⟨0x2110000, [], [⟨0, 2, .rw, 0⟩, ⟨2, 1, .rw, 1⟩, ⟨3, 1, .rw, 1⟩, ⟨4, 1, .rw, 0⟩, ⟨8, 4, .rw, 9⟩, ⟨12, 4, .rw, 0xc⟩, ⟨16, 16, .rw, 0xa⟩]⟩,
   ⟨0x2110004, [], [⟨0, 3, .ro, 0⟩, ⟨4, 3, .ro, 0⟩, ⟨7, 1, .ro, 0⟩, ⟨8, 3, .ro, 0⟩, ⟨11, 1, .ro, 0⟩, ⟨12, 1, .ro, 0⟩, ⟨13, 1, .ro, 0⟩, ⟨14, 1, .ro, 0⟩, ⟨16, 1, .w1c, 0⟩, ⟨17, 1, .w1c, 0⟩, ⟨18, 1, .w1c, 0⟩, ⟨19, 1, .w1c, 0⟩, ⟨20, 1, .w1c, 0⟩]⟩,
   ⟨0x2110008, [], [⟨0, 16, .rw, 0x64⟩, ⟨16, 12, .rw, 0x3c⟩]⟩,
   ⟨0x211000C, [], [⟨0, 12, .rw, 0x12c⟩]⟩,
   ⟨0x2110010, [], [⟨0, 27, .rw, 0⟩]⟩,
   ⟨0x2110020, [], [⟨0, 32, .ro, 0⟩]⟩,
   ⟨0x2110024, [], [⟨0, 16, .ro, 0⟩]⟩,
   ⟨0x2110028, [], [⟨0, 32, .ro, 0⟩]⟩,
   ⟨0x211002C, [], [⟨0, 32, .ro, 0xffffffff⟩]⟩,
   ⟨0x2110030, [], [⟨0, 16, .rw, 0x3e8⟩, ⟨16, 8, .rw, 3⟩]⟩,
   ⟨0x2110034, [], [⟨0, 32, .ro, 0⟩]⟩,
   ⟨0x2110040, [], [⟨0, 8, .rw, 0x18⟩, ⟨8, 10, .rw, 0x48⟩, ⟨18, 10, .rw, 0x78⟩, ⟨28, 2, .rw, 0⟩, ⟨30, 1, .rw, 0⟩, ⟨31, 1, .wo, 0⟩]⟩,
   ⟨0x2110044, [], [⟨0, 4, .rw, 0⟩]⟩,
   ⟨0x2110048, [], [⟨0, 32, .rw, 0⟩]⟩,
   ⟨0x211004C, [], [⟨0, 32, .rw, 0⟩]⟩,
   ⟨0x2110050, [], [⟨0, 16, .ro, 0⟩, ⟨16, 16, .ro, 0⟩]⟩,
   ⟨0x2110054, [], [⟨0, 7, .rw, 0x48⟩, ⟨8, 8, .rw, 0⟩]⟩,
   ⟨0x2110060, [], [⟨0, 32, .ro, 0⟩]⟩,
   ⟨0x2110064, [], [⟨0, 32, .ro, 0⟩]⟩,
   ⟨0x2110068, [], [⟨0, 32, .ro, 0⟩]⟩,
   ⟨0x211006C, [], [⟨0, 16, .ro, 0⟩]⟩,
   ⟨0x2110070, [], [⟨0, 16, .rw, 0⟩]⟩,
   ⟨0x2110074, [], [⟨0, 32, .wo, 0⟩]⟩,
   ⟨0x2110080, [], [⟨0, 3, .rw, 0⟩, ⟨16, 16, .rw, 0⟩]⟩,
   ⟨0x2110084, [], [⟨0, 32, .wo, 0⟩]⟩] ++
  [⟨0x2110090, [], [⟨0, 8, .rcl, 0⟩, ⟨8, 1, .ro, 0⟩, ⟨9, 1, .w1c, 0⟩, ⟨10, 1, .w1c, 0⟩, ⟨16, 4, .rw, 4⟩]⟩,
   ⟨0x2110100, [(8, 0x10)], [⟨0, 1, .rw, 0⟩, ⟨1, 2, .rw, 0⟩, ⟨4, 4, .rw, 0⟩, ⟨8, 3, .rw, 0⟩, ⟨16, 9, .rw, 0⟩]⟩,
   ⟨0x2110104, [(8, 0x10)], [⟨0, 12, .rw, 0xa⟩, ⟨12, 16, .rw, 0x11f8⟩]⟩,
   ⟨0x2110108, [(8, 0x10)], [⟨0, 16, .rw, 0⟩]⟩,
   ⟨0x211010C, [(8, 0x10)], [⟨0, 2, .ro, 0⟩, ⟨2, 1, .ro, 0⟩, ⟨3, 1, .ro, 0⟩, ⟨4, 1, .w1c, 0⟩, ⟨8, 24, .ro, 0⟩]⟩,
   ⟨0x2110200, [], [⟨0, 1, .rw, 0⟩, ⟨8, 10, .rw, 0x64⟩]⟩,
   ⟨0x2110204, [], [⟨0, 32, .rw, 0⟩]⟩,
   ⟨0x2110280, [(2, 0x4)], [⟨0, 1, .rw, 0⟩, ⟨1, 1, .rw, 0⟩, ⟨16, 16, .rw, 8⟩]⟩,
   ⟨0x2110290, [], [⟨0, 2, .rw, 0⟩, ⟨2, 6, .rw, 0⟩, ⟨8, 20, .rw, 0x8000⟩]⟩,
   ⟨0x2110300, [(8, 0x10)], [⟨0, 2, .rw, 0⟩, ⟨8, 8, .rw, 1⟩, ⟨16, 8, .rw, 4⟩]⟩,
   ⟨0x2110304, [(8, 0x10)], [⟨0, 32, .rw, 0x6000⟩]⟩,
   ⟨0x2110308, [(8, 0x10)], [⟨0, 32, .rw, 0⟩]⟩,
   ⟨0x211030C, [(8, 0x10)], [⟨0, 2, .rw, 0⟩, ⟨2, 7, .rw, 0⟩]⟩,
   ⟨0x2110400, [], [⟨0, 4, .rw, 0⟩, ⟨4, 4, .rw, 0⟩, ⟨8, 12, .ro, 0⟩, ⟨30, 1, .wo, 0⟩, ⟨31, 1, .ro, 0⟩]⟩,
   ⟨0x2110410, [], [⟨0, 12, .rw, 1⟩]⟩,
   ⟨0x2110404, [], [⟨0, 32, .ro, 0⟩]⟩,
   ⟨0x2110408, [], [⟨0, 32, .ro, 0⟩]⟩,
   ⟨0x211040C, [], [⟨0, 32, .ro, 0⟩]⟩]

/-- The rows of the CSH registers. -/
def rowsCsh : List RegRow :=
  [⟨0x230F100, [], [⟨0, 1, .wo, 0⟩, ⟨1, 1, .wo, 0⟩, ⟨2, 1, .rw, 0⟩, ⟨4, 3, .rw, 0⟩]⟩,
   ⟨0x230F10C, [], [⟨0, 2, .ro, 0⟩, ⟨4, 4, .ro, 0⟩, ⟨8, 1, .w1c, 0⟩, ⟨9, 1, .w1c, 0⟩, ⟨16, 12, .ro, 0⟩]⟩,
   ⟨0x230F110, [], [⟨0, 2, .ro, 0⟩, ⟨2, 12, .ro, 0⟩, ⟨14, 16, .ro, 0⟩, ⟨31, 1, .ro, 0⟩]⟩,
   ⟨0x2300000, [], [⟨0, 1, .wo, 0⟩, ⟨1, 1, .rw, 0⟩, ⟨2, 1, .rw, 0⟩]⟩,
   ⟨0x2300004, [], [⟨0, 2, .ro, 0⟩, ⟨2, 1, .ro, 0⟩, ⟨4, 1, .w1c, 0⟩, ⟨5, 1, .w1c, 0⟩, ⟨6, 1, .w1c, 0⟩, ⟨7, 1, .w1c, 0⟩, ⟨8, 1, .w1c, 0⟩, ⟨9, 1, .w1c, 0⟩, ⟨10, 1, .w1c, 0⟩, ⟨11, 1, .w1c, 0⟩]⟩,
   ⟨0x2300010, [(2, 0x10)], [⟨0, 19, .rw, 0⟩]⟩,
   ⟨0x2300014, [(2, 0x10)], [⟨0, 22, .rw, 0⟩]⟩,
   ⟨0x2300030, [], [⟨0, 32, .rw, 0⟩]⟩,
   ⟨0x2300034, [], [⟨0, 32, .rw, 0⟩]⟩,
   ⟨0x2300038, [], [⟨0, 1, .wo, 0⟩, ⟨1, 1, .wo, 0⟩, ⟨2, 1, .rw, 0⟩, ⟨8, 5, .ro, 0⟩, ⟨16, 4, .ro, 0⟩, ⟨20, 3, .ro, 0⟩]⟩,
   ⟨0x2300040, [], [⟨0, 32, .ro, 0⟩]⟩,
   ⟨0x2300044, [], [⟨0, 32, .ro, 0⟩]⟩,
   ⟨0x2300048, [], [⟨0, 32, .ro, 0⟩]⟩,
   ⟨0x230004C, [], [⟨0, 16, .rcl, 0⟩, ⟨16, 16, .rcl, 0⟩]⟩,
   ⟨0x2300050, [], [⟨0, 18, .ro, 0⟩, ⟨18, 1, .ro, 0⟩, ⟨19, 4, .ro, 0⟩, ⟨31, 1, .ro, 0⟩]⟩,
   ⟨0x2301000, [(64, 0x80)], [⟨0, 9, .ro, 0⟩, ⟨16, 9, .rcl, 0⟩, ⟨28, 4, .ro, 0⟩]⟩,
   ⟨0x2301004, [(64, 0x80)], [⟨0, 32, .rcl, 0⟩]⟩,
   ⟨0x2301008, [(64, 0x80)], [⟨0, 16, .rcl, 0⟩, ⟨16, 16, .rcl, 0⟩]⟩,
   ⟨0x230100C, [(64, 0x80)], [⟨0, 16, .rcl, 0⟩, ⟨16, 16, .rcl, 0⟩]⟩,
   ⟨0x2301010, [(64, 0x80)], [⟨0, 22, .ro, 0⟩]⟩,
   ⟨0x2301014, [(64, 0x80)], [⟨0, 8, .ro, 0⟩]⟩,
   ⟨0x2301040, [(64, 0x80), (16, 0x4)], [⟨0, 32, .rcl, 0⟩]⟩]

/-- The rows of the SE registers. -/
def rowsSe : List RegRow :=
  [⟨0x10400000, [(2, 0x8000000), (32, 0x20000)], [⟨0, 1, .rw, 0⟩, ⟨1, 1, .wo, 0⟩, ⟨2, 1, .wo, 0⟩, ⟨3, 1, .rw, 0⟩, ⟨4, 1, .rw, 0⟩]⟩,
   ⟨0x10400004, [(2, 0x8000000), (32, 0x20000)], [⟨0, 3, .ro, 0⟩, ⟨4, 1, .w1c, 0⟩, ⟨5, 1, .w1c, 0⟩, ⟨6, 1, .w1c, 0⟩, ⟨7, 1, .w1c, 0⟩, ⟨8, 1, .w1c, 0⟩, ⟨9, 1, .w1c, 0⟩, ⟨10, 1, .w1c, 0⟩]⟩,
   ⟨0x10400008, [(2, 0x8000000), (32, 0x20000)], [⟨0, 11, .ro, 0⟩, ⟨16, 16, .ro, 0⟩]⟩,
   ⟨0x1040000C, [(2, 0x8000000), (32, 0x20000)], [⟨0, 4, .ro, 0⟩, ⟨4, 3, .ro, 0⟩, ⟨8, 11, .ro, 0⟩, ⟨31, 1, .ro, 0⟩]⟩,
   ⟨0x10400010, [(2, 0x8000000), (32, 0x20000)], [⟨0, 16, .rcl, 0⟩, ⟨16, 16, .rcl, 0⟩]⟩,
   ⟨0x10400014, [(2, 0x8000000), (32, 0x20000)], [⟨0, 32, .rcl, 0⟩]⟩,
   ⟨0x10400018, [(2, 0x8000000), (32, 0x20000)], [⟨0, 32, .rcl, 0⟩]⟩,
   ⟨0x1040001C, [(2, 0x8000000), (32, 0x20000)], [⟨0, 8, .ro, 0⟩]⟩,
   ⟨0x10400020, [(2, 0x8000000), (32, 0x20000)], [⟨0, 2, .ro, 0⟩, ⟨2, 16, .ro, 0⟩, ⟨31, 1, .ro, 0⟩]⟩,
   ⟨0x10400024, [(2, 0x8000000), (32, 0x20000)], [⟨0, 10, .ro, 0⟩, ⟨16, 10, .ro, 0⟩]⟩,
   ⟨0x10400040, [(2, 0x8000000), (32, 0x20000), (4, 0x10)], [⟨0, 16, .rw, 0⟩, ⟨16, 16, .rw, 0⟩]⟩,
   ⟨0x10400044, [(2, 0x8000000), (32, 0x20000), (4, 0x10)], [⟨0, 16, .rw, 0⟩]⟩,
   ⟨0x10400048, [(2, 0x8000000), (32, 0x20000), (4, 0x10)], [⟨0, 16, .rw, 0⟩, ⟨16, 2, .rw, 0⟩, ⟨18, 4, .rw, 0⟩]⟩]

/-- The rows of the DLM registers. -/
def rowsDlm : List RegRow :=
  [⟨0x10800000, [(2, 0x8000000), (32, 0x800)], [⟨0, 1, .rw, 0⟩, ⟨1, 1, .wo, 0⟩, ⟨2, 1, .rw, 0⟩]⟩,
   ⟨0x10800004, [(2, 0x8000000), (32, 0x800)], [⟨0, 2, .ro, 0⟩, ⟨4, 4, .ro, 0⟩, ⟨8, 1, .w1c, 0⟩, ⟨9, 1, .w1c, 0⟩, ⟨10, 1, .w1c, 0⟩, ⟨11, 1, .w1c, 0⟩, ⟨16, 4, .ro, 0⟩]⟩,
   ⟨0x10800008, [(2, 0x8000000), (32, 0x800)], [⟨0, 4, .rw, 0⟩]⟩,
   ⟨0x1080000C, [(2, 0x8000000), (32, 0x800)], [⟨0, 16, .rcl, 0⟩]⟩,
   ⟨0x10800400, [(2, 0x8000000), (32, 0x800), (32, 0x20), (8, 4)], [⟨0, 32, .rw, 0⟩]⟩]

/-- The rows of the LNQ registers. -/
def rowsLnq : List RegRow :=
  [⟨0x10100010, [(2, 0x8000000), (64, 0x1000), (2, 0x10)], [⟨0, 1, .rw, 0⟩]⟩,
   ⟨0x10100014, [(2, 0x8000000), (64, 0x1000), (2, 0x10)], [⟨0, 26, .rw, 0x1896402⟩]⟩,
   ⟨0x10100018, [(2, 0x8000000), (64, 0x1000), (2, 0x10)], [⟨0, 1, .ro, 0⟩, ⟨1, 1, .w1c, 0⟩]⟩,
   ⟨0x10100400, [(2, 0x8000000), (64, 0x1000), (4, 0x100)], [⟨0, 3, .rw, 0⟩, ⟨4, 2, .rw, 0⟩, ⟨6, 1, .rw, 0⟩, ⟨7, 1, .rw, 0⟩, ⟨8, 3, .rw, 0⟩, ⟨11, 3, .rw, 0⟩, ⟨14, 1, .rw, 0⟩, ⟨15, 1, .rw, 0⟩, ⟨16, 1, .rw, 1⟩, ⟨17, 1, .rw, 1⟩]⟩,
   ⟨0x10100404, [(2, 0x8000000), (64, 0x1000), (4, 0x100)], [⟨0, 2, .rw, 0⟩, ⟨2, 2, .rw, 0⟩, ⟨4, 1, .rw, 0⟩, ⟨8, 3, .ro, 0⟩, ⟨12, 3, .ro, 0⟩, ⟨15, 1, .ro, 0⟩]⟩,
   ⟨0x10100408, [(2, 0x8000000), (64, 0x1000), (4, 0x100)], [⟨0, 32, .rw, 0⟩]⟩,
   ⟨0x1010040C, [(2, 0x8000000), (64, 0x1000), (4, 0x100)], [⟨0, 32, .rw, 0⟩]⟩,
   ⟨0x10100410, [(2, 0x8000000), (64, 0x1000), (4, 0x100)], [⟨0, 5, .rw, 0⟩, ⟨5, 6, .rw, 0x28⟩, ⟨11, 5, .rw, 8⟩, ⟨16, 4, .rw, 0xa⟩]⟩,
   ⟨0x10100414, [(2, 0x8000000), (64, 0x1000), (4, 0x100)], [⟨0, 1, .rw, 0⟩, ⟨4, 4, .rw, 4⟩, ⟨8, 8, .rw, 0⟩, ⟨16, 8, .rw, 0x28⟩, ⟨24, 8, .rw, 4⟩]⟩,
   ⟨0x10100418, [(2, 0x8000000), (64, 0x1000), (4, 0x100)], [⟨0, 8, .ro, 0⟩, ⟨8, 7, .ro, 0⟩, ⟨16, 7, .ro, 0⟩, ⟨24, 4, .ro, 0⟩]⟩,
   ⟨0x1010041C, [(2, 0x8000000), (64, 0x1000), (4, 0x100), (3, 0x4)], [⟨0, 8, .ro, 0⟩, ⟨8, 8, .ro, 0⟩, ⟨16, 8, .ro, 0⟩, ⟨24, 8, .ro, 0⟩]⟩,
   ⟨0x10100430, [(2, 0x8000000), (64, 0x1000), (4, 0x100)], [⟨0, 1, .ro, 0⟩, ⟨1, 1, .ro, 0⟩, ⟨2, 1, .ro, 0⟩, ⟨3, 1, .ro, 0⟩, ⟨4, 1, .ro, 0⟩, ⟨5, 2, .ro, 0⟩, ⟨8, 1, .w1c, 0⟩, ⟨9, 1, .w1c, 0⟩, ⟨10, 1, .w1c, 0⟩, ⟨11, 1, .w1c, 0⟩, ⟨12, 1, .w1c, 0⟩, ⟨13, 1, .w1c, 0⟩, ⟨14, 1, .w1c, 0⟩, ⟨15, 1, .w1c, 0⟩]⟩,
   ⟨0x10100434, [(2, 0x8000000), (64, 0x1000), (4, 0x100)], [⟨0, 16, .rcl, 0⟩, ⟨16, 16, .rcl, 0⟩]⟩,
   ⟨0x10100438, [(2, 0x8000000), (64, 0x1000), (4, 0x100)], [⟨0, 8, .rw, 0x10⟩, ⟨8, 16, .rw, 0x7d⟩]⟩,
   ⟨0x1010043C, [(2, 0x8000000), (64, 0x1000), (4, 0x100)], [⟨0, 32, .rw, 0⟩]⟩,
   ⟨0x10100440, [(2, 0x8000000), (64, 0x1000), (4, 0x100)], [⟨0, 32, .rw, 0⟩]⟩,
   ⟨0x10100444, [(2, 0x8000000), (64, 0x1000), (4, 0x100)], [⟨0, 7, .ro, 0⟩]⟩,
   ⟨0x10100450, [(2, 0x8000000), (64, 0x1000), (4, 0x100)], [⟨0, 3, .rw, 0⟩, ⟨4, 3, .rw, 0⟩, ⟨7, 1, .rw, 0⟩, ⟨8, 3, .rw, 0⟩, ⟨11, 1, .rw, 0⟩, ⟨12, 1, .ro, 0⟩, ⟨13, 1, .wo, 0⟩]⟩,
   ⟨0x10100454, [(2, 0x8000000), (64, 0x1000), (4, 0x100)], [⟨0, 32, .rcl, 0⟩]⟩,
   ⟨0x10100458, [(2, 0x8000000), (64, 0x1000), (4, 0x100)], [⟨0, 32, .rcl, 0⟩]⟩,
   ⟨0x1010045C, [(2, 0x8000000), (64, 0x1000), (4, 0x100)], [⟨0, 16, .ro, 0⟩]⟩,
   ⟨0x10100460, [(2, 0x8000000), (64, 0x1000), (4, 0x100)], [⟨0, 32, .rw, 0⟩]⟩,
   ⟨0x10100464, [(2, 0x8000000), (64, 0x1000), (4, 0x100)], [⟨0, 32, .rw, 0⟩]⟩]

/-- The rows of the ETH registers. -/
def rowsEth : List RegRow :=
  [⟨0x10200000, [(2, 0x8000000), (16, 0x1000)], [⟨0, 1, .rw, 0⟩, ⟨1, 2, .rw, 0⟩, ⟨3, 1, .rw, 0⟩, ⟨4, 4, .rw, 0⟩, ⟨8, 4, .rw, 0⟩, ⟨16, 14, .rw, 0x2600⟩]⟩,
   ⟨0x10200004, [(2, 0x8000000), (16, 0x1000)], [⟨0, 1, .ro, 0⟩, ⟨1, 1, .ro, 0⟩, ⟨2, 1, .ro, 0⟩, ⟨3, 1, .ro, 0⟩, ⟨8, 1, .w1c, 0⟩, ⟨9, 1, .w1c, 0⟩, ⟨10, 1, .w1c, 0⟩, ⟨11, 1, .w1c, 0⟩, ⟨12, 1, .w1c, 0⟩, ⟨13, 1, .w1c, 0⟩, ⟨14, 1, .w1c, 0⟩, ⟨15, 1, .w1c, 0⟩, ⟨16, 1, .w1c, 0⟩]⟩,
   ⟨0x10200008, [(2, 0x8000000), (16, 0x1000)], [⟨0, 32, .rcl, 0⟩]⟩,
   ⟨0x1020000C, [(2, 0x8000000), (16, 0x1000)], [⟨0, 16, .rcl, 0⟩, ⟨16, 16, .rcl, 0⟩]⟩,
   ⟨0x10200010, [(2, 0x8000000), (16, 0x1000)], [⟨0, 16, .rcl, 0⟩, ⟨16, 16, .rcl, 0⟩]⟩,
   ⟨0x10200014, [(2, 0x8000000), (16, 0x1000)], [⟨0, 32, .rcl, 0⟩]⟩,
   ⟨0x10200018, [(2, 0x8000000), (16, 0x1000)], [⟨0, 16, .rcl, 0⟩, ⟨16, 16, .rcl, 0⟩]⟩,
   ⟨0x1020001C, [(2, 0x8000000), (16, 0x1000)], [⟨0, 2, .rw, 0⟩, ⟨2, 2, .rw, 0⟩, ⟨4, 4, .rw, 1⟩]⟩,
   ⟨0x10200020, [(2, 0x8000000), (16, 0x1000)], [⟨0, 16, .rcl, 0⟩, ⟨16, 1, .ro, 0⟩]⟩,
   ⟨0x10200024, [(2, 0x8000000), (16, 0x1000)], [⟨0, 32, .ro, 0⟩]⟩,
   ⟨0x10200028, [(2, 0x8000000), (16, 0x1000)], [⟨0, 16, .ro, 0⟩, ⟨16, 16, .ro, 0⟩]⟩,
   ⟨0x1020002C, [(2, 0x8000000), (16, 0x1000)], [⟨0, 32, .ro, 0⟩]⟩,
   ⟨0x10200100, [(2, 0x8000000), (16, 0x1000), (32, 0x8)], [⟨0, 16, .rw, 0⟩, ⟨16, 16, .rw, 0⟩]⟩,
   ⟨0x10200104, [(2, 0x8000000), (16, 0x1000), (32, 0x8)], [⟨0, 8, .rw, 0⟩, ⟨8, 1, .rw, 0⟩, ⟨9, 2, .rw, 0⟩, ⟨11, 1, .rw, 0⟩, ⟨16, 12, .rw, 0⟩]⟩]

/-- The rows of the JLK registers. -/
def rowsJlk : List RegRow :=
  [⟨0x10210000, [(2, 0x8000000), (16, 0x1000)], [⟨0, 1, .rw, 0⟩, ⟨1, 1, .rw, 0⟩, ⟨2, 3, .rw, 0⟩, ⟨5, 1, .rw, 1⟩, ⟨6, 5, .rw, 1⟩, ⟨12, 12, .rw, 0x10⟩]⟩,
   ⟨0x10210004, [(2, 0x8000000), (16, 0x1000)], [⟨0, 16, .rw, 0⟩]⟩,
   ⟨0x10210008, [(2, 0x8000000), (16, 0x1000)], [⟨0, 12, .rw, 0⟩]⟩,
   ⟨0x1021000C, [(2, 0x8000000), (16, 0x1000)], [⟨0, 3, .ro, 0⟩, ⟨4, 4, .ro, 0⟩, ⟨8, 1, .w1c, 0⟩, ⟨9, 1, .w1c, 0⟩, ⟨10, 1, .w1c, 0⟩, ⟨11, 1, .w1c, 0⟩, ⟨12, 1, .w1c, 0⟩, ⟨13, 1, .w1c, 0⟩]⟩,
   ⟨0x10210010, [(2, 0x8000000), (16, 0x1000)], [⟨0, 5, .ro, 0⟩, ⟨5, 4, .ro, 0⟩, ⟨12, 13, .ro, 0⟩]⟩,
   ⟨0x10210014, [(2, 0x8000000), (16, 0x1000)], [⟨0, 16, .ro, 0⟩, ⟨16, 16, .rcl, 0x7fff⟩]⟩,
   ⟨0x10210018, [(2, 0x8000000), (16, 0x1000)], [⟨0, 16, .rcl, 0⟩, ⟨16, 16, .rcl, 0⟩]⟩]

/-- The rows of the MSH registers. -/
def rowsMsh : List RegRow :=
  [⟨0x2600000, [], [⟨0, 10, .ro, 0⟩]⟩,
   ⟨0x2600004, [], [⟨0, 32, .ro, 0⟩]⟩,
   ⟨0x2600008, [], [⟨0, 1, .rw, 0⟩, ⟨1, 1, .rw, 0⟩, ⟨2, 1, .rw, 1⟩, ⟨4, 4, .rw, 8⟩, ⟨8, 8, .rw, 1⟩, ⟨16, 16, .rw, 0xa⟩]⟩,
   ⟨0x260000C, [], [⟨0, 3, .ro, 0⟩, ⟨4, 10, .ro, 0⟩, ⟨16, 10, .ro, 0⟩]⟩,
   ⟨0x2600010, [], [⟨0, 1, .w1c, 0⟩, ⟨1, 1, .w1c, 0⟩, ⟨2, 1, .w1c, 0⟩, ⟨3, 1, .w1c, 0⟩, ⟨4, 1, .w1c, 0⟩, ⟨5, 1, .w1c, 0⟩, ⟨6, 1, .w1c, 0⟩, ⟨7, 1, .w1c, 0⟩, ⟨8, 1, .w1c, 0⟩]⟩,
   ⟨0x2600014, [], [⟨0, 10, .ro, 0⟩, ⟨11, 11, .ro, 0⟩, ⟨22, 4, .ro, 0⟩, ⟨26, 1, .ro, 0⟩]⟩,
   ⟨0x2600018, [], [⟨0, 16, .rcl, 0⟩, ⟨16, 16, .rcl, 0⟩]⟩,
   ⟨0x2600100, [(8, 0x20)], [⟨0, 1, .rw, 0⟩, ⟨1, 2, .rw, 0⟩, ⟨4, 6, .rw, 0⟩]⟩,
   ⟨0x2604200, [(8, 0x20)], [⟨0, 1, .rw, 0⟩, ⟨1, 2, .rw, 0⟩, ⟨4, 6, .rw, 0⟩]⟩,
   ⟨0x2600104, [(8, 0x20)], [⟨0, 2, .ro, 0⟩, ⟨4, 3, .ro, 0⟩, ⟨8, 10, .ro, 0⟩, ⟨18, 4, .ro, 0⟩]⟩,
   ⟨0x2604204, [(8, 0x20)], [⟨0, 2, .ro, 0⟩, ⟨4, 3, .ro, 0⟩, ⟨8, 10, .ro, 0⟩, ⟨18, 4, .ro, 0⟩]⟩,
   ⟨0x2600108, [(8, 0x20)], [⟨0, 32, .ro, 0⟩]⟩,
   ⟨0x2604208, [(8, 0x20)], [⟨0, 32, .ro, 0⟩]⟩,
   ⟨0x260010C, [(8, 0x20)], [⟨0, 16, .rw, 0⟩]⟩,
   ⟨0x260420C, [(8, 0x20)], [⟨0, 16, .rw, 0⟩]⟩,
   ⟨0x2600110, [(8, 0x20)], [⟨0, 16, .rcl, 0⟩, ⟨16, 16, .rcl, 0⟩]⟩,
   ⟨0x2604210, [(8, 0x20)], [⟨0, 16, .rcl, 0⟩, ⟨16, 16, .rcl, 0⟩]⟩,
   ⟨0x2600200, [], [⟨0, 32, .rw, 0⟩]⟩,
   ⟨0x2600204, [], [⟨0, 32, .rw, 0⟩]⟩,
   ⟨0x2600208, [], [⟨0, 1, .wo, 0⟩, ⟨1, 1, .wo, 0⟩, ⟨4, 3, .rw, 0⟩, ⟨8, 4, .ro, 0⟩, ⟨12, 2, .ro, 0⟩, ⟨16, 10, .ro, 0⟩]⟩,
   ⟨0x260020C, [], [⟨0, 4, .rw, 0⟩, ⟨8, 8, .rw, 0⟩, ⟨16, 16, .rw, 0⟩]⟩,
   ⟨0x2600210, [(8, 0x4)], [⟨0, 32, .rw, 0⟩]⟩,
   ⟨0x2600240, [(8, 0x4)], [⟨0, 32, .ro, 0⟩]⟩,
   ⟨0x2600260, [], [⟨0, 10, .ro, 0⟩, ⟨11, 1, .w1c, 0⟩]⟩,
   ⟨0x2600280, [], [⟨0, 4, .rw, 0⟩, ⟨4, 1, .wo, 0⟩, ⟨5, 1, .ro, 0⟩, ⟨6, 4, .ro, 0⟩]⟩] ++
  [⟨0x2600300, [], [⟨0, 32, .ro, 0⟩]⟩,
   ⟨0x2600304, [], [⟨0, 32, .ro, 0⟩]⟩,
   ⟨0x2600308, [], [⟨0, 32, .ro, 0⟩]⟩,
   ⟨0x260030C, [], [⟨0, 3, .ro, 0⟩, ⟨4, 11, .ro, 0⟩, ⟨16, 8, .ro, 0⟩]⟩,
   ⟨0x2608000, [(1024, 0x4)], [⟨0, 4, .ro, 0⟩, ⟨4, 1, .ro, 0⟩, ⟨5, 1, .ro, 0⟩, ⟨6, 10, .ro, 0⟩]⟩]

/-- The rows of the DMC registers. -/
def rowsDmc : List RegRow :=
  [⟨0x2400000, [(4, 0x10000)], [⟨0, 1, .rw, 0⟩, ⟨1, 1, .rw, 0⟩, ⟨2, 1, .rw, 0⟩, ⟨3, 1, .rw, 0⟩]⟩,
   ⟨0x2400004, [(4, 0x10000)], [⟨0, 3, .ro, 0⟩, ⟨3, 2, .ro, 0⟩, ⟨5, 3, .ro, 0⟩, ⟨8, 1, .ro, 0⟩, ⟨9, 1, .ro, 0⟩, ⟨10, 1, .ro, 0⟩, ⟨11, 5, .ro, 0⟩, ⟨16, 1, .w1c, 0⟩, ⟨17, 1, .w1c, 0⟩, ⟨18, 1, .w1c, 0⟩, ⟨19, 1, .w1c, 0⟩, ⟨20, 1, .w1c, 0⟩, ⟨21, 1, .w1c, 0⟩, ⟨22, 1, .w1c, 0⟩]⟩,
   ⟨0x2400008, [(4, 0x10000)], [⟨0, 1, .wo, 0⟩, ⟨1, 2, .rw, 0⟩, ⟨4, 4, .ro, 0⟩, ⟨8, 3, .ro, 0⟩]⟩,
   ⟨0x240000C, [(4, 0x10000)], [⟨0, 1, .wo, 0⟩, ⟨1, 2, .rw, 0⟩, ⟨3, 1, .rw, 0⟩, ⟨4, 4, .ro, 0⟩, ⟨8, 1, .ro, 0⟩]⟩,
   ⟨0x2400010, [(4, 0x10000)], [⟨0, 32, .rw, 0⟩]⟩,
   ⟨0x2400014, [(4, 0x10000)], [⟨0, 32, .rw, 0⟩]⟩,
   ⟨0x2400018, [(4, 0x10000)], [⟨0, 16, .rcl, 0⟩, ⟨16, 16, .rcl, 0⟩]⟩,
   ⟨0x240001C, [(4, 0x10000)], [⟨0, 30, .ro, 0⟩, ⟨30, 1, .ro, 0⟩, ⟨31, 1, .ro, 0⟩]⟩,
   ⟨0x2400020, [(4, 0x10000)], [⟨0, 16, .rw, 0x400⟩, ⟨16, 2, .rw, 1⟩, ⟨18, 4, .rw, 6⟩, ⟨22, 1, .rw, 1⟩]⟩,
   ⟨0x2400024, [(4, 0x10000)], [⟨0, 13, .ro, 0⟩, ⟨16, 16, .rcl, 0⟩]⟩,
   ⟨0x2400100, [(4, 0x10000), (3, 0x10)], [⟨0, 3, .rw, 4⟩]⟩,
   ⟨0x2400104, [(4, 0x10000), (3, 0x10)], [⟨0, 7, .rw, 0x34⟩, ⟨7, 7, .rw, 0x32⟩, ⟨14, 7, .rw, 0x34⟩, ⟨21, 7, .rw, 0x34⟩]⟩,
   ⟨0x2400108, [(4, 0x10000), (3, 0x10)], [⟨0, 8, .rw, 0x67⟩, ⟨8, 12, .rw, 0x520⟩, ⟨20, 8, .rw, 0x20⟩]⟩,
   ⟨0x2400200, [(4, 0x10000), (16, 0x8)], [⟨0, 16, .rw, 0⟩, ⟨16, 1, .rw, 0⟩]⟩,
   ⟨0x2400204, [(4, 0x10000), (16, 0x8)], [⟨0, 16, .rcl, 0⟩, ⟨16, 16, .rcl, 0⟩]⟩]

/-- The rows of the MPE registers. -/
def rowsMpe : List RegRow :=
  [⟨0x2500000, [], [⟨0, 4, .rw, 0⟩, ⟨4, 6, .rw, 0x10⟩, ⟨16, 8, .rw, 0x10⟩]⟩,
   ⟨0x2500004, [], [⟨0, 1, .w1c, 0⟩, ⟨1, 1, .w1c, 0⟩, ⟨2, 1, .w1c, 0⟩, ⟨3, 1, .w1c, 0⟩, ⟨4, 1, .w1c, 0⟩, ⟨5, 1, .w1c, 0⟩, ⟨6, 1, .w1c, 0⟩, ⟨7, 1, .ro, 0⟩]⟩,
   ⟨0x2500008, [], [⟨0, 18, .rw, 0⟩]⟩,
   ⟨0x250000C, [], [⟨0, 18, .ro, 0⟩]⟩,
   ⟨0x2500010, [], [⟨0, 16, .rcl, 0⟩, ⟨16, 16, .rcl, 0⟩]⟩,
   ⟨0x2500014, [], [⟨0, 29, .ro, 0⟩, ⟨31, 1, .ro, 0⟩]⟩,
   ⟨0x2500018, [], [⟨0, 2, .ro, 0⟩, ⟨2, 2, .ro, 0⟩, ⟨4, 3, .ro, 0⟩]⟩,
   ⟨0x2500100, [(4, 0x40)], [⟨0, 2, .ro, 0⟩, ⟨2, 1, .ro, 0⟩, ⟨8, 8, .ro, 0⟩]⟩,
   ⟨0x2500104, [(4, 0x40)], [⟨0, 27, .ro, 0⟩]⟩,
   ⟨0x2500108, [(4, 0x40)], [⟨0, 27, .ro, 0⟩]⟩,
   ⟨0x250010C, [(4, 0x40)], [⟨0, 32, .rw, 0⟩]⟩,
   ⟨0x2500110, [(4, 0x40)], [⟨0, 32, .rw, 0⟩]⟩,
   ⟨0x2500114, [(4, 0x40)], [⟨0, 1, .wo, 0⟩, ⟨1, 1, .wo, 0⟩, ⟨8, 5, .ro, 0⟩, ⟨16, 4, .ro, 0⟩, ⟨20, 3, .ro, 0⟩]⟩,
   ⟨0x2501000, [(4, 0x400), (256, 0x4)], [⟨0, 2, .rw, 0⟩, ⟨2, 27, .rw, 0⟩, ⟨31, 1, .w1c, 0⟩]⟩]

/-- The rows of the NVS registers. -/
def rowsNvs : List RegRow :=
  [⟨0x2210000, [], [⟨0, 6, .rw, 0x18⟩, ⟨6, 6, .rw, 6⟩]⟩,
   ⟨0x2210004, [], [⟨0, 1, .wo, 0⟩, ⟨1, 1, .wo, 0⟩, ⟨2, 1, .wo, 0⟩, ⟨4, 2, .rw, 0⟩, ⟨16, 7, .rw, 1⟩]⟩,
   ⟨0x2210008, [], [⟨0, 30, .rw, 0⟩]⟩,
   ⟨0x221000C, [], [⟨0, 32, .rw, 0x100000⟩]⟩,
   ⟨0x2210010, [], [⟨0, 2, .ro, 0⟩, ⟨4, 4, .ro, 0⟩, ⟨8, 5, .ro, 0⟩, ⟨16, 1, .w1c, 0⟩, ⟨17, 1, .w1c, 0⟩, ⟨18, 1, .w1c, 0⟩, ⟨19, 1, .w1c, 0⟩, ⟨20, 1, .w1c, 0⟩, ⟨21, 1, .w1c, 0⟩, ⟨22, 1, .w1c, 0⟩, ⟨23, 1, .w1c, 0⟩, ⟨24, 1, .w1c, 0⟩]⟩,
   ⟨0x2210014, [], [⟨0, 16, .rcl, 0⟩, ⟨16, 16, .rcl, 0⟩]⟩,
   ⟨0x2210018, [], [⟨0, 19, .ro, 0⟩, ⟨31, 1, .ro, 0⟩]⟩,
   ⟨0x221001C, [], [⟨0, 12, .ro, 0⟩, ⟨16, 12, .ro, 0⟩, ⟨31, 1, .ro, 0⟩]⟩,
   ⟨0x2210020, [], [⟨0, 15, .rw, 0⟩]⟩,
   ⟨0x2210024, [], [⟨0, 2, .rw, 0⟩, ⟨2, 2, .rw, 0⟩]⟩,
   ⟨0x2210028, [], [⟨0, 2, .ro, 0⟩, ⟨2, 2, .ro, 0⟩, ⟨4, 1, .ro, 0⟩, ⟨8, 24, .ro, 0⟩]⟩]

/-- The rows of the CFG registers. -/
def rowsCfg : List RegRow :=
  [⟨0x2200000, [], [⟨0, 1, .wo, 0⟩, ⟨1, 1, .wo, 0⟩, ⟨2, 1, .wo, 0⟩, ⟨3, 2, .rw, 0⟩, ⟨5, 2, .rw, 0⟩, ⟨8, 4, .rw, 0⟩]⟩,
   ⟨0x2200004, [], [⟨0, 3, .ro, 0⟩, ⟨4, 4, .ro, 0⟩, ⟨8, 1, .w1c, 0⟩, ⟨9, 1, .w1c, 0⟩, ⟨16, 16, .ro, 0x4000⟩]⟩,
   ⟨0x2200008, [], [⟨0, 32, .wo, 0⟩]⟩,
   ⟨0x220000C, [], [⟨0, 32, .ro, 0⟩]⟩,
   ⟨0x2200010, [], [⟨0, 2, .ro, 0⟩, ⟨2, 2, .ro, 0⟩, ⟨4, 10, .ro, 0⟩, ⟨31, 1, .ro, 0⟩]⟩,
   ⟨0x2200014, [], [⟨0, 4, .ro, 0⟩, ⟨4, 2, .ro, 0⟩, ⟨8, 24, .ro, 0⟩]⟩,
   ⟨0x2200018, [], [⟨0, 1, .rw, 0⟩]⟩,
   ⟨0x220001C, [], [⟨0, 32, .rcl, 0⟩]⟩,
   ⟨0x2200100, [(8, 0x4)], [⟨0, 32, .wo, 0⟩]⟩,
   ⟨0x2200120, [], [⟨0, 1, .wo, 0⟩, ⟨1, 1, .wo, 0⟩, ⟨2, 1, .rw, 0⟩]⟩,
   ⟨0x2200124, [], [⟨0, 1, .ro, 0⟩, ⟨1, 1, .ro, 0⟩, ⟨2, 1, .ro, 0⟩, ⟨3, 1, .w1c, 0⟩, ⟨4, 1, .w1c, 0⟩]⟩,
   ⟨0x2200128, [], [⟨0, 32, .ro, 0⟩]⟩]

/-- The rows of the SPL registers. -/
def rowsSpl : List RegRow :=
  [⟨0x2220000, [], [⟨0, 1, .wo, 0⟩, ⟨1, 1, .wo, 0⟩, ⟨2, 1, .wo, 0⟩, ⟨3, 1, .rw, 0⟩, ⟨4, 2, .rw, 0⟩]⟩,
   ⟨0x2220004, [], [⟨0, 3, .ro, 0⟩, ⟨4, 4, .ro, 0⟩, ⟨8, 1, .w1c, 0⟩, ⟨9, 1, .w1c, 0⟩, ⟨16, 16, .ro, 0x4000⟩]⟩,
   ⟨0x2220008, [], [⟨0, 32, .rw, 0⟩]⟩,
   ⟨0x222000C, [], [⟨0, 32, .rw, 0⟩]⟩,
   ⟨0x2220010, [], [⟨0, 30, .rw, 0⟩]⟩,
   ⟨0x2220014, [], [⟨0, 32, .wo, 0⟩]⟩,
   ⟨0x2220018, [], [⟨0, 4, .ro, 0⟩, ⟨4, 2, .ro, 0⟩, ⟨8, 24, .ro, 0⟩]⟩,
   ⟨0x2220020, [], [⟨0, 1, .rw, 1⟩]⟩,
   ⟨0x2220024, [], [⟨0, 15, .ro, 0⟩, ⟨15, 1, .ro, 0⟩, ⟨16, 5, .ro, 0⟩, ⟨24, 1, .w1c, 0⟩, ⟨25, 1, .w1c, 0⟩]⟩,
   ⟨0x2220028, [], [⟨0, 16, .rcl, 0⟩, ⟨16, 16, .rcl, 0⟩]⟩,
   ⟨0x222002C, [], [⟨0, 31, .ro, 0⟩, ⟨31, 1, .ro, 0⟩]⟩,
   ⟨0x2220100, [(64, 0x10)], [⟨0, 1, .ro, 0⟩, ⟨1, 1, .ro, 0⟩, ⟨2, 1, .ro, 0⟩, ⟨4, 7, .ro, 0⟩, ⟨11, 7, .ro, 0⟩, ⟨18, 6, .ro, 0⟩, ⟨24, 6, .ro, 0⟩]⟩,
   ⟨0x2220104, [(64, 0x10)], [⟨0, 2, .ro, 0⟩, ⟨2, 1, .ro, 0⟩, ⟨3, 1, .ro, 0⟩, ⟨4, 1, .ro, 0⟩, ⟨8, 1, .w1c, 0⟩, ⟨9, 1, .w1c, 0⟩, ⟨10, 1, .w1c, 0⟩, ⟨16, 16, .rcl, 0⟩]⟩,
   ⟨0x2220108, [(64, 0x10)], [⟨0, 1, .wo, 0⟩]⟩,
   ⟨0x222010C, [(64, 0x10)], [⟨0, 13, .ro, 0⟩]⟩]

/-- The rows of the EVC registers. -/
def rowsEvc : List RegRow :=
  [⟨0x2000000, [(256, 0x4)], [⟨0, 1, .rw, 0⟩, ⟨1, 2, .rw, 0⟩, ⟨3, 3, .rw, 0⟩, ⟨8, 6, .rw, 0⟩]⟩,
   ⟨0x2000400, [(8, 0x4)], [⟨0, 32, .w1c, 0⟩]⟩,
   ⟨0x2000420, [(8, 0x4)], [⟨0, 32, .w1s, 0⟩]⟩,
   ⟨0x2000800, [(5, 0x8)], [⟨0, 8, .ro, 0⟩, ⟨31, 1, .ro, 0⟩]⟩,
   ⟨0x2000804, [(5, 0x8)], [⟨0, 8, .wo, 0⟩]⟩,
   ⟨0x2000C00, [], [⟨0, 4, .w1c, 0⟩]⟩,
   ⟨0x2000C04, [], [⟨0, 8, .ro, 0⟩, ⟨8, 8, .ro, 0⟩, ⟨16, 3, .ro, 0⟩, ⟨19, 1, .ro, 0⟩, ⟨31, 1, .w1c, 0⟩]⟩,
   ⟨0x2000C10, [], [⟨2, 30, .rw, 0⟩]⟩,
   ⟨0x2000C14, [], [⟨2, 30, .rw, 0⟩]⟩,
   ⟨0x2000C18, [], [⟨2, 30, .rw, 0⟩]⟩,
   ⟨0x2000C20, [], [⟨0, 4, .ro, 0⟩, ⟨30, 1, .ro, 0⟩, ⟨31, 1, .w1c, 0⟩]⟩,
   ⟨0x2000C24, [], [⟨0, 32, .ro, 0⟩]⟩]

/-- The rows of the WDG registers. -/
def rowsWdg : List RegRow :=
  [⟨0x2030000, [], [⟨0, 1, .rw, 0⟩, ⟨1, 1, .rw, 0⟩, ⟨2, 1, .w1s, 0⟩]⟩,
   ⟨0x2030004, [], [⟨0, 32, .rw, 0xf4240⟩]⟩,
   ⟨0x2030008, [], [⟨0, 32, .rw, 0⟩]⟩,
   ⟨0x203000C, [], [⟨0, 32, .wo, 0⟩]⟩,
   ⟨0x2030010, [], [⟨0, 32, .ro, 0xf4240⟩]⟩]

/-- The rows of the TWI registers. -/
def rowsTwi : List RegRow :=
  [⟨0x2050000, [], [⟨0, 7, .rw, 0⟩, ⟨7, 1, .rw, 1⟩]⟩,
   ⟨0x2050004, [], [⟨0, 1, .wo, 0⟩, ⟨1, 1, .ro, 0⟩, ⟨4, 4, .ro, 0⟩, ⟨8, 7, .rw, 0⟩, ⟨16, 4, .rw, 0⟩, ⟨20, 4, .rw, 0⟩, ⟨24, 2, .rw, 0⟩]⟩,
   ⟨0x2050008, [], [⟨0, 32, .rw, 0⟩]⟩,
   ⟨0x205000C, [], [⟨0, 32, .rw, 0⟩]⟩]

/-- The rows of the GPIO registers. -/
def rowsGpio : List RegRow :=
  [⟨0x2060000, [(2, 0x10)], [⟨0, 32, .rw, 0⟩]⟩,
   ⟨0x2060004, [(2, 0x10)], [⟨0, 32, .rw, 0⟩]⟩,
   ⟨0x2060008, [(2, 0x10)], [⟨0, 32, .ro, 0⟩]⟩,
   ⟨0x206000C, [(2, 0x10)], [⟨0, 32, .w1c, 0⟩]⟩,
   ⟨0x2060100, [(64, 0x4)], [⟨0, 4, .ro, 0⟩, ⟨4, 6, .ro, 0⟩, ⟨31, 1, .ro, 0⟩]⟩]

/-- The rows of the MON registers. -/
def rowsMon : List RegRow :=
  [⟨0x2040000, [], [⟨0, 3, .rw, 0⟩, ⟨3, 1, .rw, 1⟩]⟩,
   ⟨0x2040004, [], [⟨0, 7, .ro, 0⟩, ⟨8, 7, .ro, 0x40⟩, ⟨16, 1, .w1c, 0⟩, ⟨17, 1, .w1c, 0⟩, ⟨18, 1, .w1c, 0⟩]⟩,
   ⟨0x2040008, [], [⟨0, 8, .rcl, 0⟩, ⟨8, 1, .ro, 0⟩]⟩]

/-- The rows of the CKC registers. -/
def rowsCkc : List RegRow :=
  [⟨0x2010000, [], [⟨0, 1, .wo, 0⟩, ⟨1, 1, .rw, 1⟩]⟩,
   ⟨0x2010004, [], [⟨0, 1, .ro, 0⟩, ⟨1, 1, .ro, 1⟩, ⟨2, 1, .w1c, 0⟩, ⟨3, 1, .w1c, 0⟩, ⟨4, 1, .w1c, 0⟩, ⟨5, 1, .w1c, 0⟩, ⟨8, 8, .ro, 0⟩]⟩,
   ⟨0x2010010, [], [⟨0, 13, .rw, 0⟩]⟩,
   ⟨0x2010020, [(2, 0x4)], [⟨0, 16, .rw, 0⟩, ⟨16, 16, .rw, 0⟩]⟩,
   ⟨0x2010028, [(2, 0x4)], [⟨0, 32, .rw, 0⟩]⟩,
   ⟨0x2010030, [(2, 0x8), (2, 0x4)], [⟨0, 32, .rw, 0⟩]⟩,
   ⟨0x2010100, [(8, 0x4)], [⟨0, 16, .rw, 0⟩, ⟨16, 14, .rw, 0⟩, ⟨31, 1, .rw, 0⟩]⟩,
   ⟨0x2010200, [], [⟨0, 1, .wo, 0⟩, ⟨1, 1, .ro, 0⟩, ⟨2, 4, .ro, 0⟩, ⟨6, 5, .rw, 0⟩, ⟨11, 5, .rw, 1⟩, ⟨16, 9, .rw, 0⟩, ⟨25, 5, .rw, 0⟩]⟩,
   ⟨0x2010204, [], [⟨0, 32, .rw, 0x17d7840⟩]⟩,
   ⟨0x2010208, [], [⟨0, 32, .ro, 0⟩]⟩]

/-- The rows of the GAF registers. -/
def rowsGaf : List RegRow :=
  [⟨0x2020000, [(30, 0x4)], [⟨0, 8, .ro, 0⟩, ⟨8, 3, .ro, 0⟩, ⟨11, 1, .ro, 0⟩, ⟨12, 1, .ro, 0⟩, ⟨13, 1, .w1c, 0⟩, ⟨14, 1, .ro, 0⟩]⟩,
   ⟨0x2020080, [], [⟨0, 30, .rw, 0x3fffffff⟩]⟩,
   ⟨0x2020090, [], [⟨0, 32, .rw, 0⟩]⟩,
   ⟨0x2020094, [], [⟨0, 32, .rw, 0⟩]⟩,
   ⟨0x2020098, [], [⟨0, 1, .wo, 0⟩, ⟨1, 1, .wo, 0⟩, ⟨2, 1, .rw, 0⟩, ⟨3, 5, .rw, 0⟩, ⟨8, 5, .ro, 0⟩, ⟨13, 3, .rw, 0⟩, ⟨16, 4, .ro, 0⟩, ⟨20, 3, .ro, 0⟩]⟩,
   ⟨0x20200A0, [], [⟨0, 2, .rw, 0⟩, ⟨2, 1, .rw, 0⟩]⟩,
   ⟨0x20200A4, [], [⟨0, 1, .rw, 1⟩, ⟨1, 1, .rw, 1⟩, ⟨2, 1, .rw, 1⟩, ⟨3, 1, .rw, 0⟩]⟩,
   ⟨0x20200A8, [], [⟨0, 1, .ro, 1⟩, ⟨1, 1, .ro, 0⟩, ⟨2, 1, .ro, 0⟩, ⟨3, 1, .ro, 0⟩, ⟨8, 8, .ro, 0⟩]⟩,
   ⟨0x20200B0, [], [⟨0, 3, .wo, 0⟩, ⟨3, 7, .wo, 0⟩, ⟨31, 1, .wo, 0⟩]⟩,
   ⟨0x20200B4, [], [⟨0, 1, .w1c, 0⟩, ⟨1, 1, .w1c, 0⟩, ⟨2, 1, .w1c, 0⟩, ⟨3, 1, .w1c, 0⟩]⟩,
   ⟨0x20200C0, [], [⟨0, 2, .wo, 0⟩, ⟨16, 16, .wo, 0⟩]⟩,
   ⟨0x20200C4, [], [⟨0, 4, .ro, 0⟩, ⟨4, 2, .ro, 0⟩, ⟨8, 8, .ro, 0⟩, ⟨16, 2, .ro, 0⟩]⟩]

/-- The rows a 32-bit bus address can belong to, by the block's range (Tables ARCH-5 and ARCH-6). -/
def rowsAt (a : Nat) : List RegRow :=
  if a < 0x10000000 then
    if a < 0x02100000 then
      if a < 0x02010000 then rowsEvc else if a < 0x02020000 then rowsCkc
      else if a < 0x02030000 then rowsGaf else if a < 0x02040000 then rowsWdg
      else if a < 0x02050000 then rowsMon else if a < 0x02060000 then rowsTwi
      else rowsGpio
    else if a < 0x02300000 then
      if a < 0x02110000 then rowsSlt else if a < 0x02200000 then rowsCty
      else if a < 0x02210000 then rowsCfg else if a < 0x02220000 then rowsNvs
      else rowsSpl
    else if a < 0x02400000 then rowsCsh else if a < 0x02500000 then rowsDmc
    else if a < 0x02600000 then rowsMpe else if a < 0x02700000 then rowsMsh
    else rowsDly
  else
    let o := a % 0x8000000
    if o < 0x100000 then rowsFab else if o < 0x200000 then rowsLnq
    else if o < 0x210000 then rowsEth else if o < 0x220000 then rowsJlk
    else if o < 0x800000 then rowsSe else rowsDlm

/-- The register row that holds an address, if the chapters list one there (R23). -/
def rowAt (a : Nat) : Option RegRow := (rowsAt a).find? (fun r => rowHas r a)

/-- The word a register holds after the reset that clears its block (R9). -/
def resetWord (a : Nat) : Word :=
  match rowAt a with
  | some r => rowReset r
  | none => 0

end Sys2Proof.Machine.Reg
end

