-- ==== Sys2Proof/Machine/State.lean ====
section
/-! DEFINITION. The state of the device. Everything a register shows has the register file as its one home
(`Dev.regs`, sparse over the reset values of the register tables); the other fields hold what no register
shows: buffers, stores, pending work, hidden times. -/
namespace Sys2Proof.Machine

/-- What the last control-bus access was answered with. -/
inductive Resp where
  | none
  | done
  | data (w : Word)
  | dataError (w : Word)          -- data with an error response
  | poisoned (w : Word)           -- data with its poison mark
  | error
  deriving DecidableEq, Repr

/-! ## The Slate, Cuts and the bridges -/

/-- The states of a Cut slot, coded 0 to 4 in SLT_CUT_CTL.STATE. -/
inductive CutState where
  | free | armed | prepared | done | failed
  deriving DecidableEq, Repr

/-- One of the 32 Cut slots (R42 to R49). -/
structure CutSlot where
  state     : CutState
  kind      : Nat
  target    : Nat
  status    : Nat
  tick      : Nat
  reserved  : Bool
  confirmed : Bool
  deriving DecidableEq, Repr

/-- A hub command that awaits its acknowledgement (R16). -/
structure Outstanding where
  sent  : Nat
  value : Nat
  deriving DecidableEq, Repr

/-- A user-window access the agent of a die has accepted and the port has not answered (R24, R41). -/
structure WinAccess where
  rq    : Requester
  ofs   : Nat
  write : Bool
  since : Nat
  deriving DecidableEq, Repr

/-- A control-bus access that waits for its answer: a hub-local target is silent (R40), or an earlier access to the same
die has not completed (R25). -/
structure BusWait where
  rq    : Requester
  addr  : Nat
  write : Bool
  since : Nat
  deriving DecidableEq, Repr

/-- A transfer unit of a configuration or control channel that was discarded, and the tick its request was sent (R20). -/
structure LostUnit where
  die   : Nat
  chan  : Channel
  load  : BridgeLoad
  since : Nat
  deriving DecidableEq, Repr

/-- The flight-time compensation of one die's time wires (R21), in ps, and the tick of the last measurement. -/
structure TimeWire where
  inUse : Int
  last  : Int
  at_   : Nat
  deriving DecidableEq, Repr

/-- The hub's and bridges' hidden state. -/
structure Hub where
  cuts        : SMap CutSlot          -- slot → Cut, FREE where unlisted
  siteAck     : SMap (Option (Nat × Nat × Nat))  -- die → (sampled tick, status, slot) awaiting its ACK
  dailies     : SMap (BitVec 128)     -- record index → 16 bytes
  outstanding : SMap (Option Outstanding)        -- item key → command awaiting acknowledgement
  agentCopy   : SMap (Option Nat)     -- item key → the agent's copy; none: as at its power-up
  told        : SMap (Option Nat)     -- item key → the record as the hub last commanded it; none: as at power-up
  lost        : List LostUnit         -- discarded units whose requests have not timed out yet (R20)
  busWaits    : List BusWait          -- control-bus accesses without an answer yet
  userWin     : SMap (Option WinAccess)          -- die → access in progress
  timeWire    : SMap (Option TimeWire)           -- die → compensation
  pulses      : List Nat              -- event sources that pulsed in this tick (R338)
  deriving DecidableEq, Repr

/-! ## Continuity -/

/-- What a reference slot holds beyond its registers. -/
structure RefSlot where
  qualSince : Nat                 -- tick QUALIFYING began
  waitSince : Nat                 -- tick WAIT began
  holdT     : Bool                -- it waits to be restored to the time selector (R59)
  holdF     : Bool                -- and to the frequency selector
  offsets   : List Int            -- PTP offsets of this second, 1/65,536 ns, newest first
  sample    : Option Int          -- the last phase sample
  sampleAt  : Nat                 -- the tick on which it completed (R53)
  before    : Option Int          -- the sample before it
  lastSec   : Option Int          -- the second whose PPS edge was taken
  heardAt   : Option Nat          -- tick of the last PPS edge taken, or of the last PTP offset (Table CTY-6)
  offSince  : Option Nat          -- since when its frequency offset lies beyond FREQ_LIM
  deriving DecidableEq, Repr

/-- A gapped SYSREF burst under way: the first tick it may start and the pulses left (R72). -/
structure Burst where
  start : Nat
  left  : Nat
  deriving DecidableEq, Repr

/-- A time error measurement window under way (R74). -/
structure TemRun where
  next : Nat                      -- the tick of the next second's samples
  left : Nat
  used : Nat
  sum  : Int
  lo   : Int
  hi   : Int
  deriving DecidableEq, Repr

/-- One sample of the oscillator model (R63): the tick its second ended, y in 10^-15 and T′ in units of
2^-32 of 1/256 °C. -/
structure ModelSample where
  tick : Nat
  y    : Int
  t    : Int
  deriving DecidableEq, Repr

/-- Continuity's hidden state. -/
structure Cty where
  slots      : SMap RefSlot
  selF       : Option Nat         -- the frequency selector's choice, the time slot included
  buildT     : Int                -- build-out held for the time role, ps
  buildF     : Int                -- build-out held for the frequency role, ps
  belowSince : Option Nat         -- since when |time error| < THRESH (R56)
  lockedSince : Option Nat        -- since when LOCKED, for R63
  everLocked : Bool               -- LOCKED since P28 power-up, or a model restored (R56)
  phases     : List (Nat × Int)   -- phase errors of the runs of the last second with their ticks, newest first (R67)
  errs       : List Int           -- one-second phase errors, newest first, at most 64 (R67)
  fcwHist    : List Int           -- CTY_FCW per loop run, newest first, at most 76,000 (R63, R66)
  tempHist   : List Int           -- T′ per loop run, newest first, at most 1,000 (R63)
  tFilt      : Int                -- T′ in units of 2^-32 of 1/256 °C
  extTemp    : Int                -- the external sensor's last reading, 1/256 °C
  tempFail   : Bool               -- the sensor has failed (R67, R75)
  hoStart    : Nat                -- tick HOLDOVER was entered
  b0         : Int                -- TE_BOUND at entry, ps
  hoMean     : Option Int         -- mean of CTY_FCW over the 60 s that ended 16 s before entry (R66)
  alarmed    : Bool               -- ALARM raised in this holdover (R68)
  params     : SMap Int           -- model parameters by index, Table CTY-7
  mdlLo      : Option Word        -- CTY_MDL_VAL_LO written and awaiting HI (R65)
  mdlRestored : Bool              -- parameters written while FREEZE is set
  pendSamples : List ModelSample  -- samples waiting their 16 s, newest first
  samples    : List ModelSample   -- samples in the model, newest first
  lastRefit  : Nat                -- tick of the last refit
  refitDone  : Bool               -- the last refit completed
  restored   : Bool               -- the model is a restored one, not refitted since (R65)
  loXtal     : Bool               -- the synthesiser runs from the crystal (R57)
  loGood     : Option Nat         -- since when LO_IN has been good, after a failure (R57)
  lastRun    : Option Nat         -- tick of the last loop run (R53)
  mapped     : Bool               -- a first mapping has been made (Table CTY-6)
  todPend    : Int                -- whole seconds requested by CTY_TOD_SET
  bursts     : SMap (Option Burst)
  tem        : Option TemRun
  todFifo    : List Byte          -- TOD_RX bytes, oldest first, at most 256
  deriving DecidableEq, Repr

/-! ## The fabric -/

/-- The flip-flops of a cell, and the stored bits of a SHIFT or RAM cell (R80 to R82). -/
structure CellState where
  q1  : Bool
  q2  : Bool
  mem : BitVec 64
  deriving DecidableEq, Repr

/-- The registers of a general I/O pin (R91): input, the second one of synchroniser mode, output, output enable. -/
structure PinRegs where
  inp  : Bool
  sync : Bool
  out  : Bool
  oe   : Bool
  deriving DecidableEq, Repr

/-- A die's capture unit beyond its registers: the ring (newest first, at most 16,384), the samples still to store
after the trigger, a software trigger that the next sample takes, and the probes already reported invalid (R94, R97). -/
structure Capture where
  buf  : List (BitVec 64)
  left : Nat
  sw   : Bool
  seen : List Nat
  deriving DecidableEq, Repr

/-- What a slice's product register holds: the product of each half, and the controls of its operands. -/
structure SliceProduct where
  p    : Int
  pHi  : Int
  c    : BitVec 58
  load : Bool
  sub  : Bool
  psn  : Bool
  deriving DecidableEq, Repr

/-- The four registers of a slice (R111): input, pre-adder, product, accumulator and outputs; and the tile that hosts it. -/
structure Slice where
  host : Nat
  s1  : Option SliceInput
  s2  : Option (SliceInput × Int)
  s3  : Option SliceProduct
  acc : BitVec 58
  out : BitVec 48
  ovf : Bool
  sat : Bool
  psn : Bool
  deriving DecidableEq, Repr

/-- What a preserving march run holds of a RAM (R121): the accesses its ports captured at one edge, or a queue's push or pop. -/
inductive HeldOp where
  | ports (a b : Option PortAccess)
  | push (data : BitVec 40)
  | pop (oreg : Bool)
  deriving DecidableEq, Repr

/-- An access that a preserving march run holds: kind, index, shape and the access. -/
structure HeldAccess where
  kind  : MemKind
  index : Nat
  shape : RamShape
  op    : HeldOp
  deriving DecidableEq, Repr

/-- A march run under way (R118 to R122): its selection, the tick it started, the window under test, and the memories that have
failed. -/
structure March where
  preserve : Bool
  kinds    : Nat
  regions  : Nat
  engines  : Nat
  since    : Nat
  window   : Nat
  abort    : Bool
  failed   : List (Nat × Nat)
  held     : List HeldAccess
  deriving DecidableEq, Repr

/-- The one-cycle outputs of a RAM to user logic (R106, R107, R121). -/
inductive RamPulse where
  | coll | ovf | unf | refused
  deriving DecidableEq, Repr

/-- The fabric dies' hidden state. -/
structure Fab where
  cells    : SMap (Option CellState)  -- (die × 7,200 + tile) × 256 + cluster × 16 + cell; none: as configured
  wires    : SMap Bool             -- receiving registers of express link wires (R85), by `wireKey`
  pins     : SMap PinRegs          -- die × 288 + bank × 48 + pin
  ran      : SMap Nat              -- synthesiser → its cycles of the present tick that have run
  hist     : SMap (List (BitVec 64))  -- die → probe values of the last 13 capture-clock cycles, newest first (R96)
  probeOut : SMap (BitVec 16)      -- die → levels of its PROBE pins
  cap      : SMap Capture          -- die
  tile     : SMap (BitVec 40)      -- (die × 2,560 + RAM) × 1,024 + 40-bit word
  tilePsn  : SMap Bool             -- stored poison bits of E32 words
  queue    : SMap (List (BitVec 40))  -- die × 2,560 + RAM → stored words, oldest first
  queueAt  : SMap Nat              -- die × 2,560 + RAM → place of the queue's oldest word in the array
  collSeen : SMap Bool             -- RAMs whose first collision has been logged (R106)
  deep     : SMap Word             -- (die × 128 + RAM) × 65,536 + word
  deepPsn  : SMap Bool
  slices   : SMap Slice            -- die × 6,144 + slice
  march    : SMap (Option March)   -- engine 0, 1 on the dies, 2 on the hub
  deriving DecidableEq, Repr

/-! ## Signal engines -/

/-- A scalar register: its word and poison bit. -/
structure SVal where
  v : Word
  p : Bool
  deriving DecidableEq, Repr

/-- A vector register: 32 lanes of 32 bits and their poison bits. -/
structure Vec where
  x : BitVec 1024
  p : BitVec 32
  deriving DecidableEq, Repr

/-- An accumulator set: 32 lanes of 48 bits real and imaginary, and their poison bits. -/
structure AccSet where
  re : BitVec 1536
  im : BitVec 1536
  p  : BitVec 32
  deriving DecidableEq, Repr

/-- A stored element of the scratchpad or the coefficient RAM, with its poison bit. -/
structure Elem where
  v : Word
  p : Bool
  deriving DecidableEq, Repr

/-- A write that lands some cycles after its bundle issued (R129, Table SE-3). `half`: 16 lanes of a
vector; `acc`: the view the M slot reads. -/
inductive EngineWrite where
  | s (r : Nat) (x : SVal)
  | v (r : Nat) (x : Vec)
  | half (r : Nat) (hi : Bool) (x : StreamWord)
  | acc (a : Nat) (x : AccSet)
  deriving DecidableEq, Repr

/-- A write in flight: the cycles until it lands. -/
structure InFlight where
  left : Nat
  w    : EngineWrite
  deriving DecidableEq, Repr

/-- A repeat loop under way (R142): the first body bundle, the body's length, the passes left. -/
structure LoopFrame where
  start : Nat
  len   : Nat
  left  : Nat
  deriving DecidableEq, Repr

/-- One engine beyond its registers. -/
structure Engine where
  s         : SMap SVal
  z         : Bool
  n         : Bool
  fp        : Bool                 -- poison of Z and N
  v         : SMap Vec
  acc       : SMap AccSet          -- as VMAC and VMSB see it
  accM      : SMap AccSet          -- as the M slot sees it
  inflight  : List InFlight
  loops     : List LoopFrame       -- innermost first
  cache     : SMap (BitVec 128)    -- repeat cache, by bundle address
  pastEnd   : Bool                 -- the next fetch lies past bundle 2,047
  rdtHi     : Word                 -- SLATE[63:32] of the tick RDT item 0 read
  inSyms    : List (List StreamWord)   -- unread words of the stored symbols, oldest first
  inUse     : Bool                 -- the operation uses the oldest symbol
  outOpen   : List StreamWord      -- the open output symbol
  outClosed : List (List StreamWord)   -- closed symbols on their way to the receiver
  inOp      : Bool                 -- an operation is in service
  cycles    : Nat                  -- engine cycles since the operation was issued
  ovfLogged : Bool                 -- SE 0x06 logged in this operation
  xrun      : Nat                  -- consecutive engine X cycles
  rest      : Nat                  -- tick up to which the idle X cycles outside RUN are counted
  start     : Nat                  -- tick from whose edge the operation's bundles issue (R167)
  ran       : Nat                  -- its cycles of the present tick that are over
  stall     : Nat                  -- cycles without issue still to come after a taken branch (R128)
  deriving DecidableEq, Repr

/-- The engines' hidden state and memories. -/
structure Se where
  eng  : SMap Engine               -- engine
  spad : SMap Elem                 -- engine × 65,536 + element
  coef : SMap Elem                 -- engine × 16,384 + element
  prog : SMap (BitVec 128)         -- engine × 2,048 + bundle
  ring : SMap Word                 -- mover × 128 + word of its descriptor ring (Table SE-13)
  move : SMap (Option (List Byte)) -- mover → staging buffer of the descriptor in service (R152)
  deriving DecidableEq, Repr

/-! ## The Call Sheet -/

/-- An entry in a ready list or in service: where it stands, its period, its earliest tick and its 128 bits. -/
structure CshItem where
  bank   : Nat
  index  : Nat
  period : Nat
  early  : Nat
  entry  : BitVec 128
  deriving DecidableEq, Repr

/-- An operation in service: the tick it issued, the tick from which the present period counts it busy, the report
the hub holds (completion tick and status, R167), and whether its bank has been switched away (R162). -/
structure CshOp where
  item  : CshItem
  issue : Nat
  since : Nat
  rep   : Option (Nat × Nat)
  old   : Bool
  deriving DecidableEq, Repr

/-- A release that is due at a tick: of an entry, or of the slots of a LINK (R168). -/
structure CshRelease where
  due    : Nat
  period : Nat
  link   : Bool
  index  : Nat
  deriving DecidableEq, Repr

/-- The scheduler beyond its registers. -/
structure Csh where
  entries  : SMap (BitVec 128)        -- bank × 262,144 + index
  poison   : SMap Bool                -- entries stored with their poison bit set (Table MEM-7)
  staged   : Option (Nat × Nat)       -- the STAGED bank and its Cut slot
  checkAt  : Option Nat               -- tick on which the staging check under way began (R161)
  loadHeld : List Nat                 -- banks a full load holds (R161)
  origin   : Nat                      -- T of the running bank
  period   : Nat                      -- k of the current period
  fetchK   : Nat                      -- period being fetched
  fetchIdx : Nat                      -- next entry to fetch
  fetchAt  : Nat                      -- the tick from which fetched entries reach their lists
  stalled  : Bool                     -- a fetch stall has been logged in this period (R165)
  lists    : SMap (List CshItem)      -- engine → ready list
  acted    : List Nat                 -- engines acted on in this tick; 64: fetch
  ops      : SMap (Option CshOp)      -- engine → operation in service
  released : SMap Nat                 -- index → releases in the current period
  rels     : List CshRelease
  skipFlow : List (Nat × Nat × Nat)   -- flows abandoned: (period, flow, index of the entry) (Table CSH-7)
  skipEng  : List (Nat × Nat)         -- engines abandoned: (period, engine)
  busy     : SMap Nat                 -- engine → busy ticks so far in the current period
  deriving DecidableEq, Repr

/-! ## Serial lanes -/

/-- A pattern checker (R195): the last 64 line bits, the newest in bit 0, and how many of them have come; in sync, the
pattern register, its position, the bits counted, where among the last 1,024 the errors lie, and whether they have
reached 64. -/
structure Checker where
  hist : BitVec 64
  seen : Nat
  reg  : BitVec 31
  pos  : Nat
  n    : Nat
  errs : List Nat
  lost : Bool
  deriving DecidableEq, Repr

/-- A lane beyond its registers. -/
structure Lane where
  txFrom   : Nat              -- transmit state that a transition under way leaves
  txTo     : Nat              -- transmit state it goes to
  txDue    : Option Nat       -- tick a transmit wake completes; none while it waits for its PLL (R193)
  rxFrom   : Nat
  rxTo     : Nat
  acquire  : Bool             -- the next lock runs ACQUIRE (R185, R187)
  acqCode  : Nat              -- ACQUIRE: next CTLE code to sweep
  acqBest  : Option (Nat × Nat)   -- ACQUIRE: best score so far and its code
  phase    : BitVec 8         -- sampling phase (R186, R187)
  trialDue : Bool             -- the next sweep is the trial sweep (R186)
  trialUp  : Option Bool      -- direction of the last trial sweep (R186)
  ctleNext : Option Nat       -- the code the data path takes at the next block boundary (R186)
  txScr    : BitVec 58        -- scrambler state
  rxScr    : BitVec 58        -- descrambler state
  sentData : Bool             -- owner data was sent since the last fill block (R188)
  inject   : Bool             -- one transmitted bit is to be inverted (R195)
  loopNow  : Nat              -- loopback in effect since the last block boundary (R194)
  txeqNow  : Word             -- equaliser setting in effect since the last block boundary (R183)
  hdrGood  : Nat              -- consecutive valid headers so far, up to 64 (R189)
  hdrBad   : List Bool        -- the last 64 headers, newest first: was it invalid
  hber     : Nat              -- invalid headers in the HBER window under way (R189)
  hberAt   : Nat              -- the tick at which that window began
  prev     : BitVec 66        -- the line bits of the last block time, the first in bit 0
  bound    : Nat              -- PCS66 and RAW66: bits before a block time at which its block begins (R189, R190)
  eb       : List (LaneBlock × Bool)  -- elastic buffer, oldest first, each with its header-error flag (R191)
  lfsr     : BitVec 31        -- pattern generator
  genPos   : Nat              -- bits sent of patterns 5 and 6
  chk      : Checker          -- pattern checker
  deriving DecidableEq, Repr

/-! ## Ethernet and converter links -/

/-- The sideband of a delivered frame (Table ETH-2). -/
structure RxSide where
  len    : Nat
  ts     : BitVec 96
  ecp    : Bool
  ecpErr : Bool
  concat : Bool
  vlans  : Nat
  mtype  : Nat
  id     : Nat
  seq    : Nat
  tag    : Nat
  deriving DecidableEq, Repr

/-- What the parser makes of a frame's header (R208): its port, its sideband without LEN and TS, the cause of a malformed
header (0 revision, 1 size, 2 short), the port of malformed frames, and the payload size and where the bytes after the
header begin. -/
structure Parsed where
  port   : Nat
  ecp    : Bool
  bad    : Option Nat
  concat : Bool
  vlans  : Nat
  mtype  : Nat
  id     : Nat
  seq    : Nat
  tag    : Nat
  other  : Nat
  size   : Nat
  off    : Nat
  deriving DecidableEq, Repr

/-- A frame whose header has been parsed and whose end is still to come. -/
structure RxHead where
  ts     : BitVec 96
  bytes  : List Byte
  parsed : Parsed
  deriving DecidableEq, Repr

/-- A MAC beyond its registers. -/
structure Mac where
  txq    : List EthTx             -- frames whole in the transmit buffer, oldest first
  txPart : Nat                    -- bytes there of a frame with START but no END (R202)
  rxNow  : Option RxHead          -- the frame being received
  rxHeld : SMap Nat               -- receive port → bytes in its buffer (R201)
  amLock : Bool                   -- alignment marker lock of a group (R204)
  tsWait : List (Nat × BitVec 96) -- tags and timestamps of TS_REQ frames sent that are still to come back
  txts   : List (Nat × BitVec 96) -- the timestamp FIFO, oldest first, at most 64 (R206)
  deriving DecidableEq, Repr

/-- A lane of a receive link (R211): the octets that wait for their release, the oldest first, each with whether its
multiblock's CRC-12 mismatches; the number of the oldest, where the octet that opens the extended multiblock begun at
tick b has number b × O; and the last opening, its boundary and its arrival after it in 1/256 tick. -/
structure LinkLane where
  q      : List (Byte × Bool)
  pos    : Option Nat
  bad    : Bool                   -- the multiblock under way mismatches
  opened : Option (Nat × Nat)
  deriving DecidableEq, Repr

/-- A converter link beyond its registers. -/
structure Jlk where
  rx       : SMap LinkLane        -- logical lane → its buffer
  wordAt   : Option Nat           -- tick of the last word: one a tick (R211, R213)
  runFrom  : Nat                  -- transmit: the tick from which an LEMC boundary starts RUN (R213)
  lateRun  : Nat                  -- consecutive extended multiblocks with a late word (R212)
  lateNow  : Bool                 -- the present extended multiblock has had a late word
  lost     : BitVec 8             -- logical lanes whose loss has been logged in this RUN
  sysLost  : Bool                 -- a SYSREF change against R210 has been logged in this RUN
  deriving DecidableEq, Repr

/-- The hard interface blocks of P27 beyond their registers. -/
structure Eth where
  macs  : SMap Mac                -- die × 16 + MAC
  links : SMap Jlk                -- die × 16 + link
  logAt : SMap (Option Nat)       -- (block code × 32 + number) × 256 + code → tick of the last record (R212, R215)
  wrote : List (Nat × Nat × Word) -- parser registers written on a tick: the tick, the address, the word before (R208)
  deriving DecidableEq, Repr

/-! ## The mesh -/

/-- What a link packet of this device carries. The spec gives no byte coding of the control packets. -/
inductive MeshBody where
  | hello (num port : Nat) (serial : Word)
  | candidate (k : RootKey)
  | delay
  | ack (seq : Nat)
  | nak (seq : Nat)
  | credit (vc : Bool) (units : Nat)
  | beat (k : RootKey) (tick : Nat)
  | map (m : MeshMap)
  | clapper (b : ClapBody)
  | report (r : ClapReport)
  | data (sent : Nat) (bytes : List Byte)
  | loadReq (slot : Nat)            -- a request for a Reel slot image (R303)
  deriving DecidableEq, Repr

/-- A packet that waits for credit. -/
structure MeshPkt where
  vc   : Bool
  dst  : Nat
  src  : Nat
  body : MeshBody
  deriving DecidableEq, Repr

/-- A packet in the replay buffer (R220). -/
structure Kept where
  pkt     : MeshPkt
  seq     : Nat
  sent    : Nat
  resends : Nat
  deriving DecidableEq, Repr

/-- A mesh port beyond its registers. -/
structure MeshPort where
  rxSeq      : SMap Nat             -- VC → next sequence number expected
  txSeq      : SMap Nat             -- VC → next sequence number sent
  credit     : SMap Nat             -- VC → credit held, 64-byte units (R221)
  grant      : SMap Nat             -- VC → credit that the neighbour holds, 64-byte units (R221)
  waiting    : List MeshPkt         -- packets that lack credit or replay room, oldest first
  kept       : List Kept            -- the replay buffer, oldest first
  helloAt    : Option Nat           -- tick of the exchange of HELLO packets (R219)
  delays     : Nat                  -- delay exchanges completed
  upAt       : Nat                  -- tick the link entered UP
  peerSerial : Word                 -- the neighbour's serial
  deriving DecidableEq, Repr

/-- A pending Clapper: the Clapper, the Cut slot a CUT holds, and whether a BARRIER release timed out. -/
structure PendClap where
  c       : Clap
  slot    : Option Nat
  timeout : Bool
  deriving DecidableEq, Repr

/-- A barrier that collects arrivals (R235). -/
structure Bar where
  self    : Bool
  kids    : List Nat                -- ports below from which an arrival has come
  passed  : Bool                    -- the arrival has been passed upward, or released
  firstAt : Nat                     -- tick of the first arrival
  id      : Option Nat              -- the ID of the BARRIER Clapper that names it
  deriving DecidableEq, Repr

/-- A DATA packet that waits for its delivery tick (R236). -/
structure MeshData where
  due   : Nat
  src   : Nat
  bytes : List Byte
  deriving DecidableEq, Repr

/-- The mesh controller beyond its registers. -/
structure Mesh where
  ports   : SMap MeshPort           -- port
  downs   : SMap (List Nat)         -- port → ticks it went DOWN in the last second (R222)
  heldAt  : SMap Nat                -- port → tick it was HELD
  logAt   : SMap (Option Nat)       -- port → tick of its last MSH 0x03; 16: of the last 0x0E
  root    : Option RootKey          -- the root of the system
  joined  : Bool                    -- a MAP of the system has been taken
  best    : Option RootKey          -- the best candidate heard in SEEK
  settle  : Nat                     -- tick from which SETTLE counts
  beat    : Nat                     -- the multiple of the last BEAT received
  kids    : List Nat                -- ports to the devices below in the tree
  dist    : Nat                     -- distance from the root
  serials : SMap (Option Word)      -- device number → serial
  pend    : List PendClap           -- pending Clappers, at most 16, oldest first
  orig    : Option Clap             -- the Clapper in MSH_CLP_CTL
  bars    : SMap (Option Bar)       -- barrier ID
  step    : Option (Nat × Int)      -- the pending Slate step: its tick and Δ (R230, R227)
  dataIn  : List MeshData           -- DATA packets to deliver, oldest first
  reports : List ClapReport         -- REPORTs that wait for a route to their origin (R230)
  deriving DecidableEq, Repr

/-! ## DRAM controllers -/

/-- A burst request in a controller, from its acceptance to its completion (R246). -/
structure DramBurst where
  port   : Nat
  addr   : Nat
  write  : Bool
  at_    : Nat                      -- tick of acceptance
  urgent : Bool                     -- accepted while PANIC was honoured and high (R250)
  served : Bool                     -- its column command has been issued
  deriving DecidableEq, Repr

/-- A controller beyond its registers. -/
structure Dmc where
  queue    : List DramBurst             -- requests accepted, oldest first
  rows     : SMap (Option Nat)      -- bank → open row (R247)
  drain    : SMap Bool              -- subchannel → writes drain (R251)
  acts     : SMap (Option Nat)      -- bank × 2^17 + row → activate count of an entry (R253)
  nbr      : List (Nat × Nat)       -- neighbour refreshes due: bank, row (R253, R254)
  fullLog  : Bool                   -- DMC 0x06 logged in this refresh window
  nbrLog   : Option Nat             -- tick of the last DMC 0x05
  missLog  : SMap (Option Nat)      -- port → tick of its last DMC 0x04
  postpone : SMap Nat               -- rank → refreshes postponed (R252)
  sbBank   : SMap Nat               -- rank → next bank of the same-bank refresh
  windows  : Nat                    -- refresh intervals of the present window
  refAt    : SMap Nat               -- rank → when its next refresh is due, in 1/1,000 tick (R252)
  rateAt   : Nat                    -- tick of the last read of the refresh-rate mode register
  driftIv  : Nat                    -- refresh intervals since the DQS oscillators were read (R245)
  drift    : SMap Int               -- byte lane → delay offset in 1/64 UI (R245)
  driftLog : Bool                   -- DMC 0x0B logged
  training : Nat                    -- the set a training run trains
  noLock   : Bool                   -- the training run began with no crystal for the DRAM clocks to lock to (R372)
  fchgSet  : Nat                    -- the set of the change accepted
  fchgAt   : Nat                    -- the tick it takes effect
  closing  : Bool                   -- the ports close once the queue is empty (R243)
  deriving DecidableEq, Repr

/-! ## Memory protection -/

/-- A sector as DRAM holds it: its plaintext, its version counter (0: never written), POISON, the key draw it was
written under, the code strength of that write, and whether the devices have lost it (R258). -/
structure Sector where
  data   : BitVec 4096
  ver    : Nat
  poison : Bool
  key    : Nat
  t      : Nat
  lost   : Bool
  deriving DecidableEq, Repr

/-- A plaintext sector in the sector cache (R271). -/
structure CacheLine where
  n      : Nat
  c      : Nat
  data   : BitVec 4096
  poison : Bool
  dirty  : Bool
  sat    : Bool                     -- its counter is saturated and has been logged (R273)
  deriving DecidableEq, Repr

/-- A channel of the engine beyond its registers: the keys in force and, from acceptance of a KEY Cut, the new ones. -/
structure MpeChan where
  key     : Nat                     -- key draw covering the channel (below B while ROTATING: `newKey`)
  tree    : Nat                     -- the draw of its tree key, which no rotation changes (R278)
  newKey  : Nat
  cutSlot : Option Nat              -- the slot of the KEY Cut requested last
  lastRot : Option Nat              -- tick of the last rotation rewrite
  sectors : SMap Sector             -- channel sector
  ctr     : SMap Nat                -- level × 2^27 + index → the counter that covers that node; level 8: the root
  failed  : List (Nat × Nat)        -- failed nodes: level, index (R277)
  nodes   : SMap (Option Bool)      -- level × 2^27 + index → a node in the counter cache, and whether it is dirty
  deriving DecidableEq, Repr

/-- The memory side of the hub: the controllers and the protection engine. -/
structure Mem where
  dmc   : SMap Dmc
  chan  : SMap MpeChan
  cache : List CacheLine            -- the sector cache, oldest first, at most 4,096
  draws : Nat                       -- key draws since start
  start : Nat                       -- the draw made at the start of the device (R274)
  begun : List Nat                  -- channels that have initialised since then
  deriving DecidableEq, Repr

/-! ## The Reel store and the loader -/

/-- A page of the Reel store: its 2,048 bytes, commit marker, torn flag and the t used to write it (R285, R287). -/
structure StorePage where
  data   : BitVec 16384
  commit : Bool
  torn   : Bool
  t      : Nat
  deriving DecidableEq, Repr

/-- A store operation under way (R287 to R292). -/
structure StoreOp where
  op     : Nat                      -- 0 program, 1 clear, 2 boot record
  count  : Nat
  page   : Nat                      -- first page of the target
  data   : List (BitVec 16384)      -- the pages to program
  pulses : Nat                      -- pulses ended
  since  : Nat                      -- tick it started or last resumed
  ran    : Nat                      -- nanoseconds that its pulses ended since then have taken
  swSusp : Bool                     -- software has asked for the suspension (R289, R303)
  holds  : List Nat                 -- what holds it suspended: 0 a load, 1 a Splice, 2 a repair (R303)
  brown  : Bool                     -- the detector has tripped; the pulse in progress is the last (R290)
  deriving DecidableEq, Repr

/-- The Reel store. It survives every reset. -/
structure Nvs where
  pages  : SMap StorePage           -- page number; the system rows follow at 393,216
  heads  : SMap (Word × Word)       -- block → its two state words (R288)
  op     : Option StoreOp
  lastCe : Option Nat               -- tick of the last NVS 0x04
  worn   : List Nat                 -- pages reported by NVS 0x05 since P2 power-up
  deriving DecidableEq, Repr

/-- A load or a Splice under way: where its image comes from and how far it has been read (R302, R320). -/
structure Image where
  src     : Nat                     -- SRC of Table CFG-6; for a Splice the SRC of SPL_FAIL
  slot    : Nat
  port    : Nat
  base    : Nat                     -- store offset, for a store source
  got     : List Byte               -- bytes taken from a stream
  pos     : Nat                     -- bytes read by the loader
  header  : Option (List Byte)      -- the checked header
  idle    : Nat                     -- tick from which the idle timeout runs (R304)
  target  : Option Nat              -- TARGET of the packets taken on the load port (R311)
  keyLost : Bool
  frames  : Nat                     -- frames written
  golds   : List (Nat × BitVec 64 × Nat)  -- frame, signature, image offset
  wrote   : List Nat                -- frames written
  mems    : List (Nat × Nat × Nat)  -- memories written: kind, die, index (Table CFG-5)
  memSeen : Bool                    -- a MEMORY section has been met
  marched : Bool                    -- the start-up march has run
  pairs   : List (Word × Word)      -- REGS pairs, in order
  routing : Option (List Byte)      -- TABLE SUB 0
  tick    : Nat                     -- a Splice's T
  regions : List Nat                -- regions of an accepted Splice
  left    : List Nat                -- those whose Cut is still to execute
  done    : Nat                     -- those committed
  deriving DecidableEq, Repr

/-- What a failed load or Splice has to zero while CLEARING (R309, R324). -/
structure Clearing where
  frames  : List Nat
  mems    : List (Nat × Nat × Nat)
  regions : List Nat
  deriving DecidableEq, Repr

/-- Where a region's repair copies come from (R330): the image's store offset, its key slot and its IV. -/
structure RepairSrc where
  base : Nat
  key  : Nat
  iv   : BitVec 96
  deriving DecidableEq, Repr

/-- A START of a Splice, with what it names. -/
structure SpliceAsk where
  src  : Nat
  tick : Nat
  base : Nat
  deriving DecidableEq, Repr

/-- The configuration controller, the keys and the Splice and scrub block, beyond their registers. -/
structure Cfg where
  fuseKey   : Option (BitVec 256)
  storeKey  : Option (BitVec 256)
  keyErased : Bool                  -- the key store's own ERASED and TAMPER marks, kept on VBAT
  keyTamper : Bool
  keyRecs   : List Nat              -- erase causes whose records wait for P0 (R301)
  keyMask   : Nat                   -- data words written since the last WRITE
  keyData   : SMap Word
  blowing   : Option (Nat × BitVec 256)  -- a fuse key being blown: its start tick and value
  load      : Option Image
  loadWait  : Option (Nat × Nat × Nat)   -- START waiting for CLEARING: source, slot, port (R309)
  loadClear : Clearing
  doneHigh  : Bool                  -- CFG_DONE released
  errHigh   : Bool                  -- CFG_ERR driven high
  ioOn      : Bool                  -- user I/O enabled
  strayAt   : Option Nat            -- tick of the last CFG 0x05
  routing   : List Byte             -- bridge channel routing (R18)
  ioBanks   : List Byte             -- I/O bank settings
  groupHeld : SMap Bool             -- engine group → isolated by a full load (R305, R307)
  splice    : Option Image
  spliceWait : Option SpliceAsk
  spliceClear : Clearing
  active    : SMap (BitVec 16384)   -- frame → configuration, active plane (R317)
  shadow    : SMap (BitVec 16384)   -- frame → configuration, shadow plane
  golden    : SMap (Option (BitVec 64 × Nat))  -- frame → golden signature and image offset (R327)
  source    : SMap (Option RepairSrc)          -- region → repair source
  excl      : SMap Bool             -- frame → excluded from scrubbing, as fixed at its region's load or commit (R326)
  skip      : List Nat              -- regions that scrubbing skips (R328)
  passAt    : Option Nat            -- tick the pass under way started
  repairs   : List Nat              -- frames queued for repair, oldest first (R329)
  relNext   : List Nat              -- regions that software releases on the next tick (R331)
  deriving DecidableEq, Repr

/-! ## The supervisor -/

/-- The supervisor core, as far as the spec gives its state: no general register of its instruction set is named. -/
structure Core where
  state     : Nat                   -- DBG_CORE_STAT.STATE: 0 RUN, 1 HALTING, 2 HALTED, 3 STOPPED
  reason    : Nat                   -- DBG_CORE_STAT.REASON
  rsvBroken : Bool
  feedErr   : Bool
  feedCause : Nat
  emuSleep  : Bool
  pc        : Word                  -- DBG_PC
  ddata     : Word                  -- DBG_DDATA
  resv      : Bool                  -- a reservation from a load-reserved is held (R362)
  haltAt    : Nat                   -- tick of a deferred halt's request
  inNmi     : Bool                  -- in its non-maskable handler (R346)
  evtEn     : Bool                  -- its event-enable state (R343)
  sleep     : Nat                   -- 0 awake; 1, 2, 3: waits for an event in GAF_SLEEP.MODE 0, 1, 2 (R384)
  deriving DecidableEq, Repr

/-- The TAP and the debug bus master (P0). -/
structure Dbg where
  attach   : Bool                   -- DBG_CORE_CTL.ATTACH
  bp       : SMap Word              -- DBG_BPk
  ir       : Nat                    -- the TAP's current instruction
  dr       : Nat                    -- what Capture-DR last loaded
  boundary : List Bool              -- the boundary register, as last shifted in
  pins     : Bool                   -- the boundary register owns the covered pins (R357)
  pinsEnd  : Bool                   -- EXTEST has been left; control returns at the next Slate tick
  busy     : Option Nat             -- the operation in progress (R358)
  status   : Nat                    -- STATUS of the last operation
  data     : Word                   -- data of the last READ, PEEK or CORE_RD
  deriving DecidableEq, Repr

/-- The two-wire target port (R349, R350). -/
structure Twi where
  stretch : Option Nat              -- tick from which TWI_SCL is held for a wake
  nak     : Bool                    -- the next byte is not acknowledged
  last    : Nat                     -- status byte of the last write
  deriving DecidableEq, Repr

/-- What Tamop waits for before it answers the command in progress (R367). -/
inductive TamopWait where
  | none | read | write | load | splice | boot
  deriving DecidableEq, Repr

/-- The monitor's UART and Tamop's line (R367, R368). -/
structure Uart where
  rx      : List Byte               -- receive FIFO, oldest first
  tx      : List Byte               -- transmit FIFO, oldest first
  txAcc   : Nat                     -- progress of the byte being sent, in baud × Slate ticks
  line    : List Byte               -- characters of the line in progress
  lineAt  : Nat                     -- tick of its first character
  baudSet : Bool                    -- a baud command has been given
  wait    : TamopWait
  deriving DecidableEq, Repr

/-- The boot ROM (R392, R394, R395). -/
structure Boot where
  phase   : Nat                     -- 0 not started, 1 waits to load, 2 loading, 3 descriptor due, 4 Tamop, 5 firmware
  full    : Bool                    -- started by a FULL or SYSTEM reset: it runs R394, not R395 alone
  scanned : Bool                    -- the header scan since P2's power-up is done
  scanAt  : Nat                     -- tick from which that scan runs (R288)
  loads   : Nat                     -- loads made
  slot    : Nat                     -- slot of the last of them
  deriving DecidableEq, Repr

/-- The supervisor core, its memory, the event controller and the interfaces of the hub, beyond their registers. -/
structure Sup where
  sram    : SMap Word               -- word index of the 512 KiB at 0x0010_0000
  core    : Core
  dbg     : Dbg
  twi     : Twi
  uart    : Uart
  boot    : Boot
  level   : SMap Bool               -- source → its sampled input (R339)
  swPend  : SMap Bool               -- source → set pending by software (R345)
  active  : SMap (Option Nat)       -- target → its active source (R342)
  compete : SMap Nat                -- source → first tick on which it competes again (R344)
  req     : SMap (Option Nat)       -- target → the source on REQ and SRC (R342)
  setNow  : List Nat                -- sources that hardware set pending on this tick (R35)
  latch   : List Nat                -- event pin sources whose asynchronous latch has caught an edge (R341)
  wdgAcc  : Nat                     -- fraction of a microsecond gone by, in 1/6,144
  wdgWarned : Bool                  -- a warning has been raised since the last reload
  wdgFrozen : Bool                  -- frozen by a debug halt (R348)
  deriving DecidableEq, Repr

/-! ## Clocks and power -/

/-- The Gaffer's and the clock controller's hidden state. -/
structure Gaf where
  held      : Bool                -- RESET_N is low: the device is held in reset (R396)
  good      : Bool                -- power-good is high (R404)
  rail      : Nat                 -- the rail whose brown-out made power-good fall; 0: none (R396)
  straps    : Straps              -- the straps as last sampled
  gatedLog  : SMap (Option Nat)   -- enable key → tick of the last CKC 0x03 (R376)
  isoQuad   : SMap Bool           -- quads isolated for a lane item (R15, R17)
  isoEngine : SMap Bool           -- engines isolated for a halt item (R15, R17)
  isoDomain : SMap Bool           -- domains isolated for a power item (R15, R17)
  rampEnter : SMap Nat            -- domain → tick it entered RAMP (R381)
  rampStart : SMap (Option Nat)   -- domain → tick its ramp started; none while queued (R381)
  downAt    : SMap Nat            -- domain → tick it entered DOWN (R382)
  downNext  : List Nat            -- domains that enter DOWN on the next tick (R382)
  byCut     : SMap Bool           -- domain → its last ON or OFF was a Cut's (Table GAF-7)
  cutClient : SMap Nat            -- Cut slot → the client whose vote a POWER_ON Cut places (R383)
  portVotes : SMap Nat            -- fabric vote port → its last sampled VOTE inputs (R380)
  emu       : SMap Bool           -- P1 or P2 → its drop is emulated (R364)
  blocked   : SMap Bool           -- domain → faulted: it ramps again only on votes from none to some (R381)
  sleepD0   : Bool                -- a wait for an event in MODE 2 has D0_STOP set (R384)
  d4Stop    : Bool                -- D4 is stopped (R384)
  d0Stop    : Bool                -- D0 is stopped (R384)
  xtalGood  : Nat                 -- consecutive good windows of the crystal (R371)
  xtalBad   : Nat                 -- consecutive windows that were not good
  xtalEver  : Bool                -- XTAL_OK has set since power-good or a reset of the CKC registers (R372)
  xtalFailed : Bool               -- the crystal has failed since
  fcnt      : Option Nat          -- tick a frequency count started (R378)
  synRelock : SMap Bool           -- synthesiser → it has lost lock and relocks by itself (R375)
  deriving DecidableEq, Repr


/-! ## Outputs of the present tick -/

/-- What the device drives or sends for one cycle: the outputs since the last Slate tick. -/
inductive OutEv where
  | cutPulse (die port : Nat)
  | cutAck (die status slot : Nat)
  | bridge (die num : Nat) (toHub : Bool) (poison : Bool) (data : List Byte) (stop : Config.ChanEnd)
  | userPort (die ofs : Nat) (write peek : Bool) (data : Word)
  | dac (code : Nat)
  | ppsOut (coarse fine : Int) (widthMs : Nat)
  | sysref (s width coarse fine : Nat)
  | ioPin (die bank pin : Nat) (level : Option Bool)
  | probePins (die : Nat) (levels : BitVec 16)
  | pulse (die : Nat) (kind : MemKind) (ram : Nat) (name : RamPulse)
  | ramHold (die : Nat) (kind : MemKind) (ram port : Nat) (high : Bool)
  | ramRead (die : Nat) (kind : MemKind) (ram port : Nat) (data : BitVec 40) (valid psn : Bool) (cycles : Nat)
  | sliceOut (die n : Nat) (out : BitVec 48) (ovf sat psn : Bool)
  | streamOut (n : Nat) (words : List StreamWord)
  | streamReject (n : Nat) (status : Nat)
  | laneTx (l : Nat) (hdr : BitVec 2) (data : BitVec 64)
  | laneIdle (l : Nat)
  | laneRx (l : Nat) (hdr : BitVec 2) (data : BitVec 64) (hdrErr : Bool) (wait : Nat)
  | ethTx (m : Nat) (bytes : List Byte)
  | ethRx (m port : Nat) (side : RxSide) (bytes : List Byte)
  | ethReject (m status : Nat)
  | ethReady (m : Nat) (ready : Bool)
  | ethTs (m tag : Nat) (ts : BitVec 96)
  | ethFault (m : Nat) (sendRemote sendIdle : Bool)
  | jlkRx (j : Nat) (emb : Bool) (octets : List Byte) (poison : BitVec 16)
  | jlkTx (j tick : Nat) (opens : Bool) (octets : List Byte)
  | meshTx (p : Nat) (vc : Bool) (dst src seq : Nat) (body : MeshBody)
  | meshData (src : Nat) (bytes : List Byte) (late : Bool)
  | clpExec (die kind id : Nat)
  | neighbourRefresh (n bank : Nat) (rows : List Nat) (rfm : Bool)
  | burst (n port addr : Nat) (write : Bool) (status : Nat)
  | sectorOut (n lbn dataAt slotAt : Nat) (cipher : BitVec 4096) (slot : BitVec 512)
  | nodeOut (n addr : Nat) (node : BitVec 512)
  | mpeRead (port : Nat) (status : Nat) (data : List Byte) (poison : List Bool)
  | mpeWrite (port : Nat) (status : Nat)
  | icpDone (die status : Nat)
  | voteOn (port on : Nat)
  | reportRequest
  | evtReq (target : Nat) (src : Option Nat)
  | gpioPin (bit : Nat) (level : Option Bool)
  | twiAck (ack : Bool)
  | twiBytes (data : List Byte)
  | twiRelease
  | twiSensor (addr speed : Nat) (data : List Byte) (rlen : Nat)
  | sensorPoll (addr pointer : Nat)
  | tdo (width value : Nat)
  | boundaryPins (cells : List Bool)
  | monTx (b : Byte)
  | tamop (values : List Nat) (code status : Nat)
  deriving DecidableEq, Repr

/-- The device: everything but the queue of commands. -/
structure Dev where
  slate  : Nat                    -- the Slate count (R29)
  regs   : SMap Word              -- the register file, by bus address
  hold   : SMap Word              -- the holding registers of R31, by the high word's address
  resp   : Resp                   -- the answer to the last control-bus access
  free   : Nat                    -- MODEL field: counts the free values drawn
  sets   : List (Nat × Word)      -- (register, bits) that hardware has set on this tick (R35)
  marks  : List (Nat × Nat)       -- (block code or unit key, class) reset, isolated or switched off on this tick (R34)
  outs   : List OutEv             -- outputs since the last Slate tick, newest first
  hub    : Hub
  cty    : Cty
  fab    : Fab
  se     : Se
  csh    : Csh
  lanes  : SMap Lane              -- lane
  eth    : Eth
  mesh   : Mesh
  mem    : Mem
  nvs    : Nvs
  cfg    : Cfg
  sup    : Sup
  gaf    : Gaf
  deriving DecidableEq, Repr

/-- The machine: the device and the commands that wait, first in, first out. -/
structure State where
  dev     : Dev
  pending : List Instr
  deriving DecidableEq, Repr

/-- Why a run stops. -/
inductive Fault where
  /-- Raised by the commands of Cuts, Clappers, schedules and the time of day once the Slate count is held at
  2^64 − 1, where the spec does not define them (R415). Safe: the model stops where the device goes on. -/
  | slateHeld
  deriving DecidableEq, Repr

/-- Why a command has no meaning. -/
inductive Refusal where
  /-- Raised by an arm of `exec` whose command has no meaning in the model yet. Safe: the model stops. -/
  | notModelled (mnemonic : String)
  deriving DecidableEq, Repr

/-- What a command answers. -/
abbrev Out := Host.Outcome State Fault Refusal

/-! ## Reset: the machine right after a FULL reset (R9, R396, R397) -/

/-- A FREE slot. -/
def CutSlot.free : CutSlot :=
  { state := .free, kind := 0, target := 0, status := 0, tick := 0, reserved := false, confirmed := false }

def Hub.reset : Hub :=
  { cuts := [], siteAck := [], dailies := [], outstanding := [], agentCopy := [], told := [], lost := [], busWaits := [], userWin := [], timeWire := [], pulses := [] }

def RefSlot.idle : RefSlot :=
  { qualSince := 0, waitSince := 0, holdT := false, holdF := false, offsets := [], sample := none, sampleAt := 0, before := none,
    lastSec := none, heardAt := none, offSince := none }

def Cty.reset : Cty :=
  { slots := [], selF := none, buildT := 0, buildF := 0, belowSince := none, lockedSince := none,
    everLocked := false, phases := [], errs := [], fcwHist := [], tempHist := [], tFilt := 0, extTemp := 0, tempFail := false,
    hoStart := 0, b0 := 0, hoMean := none, alarmed := false, params := [], mdlLo := none, mdlRestored := false, pendSamples := [],
    samples := [], lastRefit := 0, refitDone := false, restored := false, loXtal := false, loGood := none, lastRun := none, mapped := false, todPend := 0, bursts := [],
    tem := none, todFifo := [] }

def Capture.idle : Capture := { buf := [], left := 0, sw := false, seen := [] }

def PinRegs.idle : PinRegs := { inp := false, sync := false, out := false, oe := false }

def Slice.idle : Slice :=
  { host := 0, s1 := none, s2 := none, s3 := none, acc := 0, out := 0, ovf := false, sat := false, psn := false }

def Fab.reset : Fab :=
  { cells := [], wires := [], pins := [], ran := [], hist := [], probeOut := [], cap := [], tile := [], tilePsn := [], queue := [], queueAt := [], collSeen := [], deep := [], deepPsn := [], slices := [], march := [] }

def SVal.zero : SVal := { v := 0, p := false }
def Vec.zero : Vec := { x := 0, p := 0 }
def AccSet.zero : AccSet := { re := 0, im := 0, p := 0 }
def Elem.zero : Elem := { v := 0, p := false }

/-- An engine after its group has powered up (R127). -/
def Engine.idle : Engine :=
  { s := [], z := false, n := false, fp := false, v := [], acc := [], accM := [], inflight := [], loops := [], cache := [],
    pastEnd := false, rdtHi := 0, inSyms := [], inUse := false, outOpen := [], outClosed := [], inOp := false, cycles := 0,
    ovfLogged := false, xrun := 0, rest := 0, start := 0, ran := 0, stall := 0 }

def Se.reset : Se := { eng := [], spad := [], coef := [], prog := [], ring := [], move := [] }

def Csh.reset : Csh :=
  { entries := [], poison := [], staged := none, checkAt := none, loadHeld := [], origin := 0, period := 0, fetchK := 0, fetchIdx := 0, fetchAt := 0,
    stalled := false, lists := [], acted := [], ops := [], released := [], rels := [], skipFlow := [], skipEng := [],
    busy := [] }

def Checker.idle : Checker := { hist := 0, seen := 0, reg := 0, pos := 0, n := 0, errs := [], lost := false }

def Lane.idle : Lane :=
  { txFrom := 0, txTo := 0, txDue := none, rxFrom := 0, rxTo := 0, acquire := true, acqCode := 0, acqBest := none,
    phase := 0, trialDue := false, trialUp := none, ctleNext := none, txScr := 0, rxScr := 0, sentData := false, inject := false, loopNow := 0, txeqNow := 0, hdrGood := 0, hdrBad := [], hber := 0, hberAt := 0,
    prev := 0, bound := 0, eb := [], lfsr := 0, genPos := 0, chk := Checker.idle }

def Mac.idle : Mac :=
  { txq := [], txPart := 0, rxNow := none, rxHeld := [], amLock := false, tsWait := [], txts := [] }

def LinkLane.idle : LinkLane := { q := [], pos := none, bad := false, opened := none }

def Jlk.idle : Jlk := { rx := [], wordAt := none, runFrom := 0, lateRun := 0, lateNow := false, lost := 0, sysLost := false }

def Eth.reset : Eth := { macs := [], links := [], logAt := [], wrote := [] }

def MeshPort.idle : MeshPort :=
  { rxSeq := [], txSeq := [], credit := [], grant := [], waiting := [], kept := [], helloAt := none, delays := 0, upAt := 0, peerSerial := 0 }

def Mesh.reset : Mesh :=
  { ports := [], downs := [], heldAt := [], logAt := [], root := none, joined := false, best := none, settle := 0, beat := 0,
    kids := [], dist := 0, serials := [], pend := [], orig := none, bars := [], step := none, dataIn := [], reports := [] }

def Dmc.idle : Dmc :=
  { queue := [], rows := [], drain := [], acts := [], nbr := [], fullLog := false, nbrLog := none, missLog := [],
    postpone := [], sbBank := [], windows := 0, refAt := [], rateAt := 0, driftIv := 0, drift := [], driftLog := false, training := 0, noLock := false, fchgSet := 0, fchgAt := 0,
    closing := false }

def Sector.zero : Sector := { data := 0, ver := 0, poison := false, key := 0, t := 0, lost := false }

def MpeChan.off : MpeChan :=
  { key := 0, tree := 0, newKey := 0, cutSlot := none, lastRot := none, sectors := [], ctr := [], failed := [], nodes := [] }

def Mem.reset : Mem := { dmc := [], chan := [], cache := [], draws := 0, start := 0, begun := [] }

def StorePage.blank : StorePage := { data := 0, commit := false, torn := false, t := 0 }

/-- The state words a block leaves the factory with (R288): CLEARING and CLEAN. -/
def factoryHead : Word × Word := (0xC1EA71A6, 0x0C1EA200)

def Nvs.reset : Nvs := { pages := [], heads := [], op := none, lastCe := none, worn := [] }

def Clearing.none : Clearing := { frames := [], mems := [], regions := [] }

def Cfg.reset : Cfg :=
  { fuseKey := none, storeKey := none, keyErased := false, keyTamper := false, keyRecs := [], keyMask := 0, keyData := [],
    blowing := none, load := none, loadWait := none, loadClear := Clearing.none, doneHigh := false, errHigh := false,
    ioOn := false, strayAt := none, routing := [], ioBanks := [], groupHeld := [], splice := none, spliceWait := none,
    spliceClear := Clearing.none, active := [], shadow := [], golden := [], source := [], excl := [], skip := [], passAt := none,
    repairs := [], relNext := [] }

/-- The core at its reset vector. -/
def Core.reset : Core :=
  { state := 0, reason := 0, rsvBroken := false, feedErr := false, feedCause := 0, emuSleep := false, pc := 0, ddata := 0,
    resv := false, haltAt := 0, inNmi := false, evtEn := false, sleep := 0 }

/-- The TAP in Test-Logic-Reset: IDCODE is the current instruction (R356, IEEE 1149.1). -/
def Dbg.reset : Dbg :=
  { attach := false, bp := [], ir := 1, dr := 0, boundary := [], pins := false, pinsEnd := false, busy := none, status := 0, data := 0 }

def Uart.reset : Uart := { rx := [], tx := [], txAcc := 0, line := [], lineAt := 0, baudSet := false, wait := .none }

def Boot.reset : Boot := { phase := 0, full := true, scanned := false, scanAt := 0, loads := 0, slot := 0 }

def Twi.reset : Twi := { stretch := none, nak := false, last := 0 }

def Sup.reset : Sup :=
  { sram := [], core := Core.reset, dbg := Dbg.reset, twi := Twi.reset, uart := Uart.reset, boot := Boot.reset, level := [],
    swPend := [], active := [], compete := [], req := [], setNow := [], latch := [], wdgAcc := 0, wdgWarned := false,
    wdgFrozen := false }

def Gaf.reset : Gaf :=
  { held := false, good := true, rail := 0, straps := { id := 0, lo := 0, boot := 0, rng := true }, gatedLog := [], isoQuad := [], isoEngine := [], isoDomain := [], rampEnter := [], rampStart := [], downAt := [],
    downNext := [], byCut := [], cutClient := [], portVotes := [],
    emu := [], blocked := [], sleepD0 := false, d4Stop := false, d0Stop := false, xtalGood := 0, xtalBad := 0, xtalEver := false, xtalFailed := false,
    fcnt := none, synRelock := [] }

/-- The registers whose value after a FULL reset is not the Reset column's: the domains' states as the reset votes give
them, the cause of the reset, what straps and fuses give, and the ring's first record (R9, R392, R398). -/
def Dev.resetRegs : SMap Word :=
  [(0x02020000, 0x200), (0x02020004, 0x901), (0x02020008, 0x901), (0x0202000C, 0x901), (0x02020010, 0x901),
   (0x02020014, 0x4901), (0x02020018, 0x4901), (0x0202001C, 0x4901), (0x02020020, 0x4901), (0x02020024, 0x4901),
   (0x02020028, 0x4901), (0x0202002C, 0x901), (0x02020030, 0x901), (0x02020034, 0x4901), (0x02020038, 0x4901),
   (0x0202003C, 0x4901), (0x02020040, 0x4901), (0x02020044, 0x4901), (0x02020048, 0x4901), (0x0202004C, 0x901),
   (0x02020050, 0x901), (0x02020054, 0x901), (0x02020058, 0x901), (0x0202005C, 0x901), (0x02020060, 0x901),
   (0x02020064, 0x901), (0x02020068, 0x901), (0x0202006C, 0x901), (0x02020070, 0x200), (0x02020074, 0x901),
   (0x020200C4, 0x31), (0x02050000, 0xD8), (0x02110010, 0x989680), (0x02700004, 0x10001), (0x10000000, 0x10021),
   (0x18000000, 0x10121)]

/-- The domains whose ramp starts with the reset: two fabric domains of each die, and every other domain (R381, R392). -/
def Dev.resetRamps : SMap (Option Nat) :=
  [(1, some 0), (2, some 0), (3, some 0), (4, some 0), (11, some 0), (12, some 0), (19, some 0), (20, some 0), (21, some 0), (22, some 0), (23, some 0), (24, some 0), (25, some 0), (26, some 0), (27, some 0), (29, some 0)]

/-- The machine right after a FULL reset by power-good. -/
def Dev.reset : Dev :=
  { slate := 0, regs := Dev.resetRegs, hold := [], resp := .none, free := 0, sets := [], marks := [], outs := [],
    hub := { Hub.reset with dailies := [(0, 0x3010209100000000000000000)] },
    cty := Cty.reset, fab := Fab.reset, se := Se.reset, csh := Csh.reset, lanes := [], eth := Eth.reset, mesh := Mesh.reset,
    mem := Mem.reset, nvs := Nvs.reset, cfg := Cfg.reset, sup := Sup.reset,
    gaf := { Gaf.reset with rampStart := Dev.resetRamps } }

def State.reset : State := { dev := Dev.reset, pending := [] }

end Sys2Proof.Machine
end

