-- ==== Sys2Proof/Machine/Ops.lean ====
section
/-! DEFINITION. The operations every command is written with: registers and their fields, the Dailies log,
the control-bus gate, outputs, free values, and the two ways a command answers. -/
namespace Sys2Proof.Machine
open Reg

/-! ## Registers -/

/-- The word a register holds. -/
def Dev.rd (d : Dev) (a : Nat) : Word := SMap.get resetWord d.regs a

/-- The device with register `a` holding `v`. -/
def Dev.wr (d : Dev) (a : Nat) (v : Word) : Dev := { d with regs := SMap.put resetWord d.regs a v }

/-- The unsigned value of a field. -/
def Dev.rf (d : Dev) (f : RF) : Nat := fieldGet f.lo f.w (d.rd f.addr)

/-- The device with a field holding the low bits of `v`. -/
def Dev.wf (d : Dev) (f : RF) (v : Nat) : Dev := d.wr f.addr (fieldSet f.lo f.w v (d.rd f.addr))

/-- A field as a flag. -/
def Dev.bit (d : Dev) (f : RF) : Bool := d.rf f != 0

/-- Hardware sets a one-bit field, on this tick (R35). -/
def Dev.on (d : Dev) (f : RF) : Dev := { d.wf f 1 with sets := (f.addr, fieldMask f.lo f.w) :: d.sets }

/-- The bits of register `a` that hardware has set on this tick. -/
def Dev.setNow (d : Dev) (a : Nat) : Word := d.sets.foldl (fun x p => if p.1 = a then x ||| p.2 else x) 0

/-- Clear a field. -/
def Dev.off (d : Dev) (f : RF) : Dev := d.wf f 0

/-- A field holding the truth of `b`. -/
def Dev.wb (d : Dev) (f : RF) (b : Bool) : Dev := d.wf f b.toNat

/-- Add `n` to an event counter, which saturates at all ones (R36). -/
def Dev.incBy (d : Dev) (f : RF) (n : Nat) : Dev := d.wf f (satU f.w (d.rf f + n))

/-- Count one event (R36). -/
def Dev.inc (d : Dev) (f : RF) : Dev := d.incBy f 1

/-- The signed value of a field. -/
def Dev.rfs (d : Dev) (f : RF) : Int := signedOf f.w (d.rf f)

/-- The device with a signed field holding the low bits of `i`. -/
def Dev.wfs (d : Dev) (f : RF) (i : Int) : Dev := d.wf f (lowBits f.w i)

/-- The 64-bit value of a low and a high register. -/
def Dev.rd64 (d : Dev) (lo hi : Nat) : Nat := (d.rd hi).toNat * 2 ^ 32 + (d.rd lo).toNat

/-- Write the 64-bit value of a low and a high register. -/
def Dev.wr64 (d : Dev) (lo hi : Nat) (v : Nat) : Dev :=
  (d.wr lo (BitVec.ofNat 32 v)).wr hi (BitVec.ofNat 32 (v / 2 ^ 32))

/-- Every register of the address range back at its reset value (R9). -/
def Dev.resetRange (d : Dev) (lo hi : Nat) : Dev :=
  { d with regs := SMap.clear (fun a => lo ≤ a && a ≤ hi) d.regs,
           hold := SMap.clear (fun a => lo ≤ a && a ≤ hi) d.hold }

/-! ## Outputs and free values -/

/-- Drive an output of this tick. -/
def Dev.out (d : Dev) (o : OutEv) : Dev := { d with outs := o :: d.outs }

/-- The event output of source `n` pulses in this tick (R338). -/
def Dev.evPulse (d : Dev) (n : Nat) : Dev := { d with hub := { d.hub with pulses := n :: d.hub.pulses } }

/-- Draw a free value: the word nothing constrains, and the device that will draw another. -/
def Dev.draw (d : Dev) : Word × Dev := (Config.freeWord d.free, { d with free := d.free + 1 })

/-- A fraction rounded to a whole number, up or down as a free bit says where it is not whole (the spec states
no rounding there). -/
def roundFree (n : Nat) (num : Int) (den : Nat) : Int :=
  if num % (den : Int) = 0 then num / (den : Int)
  else num / (den : Int) + (if Config.freeBit n then 1 else 0)

/-- A fraction rounded half up. -/
def roundHalfUp (num : Int) (den : Nat) : Int := (2 * num + (den : Int)) / (2 * (den : Int))

/-- Have `ns` nanoseconds gone by in `t` Slate ticks of 3,125/768 ns each (R61)? -/
def elapsed (t ns : Nat) : Bool := ns * 768 ≤ t * 3125

/-- Ticks of one second. -/
def ticksPerSec : Nat := 245760000

/-- Ticks of one millisecond. -/
def ticksPerMs : Nat := 245760

/-- The count the Slate counter holds for good (R415). -/
def slateMax : Nat := 2 ^ 64 - 1

/-! ## Completion statuses (Table SLT-2) -/

def stDONE : Nat := 0
def stLENGTH : Nat := 1
def stTIMEOUT : Nat := 2
def stPOISON : Nat := 3
def stACCESS : Nat := 4
def stABORT : Nat := 5
def stLEAD : Nat := 6
def stFULL : Nat := 7

/-! ## The Dailies log -/

/-- Severity codes of Table SLT-6. -/
inductive Sev where
  | info | note | warn | error | fatal
  deriving DecidableEq, Repr

def Sev.code : Sev → Nat
  | .info => 0 | .note => 1 | .warn => 2 | .error => 3 | .fatal => 4

/-- The 16 bytes of a Dailies record, little-endian (Table SLT-6, R6). -/
def record (tick blk code sev : Nat) (det : List Nat) : BitVec 128 :=
  let d := fun i => (det.getD i 0) % 256
  BitVec.ofNat 128 (tick % 2 ^ 64 + (blk % 256) * 2 ^ 64 + (code % 256) * 2 ^ 72 + (sev % 256) * 2 ^ 80
    + d 0 * 2 ^ 88 + d 1 * 2 ^ 96 + d 2 * 2 ^ 104 + d 3 * 2 ^ 112 + d 4 * 2 ^ 120)

/-- The event class of a code (Table SLT-1), as the code table of its block's chapter gives it (R45): the classes of
the codes that are not data events of class 8. The detail bytes decide it for the discarded action, which has its own
class, for an ERASE of the keys, a core trap, an engine's trap, a descriptor's TIMEOUT and a brown-out reset. -/
def codeClasses (blk : Nat) (det : Nat → Nat) : List (Nat × Nat) :=
  match blk with
  | 0x01 => [(1, 6), (2, 6), (3, 7), (4, 6)]
  | 0x02 => [1, 2, 3, 4, 5, 6, 7, 8, 9, 0x0C, 0x0F].map (fun c => (c, 6)) ++ [(0x0A, 5)]
  | 0x03 => [(2, 3), (6, 7), (7, if det 0 = 2 then 7 else 2), (9, 7), (0x0A, 3), (0x0B, 3), (0x0C, 3)]
  | 0x04 => [(2, 7), (3, 7), (6, 4), (7, 3), (8, 2), (9, 7), (0x0A, 7), (0x0B, 1)]
  | 0x05 => [(2, 6), (3, 7), (4, 3), (6, 3), (7, 3), (9, 3), (0x0A, 4), (0x0B, 7)]
  | 0x06 => [(1, 6), (2, 6), (3, 6), (4, 6), (6, 4), (7, 3), (9, 7), (0x0A, 7)]
  | 0x07 | 0x08 | 0x09 | 0x0A => [(2, 5), (3, 4), (8, 7), (9, 5)]
  | 0x0B => [(2, 4), (3, 4), (4, 4), (6, 6), (7, 6), (0x0D, 4)]
  | 0x0C => [(2, 5), (4, 5), (5, 6), (6, 6), (7, 6), (8, 7), (9, 6), (0x0A, 6), (0x0B, 6), (0x0C, 6), (0x0F, 6)]
  | 0x0D => [(2, min (det 1) 8), (4, 4)]
  | 0x0E => [(1, if det 0 = 2 then 4 else 3), (2, 7), (3, 3)]
  | 0x0F => [(1, 5), (3, 7), (4, 7), (5, 5), (7, 7)]
  | 0x10 => [(4, 7), (5, 2), (7, 7), (8, 2), (9, if det 0 = 3 ∨ det 0 = 4 then 2 else 1)]
  | 0x11 => [(1, 6), (2, 1), (3, 7)]
  | 0x12 => [(1, 7), (2, 7), (3, 7), (4, 7)]
  | 0x13 | 0x14 => [(1, 7)]
  | 0x15 => [(7, 5), (0x0A, 7)]
  | 0x16 => [(0x0A, 7), (0x0B, 4)]
  | 0x17 => [(2, 7), (4, 4), (7, 4)]
  | 0x18 => [(1, if det 1 = 1 ∨ det 1 = 8 then 4 else 3), (2, 4), (4, 4), (7, 4), (8, 7), (0x0A, 4)]
  | 0x19 => [(1, if det 2 = stTIMEOUT then 4 else 8), (2, 4)]
  | 0x1A => [(2, 4), (3, 4), (4, 3), (5, 4), (0x0B, 4), (0x0F, 4)]
  | _ => []

/-- The class of a code: 8 where no other is given. -/
def codeClass (blk code : Nat) (det : Nat → Nat) : Nat := ((codeClasses blk det).lookup code).getD 8

/-- The class of a stored record. -/
def recClass (r : BitVec 128) : Nat :=
  codeClass (r.extractLsb' 64 8).toNat (r.extractLsb' 72 8).toNat (fun i => (r.extractLsb' (88 + 8 * i) 8).toNat)

/-- Is `x` a record of the same tick as `r` and of a later class (R33)? -/
def recLater (x r : BitVec 128) : Bool := x.extractLsb' 0 64 == r.extractLsb' 0 64 && recClass r < recClass x

/-- Where record `r` goes in a ring whose next place is `p` and whose last `n` records are not yet freed: before the
records of its tick that are of a later class (R45). -/
def recPlace (ring : SMap (BitVec 128)) (r : BitVec 128) : Nat → Nat → Nat
  | 0, p => p
  | n + 1, p => if recLater (SMap.at 0 ring ((p + 2047) % 2048)) r then recPlace ring r n ((p + 2047) % 2048) else p

/-- The ring with those records moved on by one place. -/
def recShift (ring : SMap (BitVec 128)) (r : BitVec 128) : Nat → Nat → SMap (BitVec 128)
  | 0, _ => ring
  | n + 1, p =>
    if recLater (SMap.at 0 ring ((p + 2047) % 2048)) r then
      SMap.set 0 (recShift ring r n ((p + 2047) % 2048)) p (SMap.at 0 ring ((p + 2047) % 2048))
    else ring

/-- Where the ring takes record `r` now. -/
def Dev.recPlace (d : Dev) (r : BitVec 128) : Nat :=
  Machine.recPlace d.hub.dailies r (d.rf DLY_STAT_COUNT) (d.rf DLY_STAT_HEAD)

/-- Store a record at HEAD, behind the records of its tick that its class does not precede (R45), or count it in DLY_DROP where the ring is full; a record below MIN_SEV is neither
stored nor counted (R46). -/
def Dev.storeRec (d : Dev) (blk code : Nat) (sev : Sev) (det : List Nat) : Dev :=
  if sev.code < min (d.rf DLY_CTL_MIN_SEV) 4 then d
  else if d.rf DLY_STAT_COUNT ≥ 2048 then
    if sev.code ≤ 2 then d.inc DLY_DROP_LOW else d.inc DLY_DROP_HIGH
  else
    let h := d.rf DLY_STAT_HEAD
    let r := record d.slate blk code sev.code det
    let ring := SMap.set 0 (recShift d.hub.dailies r (d.rf DLY_STAT_COUNT) h) (d.recPlace r) r
    let d := { d with hub := { d.hub with dailies := ring } }
    (d.wf DLY_STAT_HEAD ((h + 1) % 2048)).wf DLY_STAT_COUNT (d.rf DLY_STAT_COUNT + 1)

/-- Log a record (R45, R46): a stored record that brings COUNT to WATERMARK sets WM and logs DLY 0x01 after it. -/
def Dev.log (d : Dev) (blk code : Nat) (sev : Sev) (det : List Nat) : Dev :=
  let c := d.rf DLY_STAT_COUNT
  let d := d.storeRec blk code sev det
  let c' := d.rf DLY_STAT_COUNT
  if c < c' ∧ c' = d.rf DLY_CTL_WATERMARK then
    (d.on DLY_STAT_WM).storeRec 0x0D 0x01 .note [c', c' / 256, 0, 0, 0]
  else d

/-! ## The control bus -/

def rqCode : Requester → Nat
  | .supervisor => 0 | .debug => 1 | .host => 2

/-- The access is answered with an error response. -/
def Dev.err (d : Dev) : Dev := { d with resp := .error }

/-- The access completes. -/
def Dev.ok (d : Dev) : Dev := { d with resp := .done }

/-- The block code of a control-bus address (Table SLT-7 over Tables ARCH-5 and ARCH-6); 0 where no block. -/
def blockOf (a : Nat) : Nat :=
  if a < 0x02000000 then 0
  else if a < 0x02010000 then 0x0E else if a < 0x02020000 then 0x0F else if a < 0x02030000 then 0x10
  else if a < 0x02040000 then 0x11 else if a < 0x02050000 then 0x12 else if a < 0x02060000 then 0x13
  else if a < 0x02070000 then 0x14 else if a < 0x02100000 then 0
  else if a < 0x02110000 then 0x01 else if a < 0x02120000 then 0x02 else if a < 0x02200000 then 0
  else if a < 0x02210000 then 0x03 else if a < 0x02220000 then 0x04 else if a < 0x02230000 then 0x05
  else if a < 0x02300000 then 0 else if a < 0x02310000 then 0x06 else if a < 0x02400000 then 0
  else if a < 0x02440000 then 0x07 + (a - 0x02400000) / 0x10000 else if a < 0x02500000 then 0
  else if a < 0x02510000 then 0x0B else if a < 0x02600000 then 0 else if a < 0x02610000 then 0x0C
  else if a < 0x02700000 then 0 else if a < 0x02710000 then 0x0D
  else if a < 0x04000000 then 0 else if a < 0x04800000 then 0x06
  else if a < 0x10000000 then 0
  else if a < 0x20000000 then
    let o := a % 0x8000000
    if o < 0x100000 then 0x1A else if o < 0x200000 then 0x15 else if o < 0x210000 then 0x16
    else if o < 0x220000 then 0x17 else if o < 0x800000 then 0x18 else if o < 0x810000 then 0x19 else 0x1A
  else if a < 0x40000000 then 0 else if a < 0x41000000 then 0x18
  else if a < 0x80000000 then 0 else 0x0B

/-- What a 40-bit address of an engine or a fabric port names (R26). -/
inductive WideTarget where
  | bus (a : Nat)        -- a control-bus address of Table ARCH-5
  | dram (ofs : Nat)     -- an offset in protected DRAM
  | error
  deriving DecidableEq, Repr

/-- A 40-bit address decoded (R26): below 4 GiB as Table ARCH-5, but for the DRAM window; protected DRAM at
0x80_0000_0000; an error response elsewhere. -/
def wideDecode (a : Nat) : WideTarget :=
  if a < 0x80000000 then .bus a
  else if 0x8000000000 ≤ a ∧ a < 0xC000000000 then .dram (a - 0x8000000000)
  else .error

/-- The offset in protected DRAM that an address names at a DRAM port, which reaches nothing else: any other address lies
beyond the 256 GiB. -/
def dramOfs (a : Nat) : Nat := match wideDecode a with | .dram o => o | .bus _ | .error => (a + 2 ^ 39) % 2 ^ 40

/-- The power domain of the block at an address (Table GAF-1); none where a block lies in no switched domain. -/
def domainOf (a : Nat) : Option Nat :=
  if a < 0x02000000 then some 1
  else if a < 0x02010000 then some 1
  else if a < 0x02030000 then none
  else if a < 0x02050000 then some 1
  else if a < 0x02200000 then none
  else if a < 0x02230000 then some 2
  else if a < 0x02400000 then none
  else if a < 0x02440000 then some (23 + (a - 0x02400000) / 0x10000)
  else if a < 0x02600000 then none
  else if a < 0x02610000 then some 29
  else if a < 0x10000000 then none
  else if a < 0x20000000 then
    let die := (a - 0x10000000) / 0x8000000
    let o := a % 0x8000000
    if o < 0x200000 then none else if o < 0x220000 then some 27
    else if o < 0x800000 then some (19 + die * 2 + (o - 0x400000) / 0x200000)
    else if o < 0x810000 then some (19 + die * 2 + (o - 0x800000) / 0x8000)
    else none
  else if 0x40000000 ≤ a ∧ a < 0x41000000 then some (19 + (a - 0x40000000) / 0x400000)
  else none

/-- Is the domain powered and out of power isolation: ON or in DRAIN (R381, R382)? A drop that is emulated leaves its
blocks reachable (R364). -/
def Dev.domainUp (d : Dev) (p : Nat) : Bool :=
  SMap.at false d.gaf.emu p || (d.rf (GAF_DOMd_STAT_STATE p) == 2 || d.rf (GAF_DOMd_STAT_STATE p) == 3) && !d.bit (GAF_DOMd_STAT_ISOLATED p)

/-- The clock-enable bit of the block at an address (Table CKC-2): its register and bit. -/
def enableOf (a : Nat) : Option (Nat × Nat) :=
  let hub := fun b => some (CKC_EN_HUB, b)
  if a < 0x02040000 then none
  else if a < 0x02050000 then hub 0 else if a < 0x02060000 then hub 1 else if a < 0x02070000 then hub 2
  else if a < 0x02200000 then none
  else if a < 0x02210000 then hub 3 else if a < 0x02220000 then hub 4 else if a < 0x02230000 then hub 5
  else if a < 0x02300000 then none else if a < 0x02310000 then hub 6
  else if a < 0x02400000 then none else if a < 0x02440000 then hub (7 + (a - 0x02400000) / 0x10000)
  else if a < 0x02500000 then none else if a < 0x02510000 then hub 11
  else if a < 0x02600000 then none else if a < 0x02610000 then hub 12
  else if a < 0x04000000 then none else if a < 0x04800000 then hub 6
  else if a < 0x10000000 then none
  else if a < 0x20000000 then
    let die := (a - 0x10000000) / 0x8000000
    let o := a % 0x8000000
    if o < 0x100000 then none
    else if o < 0x200000 then
      let q := (o - 0x100000) / 0x1000
      some (CKC_EN_LNQd_k die (q / 32), q % 32)
    else if o < 0x210000 then some (CKC_EN_IFd die, (o - 0x200000) / 0x1000)
    else if o < 0x220000 then some (CKC_EN_IFd die, 16 + (o - 0x210000) / 0x1000)
    else if 0x400000 ≤ o ∧ o < 0x800000 then some (CKC_EN_SEd die, (o - 0x400000) / 0x20000)
    else if 0x800000 ≤ o ∧ o < 0x810000 then some (CKC_EN_SEd die, (o - 0x800000) / 0x800)
    else none
  else if 0x40000000 ≤ a ∧ a < 0x41000000 then
    let n := (a - 0x40000000) / 0x40000
    some (CKC_EN_SEd (n / 32), n % 32)
  else if 0x80000000 ≤ a then hub 11
  else none

/-- Is the clock of the block at an address enabled (R376)? -/
def Dev.clocked (d : Dev) (a : Nat) : Bool :=
  match enableOf a with
  | none => true
  | some (r, b) => (d.rd r).toNat.testBit b

/-- The bus address of a register that stands away from its own (log entry 61). -/
def busAddr (a : Nat) : Nat := if 0x02604200 ≤ a ∧ a < 0x02604300 then a - 0x4000 else a

/-- An access to a gated block: error response, GATED, and CKC 0x03 at most once per second per block (R376). -/
def Dev.gatedAccess (d : Dev) (a : Nat) : Dev :=
  let d := (d.on CKC_STAT_GATED).err
  let b' := busAddr a
  match enableOf a with
  | none => d
  | some (r, b) =>
    let k := r * 32 + b
    match SMap.at none d.gaf.gatedLog k with
    | some t => if d.slate < t + ticksPerSec then d else
        let d := { d with gaf := { d.gaf with gatedLog := SMap.set none d.gaf.gatedLog k (some d.slate) } }
        d.log 0x0F 0x03 .warn [blockOf a, b', b' / 2 ^ 8, b' / 2 ^ 16, b' / 2 ^ 24]
    | none =>
        let d := { d with gaf := { d.gaf with gatedLog := SMap.set none d.gaf.gatedLog k (some d.slate) } }
        d.log 0x0F 0x03 .warn [blockOf a, b', b' / 2 ^ 8, b' / 2 ^ 16, b' / 2 ^ 24]

/-- Is engine `n` isolated (R17): itself for a halt item, its group for a power item or by a full load (R305)? -/
def Dev.engineIsolated (d : Dev) (n : Nat) : Bool :=
  SMap.at false d.gaf.isoEngine n || SMap.at false d.gaf.isoDomain (19 + n / 16) || SMap.at false d.cfg.groupHeld (n / 16)

/-- Is the unit an address belongs to isolated (R17): a quad for a lane item, or an engine? -/
def Dev.unitIsolated (d : Dev) (a : Nat) : Bool :=
  if 0x10000000 ≤ a ∧ a < 0x20000000 then
    let die := (a - 0x10000000) / 0x8000000
    let o := a % 0x8000000
    if 0x100000 ≤ o ∧ o < 0x200000 then SMap.at false d.gaf.isoQuad (die * 64 + (o - 0x100000) / 0x1000)
    else if 0x400000 ≤ o ∧ o < 0x800000 then d.engineIsolated (die * 32 + (o - 0x400000) / 0x20000)
    else if 0x800000 ≤ o ∧ o < 0x810000 then d.engineIsolated (die * 32 + (o - 0x800000) / 0x800)
    else false
  else if 0x40000000 ≤ a ∧ a < 0x41000000 then d.engineIsolated ((a - 0x40000000) / 0x40000)
  else false

/-- The key, in `Dev.marks`, of a block that a reset clears. -/
def resetMark (blk : Nat) : Nat := 0x500 + blk

/-- The key, in `Dev.marks`, of a domain that an earlier event of this tick isolated or switched off. -/
def domainMark (p : Nat) : Nat := 0x100 + p

/-- The keys of a quad and of an engine that an earlier event of this tick isolated. -/
def quadMark (q : Nat) : Nat := 0x200 + q
def engineMark (n : Nat) : Nat := 0x300 + n

/-- The key of a Splice region that an earlier event of this tick isolated. -/
def regionMark (r : Nat) : Nat := 0x400 + r

/-- The mark of the unit, a quad or an engine, that an address belongs to. -/
def unitMark (a : Nat) : Option Nat :=
  if 0x10000000 ≤ a ∧ a < 0x20000000 then
    let die := (a - 0x10000000) / 0x8000000
    let o := a % 0x8000000
    if 0x100000 ≤ o ∧ o < 0x200000 then some (quadMark (die * 64 + (o - 0x100000) / 0x1000))
    else if 0x400000 ≤ o ∧ o < 0x800000 then some (engineMark (die * 32 + (o - 0x400000) / 0x20000))
    else if 0x800000 ≤ o ∧ o < 0x810000 then some (engineMark (die * 32 + (o - 0x800000) / 0x800))
    else none
  else if 0x40000000 ≤ a ∧ a < 0x41000000 then some (engineMark ((a - 0x40000000) / 0x40000))
  else none

/-- The class of the event of this tick that put the unit behind an address in reset, isolation or off. -/
def Dev.winner (d : Dev) (a : Nat) : Option Nat :=
  match d.marks.find? (fun m => m.1 == resetMark (blockOf a) || some m.1 == (domainOf a).map domainMark ||
      some m.1 == unitMark a) with
  | some m => some m.2
  | none => none

/-- A class 7 action discarded by precedence: error response and DLY 0x02 (R34). The spec gives a control
write no source number: those two bytes are free. -/
def Dev.discard (d : Dev) (a winning : Nat) : Dev :=
  let (w, d) := d.draw
  (d.log 0x0D 0x02 .warn [blockOf a, 7, w.toNat, w.toNat / 256, winning]).err

/-- Is an access to the user window of the die behind an address under way? A later access to that die completes only
after it (R25). -/
def Dev.dieBusy (d : Dev) (a : Nat) : Bool :=
  if 0x10000000 ≤ a ∧ a < 0x20000000 then (SMap.at none d.hub.userWin ((a - 0x10000000) / 0x8000000)).isSome
  else if 0x40000000 ≤ a ∧ a < 0x41000000 then (SMap.at none d.hub.userWin ((a - 0x40000000) / 0x800000)).isSome
  else false

/-- What keeps an access from reaching the block behind `a`, in the order of R25, R34, R376, R24 and R387. `none`:
the access reaches it. -/
def Dev.barred (d : Dev) (a : Nat) : Option Dev :=
  if d.dieBusy a then some { d with resp := .none } else
  let up := match domainOf a with | some p => d.domainUp p | none => true
  let shut := !up || d.unitIsolated a
  let plain := if shut then some d.err else if !d.clocked a then some (d.gatedAccess a) else none
  match d.winner a with
  | some c => if shut || d.marks.any (fun m => m.1 == resetMark (blockOf a)) then some (d.discard a c) else plain
  | none => plain

/-- An access to a register: error response where no register is listed at the address (R23), the bars of
`barred`, and otherwise what the block does. -/
def Dev.access (d : Dev) (a : Nat) (f : Dev → Dev) : Dev :=
  match rowAt a with
  | none => d.err
  | some _ =>
    match d.barred a with
    | some d' => d'
    | none => f d.ok

/-- The W1C bits of a row. -/
def w1cMask (r : RegRow) : Word :=
  r.fields.foldl (fun m f => match f.acc with | .w1c => m ||| fieldMask f.lo f.w | _ => m) 0

/-- The fields of a register written as their access codes state (R10); a flag that hardware sets on the same tick stays
set (R35). -/
def Dev.plainWrite (d : Dev) (a : Nat) (v : Word) : Dev :=
  match rowAt a with
  | some r => d.wr a (rowWrite r (d.rd a) (v &&& ~~~(d.setNow a &&& w1cMask r)))
  | none => d

/-! ## Commands -/

/-- Does the device run: out of a held reset (R396), with its power good (R404)? -/
def Dev.live (d : Dev) : Bool := !d.gaf.held && d.gaf.good

/-- An effect on the device in every state. -/
def State.apply (s : State) (f : Dev → Dev) : Out := .next { s with dev := f s.dev }

/-- A command's effect on a device that runs; one held in reset or without power does nothing. -/
def State.act (s : State) (f : Dev → Dev) : Out := s.apply (fun d => if d.live then f d else d)

/-- A control-bus access; a device that does not run answers none. -/
def State.busAct (s : State) (f : Dev → Dev) : Out := s.apply (fun d => if d.live then f d else d.err)

/-- The effect of a command of Cuts, Clappers, schedules or the time of day: not defined once the Slate count is
held (R415). -/
def State.timed (s : State) (f : Dev → Dev) : Out :=
  if s.dev.slate = slateMax then .fault .slateHeld else s.act f

/-- A control-bus access of such a command. -/
def State.busTimed (s : State) (f : Dev → Dev) : Out :=
  if s.dev.slate = slateMax then .fault .slateHeld else s.busAct f

/-- A control-bus write of `v` to register `a`, with the behaviour `f` of the register's block. -/
def State.busWrite (s : State) (a : Nat) (f : Dev → Dev) : Out := s.busAct (fun d => d.access a f)

/-- The same for a command that the held count leaves undefined. -/
def State.timedWrite (s : State) (a : Nat) (f : Dev → Dev) : Out := s.busTimed (fun d => d.access a f)

end Sys2Proof.Machine
end

