-- ==== Sys2Proof/Machine/Slots.lean ====
section
/-! DEFINITION. The reference slots of Continuity (03_continuity_timing, R53, R58): their samples, and the loss of one. They
stand apart from the loop because lanes and the mesh lose them. -/
namespace Sys2Proof.Machine
open Reg

def Dev.slot (d : Dev) (n : Nat) : RefSlot := SMap.at RefSlot.idle d.cty.slots n

def Dev.setSlot (d : Dev) (n : Nat) (r : RefSlot) : Dev :=
  { d with cty := { d.cty with slots := SMap.set RefSlot.idle d.cty.slots n r } }

/-- A phase sample completes on tick `t`. -/
def RefSlot.take (r : RefSlot) (t : Nat) (x : Option Int) : RefSlot :=
  { r with sample := x, sampleAt := t, before := if r.sampleAt < t then r.sample else r.before }

/-- The last sample that was complete before tick `t` (R53). -/
def RefSlot.sampleBefore (r : RefSlot) (t : Nat) : Option Int := if r.sampleAt < t then r.sample else r.before

/-- A slot's loss: LOS at once, with CTY 0x03 or 0x04 (R58, R76). Nothing of the slot is sampled until it is back. -/
def Dev.slotLost (d : Dev) (n : Nat) (cause : LossCause) : Dev :=
  if !d.bit (CTY_REFn_CFG_EN n) || d.rf (CTY_REFn_STAT_QSTATE n) == 0 then d else
  let d := ((d.wf (CTY_REFn_STAT_QSTATE n) 0).on (CTY_REFn_STAT_LOS n)).on CTY_STAT_LOS
  let d := d.setSlot n { d.slot n with sample := none, before := none, holdT := false, holdF := false }
  let kind := d.rf (CTY_REFn_CFG_KIND n)
  match cause with
  | .noSignal => d.log 0x02 0x03 .warn [n, kind, 0, 0, 0]
  | .laneLock => d.log 0x02 0x03 .warn [n, kind, 1, 0, 0]
  | .freqLimit =>
    let v := lowBits 24 (d.rfs (CTY_REFn_STAT_FOFS n))
    d.log 0x02 0x04 .warn [n, v, v / 256, v / 65536, 0]

/-- The lane reports loss of lock: every slot that it feeds is lost (Table CTY-6). -/
def Dev.laneSlotsLost (d : Dev) (l : Nat) : Dev :=
  (List.range 8).foldl (fun d n =>
    if d.rf (CTY_REFn_CFG_KIND n) == 3 && d.rf (CTY_REFn_CFG_NUM n) == l then d.slotLost n .laneLock else d) d

end Sys2Proof.Machine
end

