-- ==== Sys2Proof/Machine/Votes.lean ====
section
/-! DEFINITION. The Gaffer's votes: how a domain enters RAMP, DRAIN and ON as its votes change (R380 to R382). -/
namespace Sys2Proof.Machine
open Reg

/-- A domain's STATE codes (GAF_DOMd_STAT). -/
def dOFF : Nat := 0
def dRAMP : Nat := 1
def dON : Nat := 2
def dDRAIN : Nat := 3
def dDOWN : Nat := 4

/-- Ramp count of a domain in Slate ticks (Table GAF-1). -/
def rampTicks (p : Nat) : Nat :=
  if p = 1 then 2048 else if p = 2 then 4096 else if p ≤ 18 then 24576 else if p ≤ 22 then 6144
  else if p ≤ 26 then 2048 else if p = 27 then 8192 else 4096

/-- The fabric die of a fabric domain P3 to P18. -/
def fabricDie (p : Nat) : Option Nat := if 3 ≤ p ∧ p ≤ 10 then some 0 else if 11 ≤ p ∧ p ≤ 18 then some 1 else none

/-- A domain that votes and Cuts may name (R379). -/
def votable (p : Nat) : Bool := 1 ≤ p && p ≤ 29 && p != 28

def Dev.domState (d : Dev) (p : Nat) : Nat := d.rf (GAF_DOMd_STAT_STATE p)

/-- The fabric domains of a die whose ramp has started. -/
def Dev.ramping (d : Dev) (die : Nat) : Nat :=
  ((List.range 16).filter (fun i =>
    fabricDie (3 + i) == some die && d.domState (3 + i) == dRAMP && !d.bit (GAF_DOMd_STAT_QUEUED (3 + i)))).length

/-- Start a domain's ramp: its supply comes on (R381). -/
def Dev.startRamp (d : Dev) (p : Nat) : Dev :=
  let d := d.off (GAF_DOMd_STAT_QUEUED p)
  { d with gaf := { d.gaf with rampStart := SMap.set none d.gaf.rampStart p (some d.slate) } }

/-- An OFF domain enters RAMP, queued where two fabric domains of its die are ramping (R381). -/
def Dev.enterRamp (d : Dev) (p : Nat) : Dev :=
  let full : Bool := match fabricDie p with | some die => decide (2 ≤ d.ramping die) | none => false
  let d := (d.wf (GAF_DOMd_STAT_STATE p) dRAMP).on (GAF_DOMd_STAT_ISOLATED p)
  let d := { d with gaf := { d.gaf with rampEnter := SMap.set 0 d.gaf.rampEnter p d.slate,
                                        rampStart := SMap.set none d.gaf.rampStart p none } }
  if full then d.on (GAF_DOMd_STAT_QUEUED p) else d.startRamp p

/-- Does an armed POWER_ON Cut name the domain? -/
def Dev.onCutNames (d : Dev) (p : Nat) : Bool :=
  d.hub.cuts.any (fun e => e.2.kind == 1 && e.2.target == p && (e.2.state == .armed || e.2.state == .prepared))

/-- The drop condition of Table GAF-1 that the registers show: no load, Splice or store operation for P2; the
channel in SELFREF, OFF or FAILED for a DRAM domain; nothing for the others. -/
def Dev.dropReady (d : Dev) (p : Nat) : Bool :=
  if p = 2 then
    [0, 5, 6].contains (d.rf CFG_STAT_STATE) && [0, 4, 5].contains (d.rf SPL_STAT_STATE) && d.rf NVS_STAT_STATE == 0
  else if 23 ≤ p ∧ p ≤ 26 then
    let s := d.rf (DMC_STAT_STATE (p - 23))
    s == 0 || s == 5 || s == 6
  else true

/-- The domain's votes become `v` (R380 to R382). A domain that is ON and still isolated for a POWER_ON Cut leaves isolation
with its first vote (Table GAF-5). -/
def Dev.setVotes (d : Dev) (p v : Nat) : Dev :=
  if !votable p then d else
  let old := d.rf (GAF_DOMd_STAT_VOTES p)
  let s := d.domState p
  let d := d.wf (GAF_DOMd_STAT_VOTES p) v
  let byVote := fun (d : Dev) => { d with gaf := { d.gaf with byCut := SMap.set false d.gaf.byCut p false } }
  if old = 0 ∧ v ≠ 0 then
    let d := { d with gaf := { d.gaf with blocked := SMap.set false d.gaf.blocked p false } }
    if s = dOFF then (byVote d).enterRamp p
    else if s = dDRAIN then d.wf (GAF_DOMd_STAT_STATE p) dON
    else if s = dON then d.off (GAF_DOMd_STAT_ISOLATED p)
    else { d with gaf := { d.gaf with downNext := d.gaf.downNext.filter (· != p) } }
  else if old ≠ 0 ∧ v = 0 then
    if s = dON then
      let d := (byVote d).wf (GAF_DOMd_STAT_STATE p) dDRAIN
      if d.dropReady p then d else d.on GAF_STAT_DEFER
    else if s = dRAMP ∧ !d.onCutNames p then
      let d := byVote d
      { d with gaf := { d.gaf with downNext := d.gaf.downNext ++ [p] } }
    else d
  else d

/-- P1 powers up anew: its half of the EVC, the core, WDG and MON at their reset values (R417, Table RST-5). -/
def Dev.p1Fresh (d : Dev) : Dev :=
  let d := ((d.resetRange EVC_NMI EVC_NMI).resetRange EVC_VEC_EVT EVC_VEC_TRAP).resetRange EVC_TRAP EVC_TRAP_ADDR
  let d := (d.resetRange WDG_CTL WDG_COUNT).resetRange MON_CFG MON_DATA
  { d with sup := { d.sup with core := Core.reset, uart := Uart.reset, wdgAcc := 0, wdgWarned := false, wdgFrozen := false } }

/-- The emulation of a drop of P1 or P2 while ATTACH is set (R364): with the debugger's vote alone the Gaffer reports the
domain OFF; a further vote ends it, and a wake of P1 restarts the core. -/
def Dev.emulate (d : Dev) (p : Nat) : Dev :=
  if (p ≠ 1 ∧ p ≠ 2) ∨ !d.sup.dbg.attach then d else
  let v := d.rf (GAF_DOMd_STAT_VOTES p)
  let emu := fun (d : Dev) (b : Bool) => { d with gaf := { d.gaf with emu := SMap.set false d.gaf.emu p b } }
  if SMap.at false d.gaf.emu p then
    if v = 2 then d
    else
      let d := emu (d.wf (GAF_DOMd_STAT_STATE p) dON) false
      if p = 1 then
        let d := d.p1Fresh
        { d with sup := { d.sup with boot := { d.sup.boot with phase := 0, full := false } } }
      else d
  else if v = 2 ∧ d.domState p = dON ∧ d.dropReady p then
    let d := emu (d.wf (GAF_DOMd_STAT_STATE p) dOFF) true
    if p = 1 then { d with sup := { d.sup with core := { d.sup.core with emuSleep := true } } } else d
  else d

/-- Client `c` places or withdraws its vote on domain `p` (R380). -/
def Dev.vote (d : Dev) (c p : Nat) (b : Bool) : Dev :=
  let old := d.rf (GAF_DOMd_STAT_VOTES p)
  (d.setVotes p (if b then old ||| 2 ^ c else old &&& (255 - 2 ^ c))).emulate p

/-- Continuity's votes (Table GAF-2): P1 and P27 while an enabled slot has kind 0x2, P29 while one has kind 0x5. -/
def Dev.ctyVotes (d : Dev) : Dev :=
  let has := fun k => (List.range 8).any (fun n => d.bit (CTY_REFn_CFG_EN n) && d.rf (CTY_REFn_CFG_KIND n) == k)
  ((d.vote 2 1 (has 2)).vote 2 27 (has 2)).vote 2 29 (has 5)

end Sys2Proof.Machine
end

