-- ==== Sys2Proof/Machine/Continuity.lean ====
section
/-! DEFINITION. Continuity (03_continuity_timing): the reference slots and selectors, the loop run, holdover, the
oscillator model, time of day, and the timing outputs and inputs. -/
namespace Sys2Proof.Machine
open Reg

/-! ## Accessors -/

/-- CTY_FCW, signed, in 10^-15. -/
def Dev.fcw (d : Dev) : Int := signedOf 48 (d.rd64 CTY_FCW_LO CTY_FCW_HI)

/-- Apply a frequency correction, within its range of ±200 × 10^-6 (R54). -/
def Dev.setFcw (d : Dev) (i : Int) : Dev :=
  d.wr64 CTY_FCW_LO CTY_FCW_HI (lowBits 48 (max (-200000000000) (min 200000000000 i)))

/-- The synthesiser's ratio (R54): the 983.04 MHz time clock over the nominal frequency of its source, LO_IN or the 25 MHz
crystal (R57), corrected by CTY_FCW. -/
def Dev.synthRatio (d : Dev) : Rat :=
  let nom : Nat := if d.cty.loXtal then 25000000 else d.rf CTY_LO_CFG_NOM_HZ
  983040000 / (nom : Rat) * (1 + (d.fcw : Rat) / 10 ^ 15)

def Dev.mapTick (d : Dev) : Nat := d.rd64 CTY_MAP_TICK_LO CTY_MAP_TICK_HI
def Dev.mapSec (d : Dev) : Nat := d.rd64 CTY_MAP_SEC_LO CTY_MAP_SEC_HI

/-- The mapping tick as a signed number: a step can carry MAP_TICK below zero, where its 64 bits wrap (log entry 158). -/
def Dev.mapAt (d : Dev) : Int := if d.slate + 2 ^ 63 < d.mapTick then (d.mapTick : Int) - (2 ^ 64 : Nat) else (d.mapTick : Int)

/-- Ticks since the mapping tick, signed (R61). -/
def Dev.sinceMap (d : Dev) : Int := (d.slate : Int) - d.mapAt

/-- Does the present tick begin a second of time of day (R61)? -/
def Dev.secondEdge (d : Dev) : Bool := d.sinceMap % (ticksPerSec : Int) == 0

/-- Time of day of the present tick edge, in the 96-bit form of Table CTY-12 (R61): the nanoseconds rounded half
up to 1/65,536 ns. -/
def Dev.timeOfDay (d : Dev) : Nat :=
  let sec := ((d.mapSec : Int) + d.sinceMap / (ticksPerSec : Int)) % (2 ^ 48 : Nat)
  let frac := roundHalfUp ((d.sinceMap % (ticksPerSec : Int)) * 3125 * 65536) 768
  (sec.toNat * 2 ^ 48 + frac.toNat) % 2 ^ 96

def Dev.param (d : Dev) (i : Nat) : Int := SMap.at 0 d.cty.params i
def Dev.setParam (d : Dev) (i : Nat) (v : Int) : Dev :=
  { d with cty := { d.cty with params := SMap.set 0 d.cty.params i v } }

/-- Log a time-of-day step and set TOD_STEP (R62). -/
def Dev.todStepped (d : Dev) (ticks : Int) : Dev :=
  let v := lowBits 40 ticks
  (d.on CTY_STAT_TOD_STEP).log 0x02 0x06 .warn [v, v / 2 ^ 8, v / 2 ^ 16, v / 2 ^ 24, v / 2 ^ 32]

/-! ## Reference slots (R51, R58, R59) -/

/-- The source a slot's KIND and NUM name (Table CTY-1): PPS_IN, REF_IN and the mesh are one source each. -/
def sourceOf (kind num : Nat) : Option (Nat × Nat) :=
  if kind = 2 ∨ kind = 3 then some (kind, num)
  else if kind = 1 ∨ kind = 4 ∨ kind = 5 then some (kind, 0) else none

/-- Does an enabled slot other than `n` hold the source? -/
def Dev.sourceHeld (d : Dev) (n : Nat) (src : Option (Nat × Nat)) : Bool :=
  src.isSome && (List.range 8).any (fun m => m != n && d.bit (CTY_REFn_CFG_EN m) &&
    decide (sourceOf (d.rf (CTY_REFn_CFG_KIND m)) (d.rf (CTY_REFn_CFG_NUM m)) = src))

/-- A write of CTY_REFn_CFG (R51): ignored with CTY 0x0F where it would enable a second slot on a source. A slot
newly enabled, or disabled, starts from LOS; one that stays enabled keeps its qualification and its sample, whatever the write
names (log entry 163). -/
def Dev.refCfgWrite (d : Dev) (n : Nat) (v : Word) : Dev :=
  let en := fieldGet 0 1 v == 1
  let kind := fieldGet 4 4 v
  let num := fieldGet 16 9 v
  if en && d.sourceHeld n (sourceOf kind num) then
    d.log 0x02 0x0F .warn [n, kind, num, num / 256, 0]
  else
    let was := d.bit (CTY_REFn_CFG_EN n)
    let d := d.plainWrite (CTY_REFn_CFG n) v
    let d := if en && was then d else (d.wf (CTY_REFn_STAT_QSTATE n) 0).setSlot n RefSlot.idle
    d.ctyVotes

/-- Is the slot eligible for the time selector (role 0 or 1; 3 acts as 0)? -/
def Dev.timeRole (d : Dev) (n : Nat) : Bool := d.bit (CTY_REFn_CFG_EN n) && d.rf (CTY_REFn_CFG_ROLE n) != 2

/-- Is the slot eligible for the frequency selector (role 0 or 2)? -/
def Dev.freqRole (d : Dev) (n : Nat) : Bool := d.bit (CTY_REFn_CFG_EN n) && d.rf (CTY_REFn_CFG_ROLE n) != 1

/-- Does slot `a` come before slot `b`: the lower PRIO, then the lower number (R59)? -/
def Dev.better (d : Dev) (a b : Nat) : Bool :=
  d.rf (CTY_REFn_CFG_PRIO a) < d.rf (CTY_REFn_CFG_PRIO b) ||
    (d.rf (CTY_REFn_CFG_PRIO a) == d.rf (CTY_REFn_CFG_PRIO b) && a < b)

/-- The best of some slots. -/
def Dev.bestOf (d : Dev) (l : List Nat) : Option Nat :=
  l.foldl (fun b n => match b with | none => some n | some m => if d.better n m then some n else some m) none

def Dev.timeSel (d : Dev) : Option Nat :=
  if d.bit CTY_STAT_TIME_VALID then some (d.rf CTY_STAT_TIME_SLOT) else none

/-- What a selector chooses (R59): the best QUALIFIED slot of its role that does not wait to be restored to it (`held`).
Once the selected slot is no longer qualified, waiting slots count too: there is then no wait to restore. -/
def Dev.choose (d : Dev) (role held : Nat → Bool) (cur : Option Nat) : Option Nat :=
  let lost := match cur with | some c => !(role c && d.rf (CTY_REFn_STAT_QSTATE c) == 2) | none => true
  d.bestOf ((List.range 8).filter (fun n =>
    role n && (d.rf (CTY_REFn_STAT_QSTATE n) == 2 && (lost || !held n) || (lost && d.rf (CTY_REFn_STAT_QSTATE n) == 3))))

/-- A selector's switch from one slot to another, logged with its build-out (R60): in ns, rounded down and cut to 16 bits
(log entry 159). -/
def Dev.switched (d : Dev) (role old new : Nat) (buildPs : Int) : Dev :=
  let ns := lowBits 16 (buildPs / 1000)
  (d.on CTY_STAT_REF_SW).log 0x02 0x02 .note [role, old, new, ns, ns / 256]

/-- A switch of the time selector: the measured difference joins what is left of an earlier build-out, so that the loop sees
no step (R60). -/
def Dev.buildOutT (d : Dev) (a b : Nat) (diff : Int) : Dev :=
  let x := d.cty.buildT + diff
  ({ d with cty := { d.cty with buildT := x } }).switched 1 a b x

/-- A switch of the frequency selector: its build-out is kept (R60). -/
def Dev.buildOutF (d : Dev) (a b : Nat) (diff : Int) : Dev :=
  let x := d.cty.buildF + diff
  ({ d with cty := { d.cty with buildF := x } }).switched 2 a b x

/-- A selector takes a slot: it waits no more for that selector. -/
def Dev.slotTaken (d : Dev) (n : Nat) (time freq : Bool) : Dev :=
  let r := d.slot n
  let d := d.setSlot n { r with holdT := r.holdT && !time, holdF := r.holdF && !freq }
  if d.rf (CTY_REFn_STAT_QSTATE n) = 3 then d.wf (CTY_REFn_STAT_QSTATE n) 2 else d

/-- Run both selectors (R59, R60). `diffT`, `diffF`: the phase difference between old and new slot, ps. -/
def Dev.selectors (d : Dev) (diffT diffF : Int) : Dev :=
  let oldT := d.timeSel
  let oldF := d.cty.selF
  let t := d.choose d.timeRole (fun n => (d.slot n).holdT) oldT
  let f := d.choose d.freqRole (fun n => (d.slot n).holdF) oldF
  let d := match oldT, t with
    | some a, some b => if a = b then d else d.buildOutT a b diffT
    | _, _ => d
  let d := match oldF, f with
    | some a, some b => if a = b then d else d.buildOutF a b diffF
    | _, _ => d
  let d := (List.range 8).foldl (fun d n =>
    let d := (d.wb (CTY_REFn_STAT_SEL_T n) (t == some n)).wb (CTY_REFn_STAT_SEL_F n) (f == some n && f != t)
    if t == some n || f == some n then d.slotTaken n (t == some n) (f == some n) else d) d
  let d := (d.wb CTY_STAT_TIME_VALID t.isSome).wf CTY_STAT_TIME_SLOT (t.getD 0)
  let sep := f.isSome && f != t
  let d := (d.wb CTY_STAT_FREQ_VALID sep).wf CTY_STAT_FREQ_SLOT (if sep then f.getD 0 else 0)
  { d with cty := { d.cty with selF := f } }

/-! ## The loop run (R53 to R68) -/

/-- The lag filter and the temperature registers. A failed sensor leaves T′ at its last value (R75). -/
def Dev.lag (d : Dev) (temp : Option Int) : Dev :=
  let ext := d.rf CTY_MDL_CTL_SENSOR == 1
  let d := if ext then d else
    match temp with
    | some _ => { d with cty := { d.cty with tempFail := false } }
    | none => if d.cty.tempFail then d else
        ({ d with cty := { d.cty with tempFail := true } }).log 0x02 0x09 .warn [0, 0, 0, 0, 0]
  if d.cty.tempFail then d else
  let t : Int := if ext then d.cty.extTemp else temp.getD 0
  let tlag := d.rf CTY_MDL_CTL_TLAG
  let scaled := t * 2 ^ 32
  let f := if tlag = 0 then scaled
    else d.cty.tFilt + roundFree d.free (scaled - d.cty.tFilt) (tlag * 1000)
  let d := { d with cty := { d.cty with tFilt := f }, free := d.free + 2 }
  let d := (d.wfs CTY_TEMP_RAW t).wfs CTY_TEMP_FILT (roundFree (d.free - 1) f (2 ^ 32))
  let oor := f < d.param 6 * 2 ^ 32 || d.param 7 * 2 ^ 32 < f
  let was := d.bit CTY_STAT_TEMP_OOR
  let d := d.wb CTY_STAT_TEMP_OOR oor
  let d := if oor && !was then
      let v := d.rf CTY_TEMP_FILT
      d.log 0x02 0x08 .note [v, v / 256, 0, 0, 0]
    else d
  { d with cty := { d.cty with tempHist := (f :: d.cty.tempHist).take 1000 } }

/-- Has LO_IN been good for 60 s since its failure (R57)? -/
def Dev.loSettled (d : Dev) : Bool := match d.cty.loGood with | some t => decide (t + 60 * ticksPerSec ≤ d.slate) | none => false

/-- Is learning suspended and the model unused since an LO failure: until LO_IN has been good for 60 s and software has
cleared LO_FAIL (R57)? -/
def Dev.loBad (d : Dev) : Bool := d.bit CTY_STAT_LO_FAIL || d.cty.loXtal && !d.loSettled

/-- Is the oscillator model applied in holdover and free-run (R57, R66)? -/
def Dev.modelUsable (d : Dev) : Bool := d.bit CTY_STAT_MDL_VALID && !d.loBad

/-- −y(t, T′), rounded half up to 10^-15 (R66 and the model of R63). T′ is held in 2^-40 K. -/
def Dev.prediction (d : Dev) : Int :=
  let dt : Int := (d.slate : Int) - d.param 11
  let u : Int := d.cty.tFilt - d.param 5 * 2 ^ 32
  let day : Int := (ticksPerSec : Int) * 86400
  let num := (d.param 0 * day + d.param 1 * dt) * 2 ^ 120
    + day * (d.param 2 * u * 2 ^ 80 + d.param 3 * u ^ 2 * 2 ^ 40 + d.param 4 * u ^ 3)
  roundHalfUp (-num) (ticksPerSec * 86400 * 2 ^ 120)

/-- The correction goes towards `want`, held to SLEW_MAX ns/s of accumulated phase in any second (R54). -/
def Dev.slewTo (d : Dev) (want : Int) : Dev :=
  let lim : Int := (max 1 (d.rf CTY_CTL_SLEW_MAX)) * 1000000
  let h := d.cty.fcwHist.take 1000
  let hi := h.foldl min d.fcw + lim
  let lo := h.foldl max d.fcw - lim
  d.setFcw (max lo (min hi want))

/-- The loop's correction (R53, R54, R60). -/
def Dev.steer (d : Dev) (phase fofs : Int) : Dev :=
  d.slewTo (Config.loopCorrection (d.rf CTY_CTL_BW) (d.rf CTY_CTL_FBW) d.fcw phase fofs d.cty.buildF)

/-- TE_BOUND, saturating (R67). -/
def Dev.setBound (d : Dev) (ps : Int) : Dev := d.wf CTY_TE_BOUND_BOUND (satU 32 ps.toNat)

/-- A square root rounded to a whole number, up or down as a free bit says. -/
def ratSqrt (n : Nat) (q : Rat) : Nat :=
  let r := Nat.sqrt (q.num.toNat / q.den)
  if (r * r : Nat) = q then r else r + (if Config.freeBit n then 1 else 0)

/-- The standard deviation of some phase errors (R67): the spec gives neither its divisor nor a rounding, nor a value where
the divisor is zero. -/
def stdDev (n : Nat) (l : List Int) : Nat :=
  let k := if Config.sigmaSample then l.length - 1 else l.length
  if k = 0 then (if l.isEmpty then 0 else (Config.freeWord n).toNat)
  else
    let m : Rat := (l.foldl (· + ·) 0 : Int) / (l.length : Rat)
    ratSqrt n (l.foldl (fun (a : Rat) x => a + ((x : Rat) - m) ^ 2) 0 / (k : Rat))

/-- The locked formula: |TE_EST| + 3σ + UNC (R67). -/
def Dev.lockedBound (d : Dev) : Dev :=
  let unc := d.rf (CTY_REFn_UNC_UNC (d.rf CTY_STAT_TIME_SLOT))
  let d' := d.setBound ((d.rfs CTY_TE_EST_TE).natAbs + 3 * stdDev d.free d.cty.errs + unc * 1000 : Nat)
  { d' with free := d.free + 1 }

/-- The holdover formula B(t), in ps (R67). -/
def Dev.holdoverBound (d : Dev) : Dev :=
  let t : Int := (d.slate : Int) - (d.cty.hoStart : Int)
  let freq := d.bit CTY_STAT_FREQ_VALID
  let model := d.modelUsable
  let uf : Int := if freq then (d.rf (CTY_REFn_UNC_UNC (d.rf CTY_STAT_FREQ_SLOT)) : Nat)
    else if model then d.param 8 else 1000
  -- U_T′ in units of 2^-40 × 10^-12
  let out : Int := max 0 (max (d.param 6 * 2 ^ 32 - d.cty.tFilt) (d.cty.tFilt - d.param 7 * 2 ^ 32))
  let ut : Int := if freq || !model then 0
    else d.param 9 * 2 ^ 40 + (if d.cty.tempFail then 10 * 2 ^ 40 else 10 * out)
  let ua : Int := if freq || !model then 0 else d.param 10
  let n : Int := (d.rf CTY_HO_CFG_NOISE : Nat)
  let f : Int := (ticksPerSec : Int)
  let num := ((uf + n) * 2 ^ 40 + ut) * t * f * 172800 + ua * t ^ 2 * 2 ^ 40
  let b := d.cty.b0 + roundFree d.free num (172800 * ticksPerSec ^ 2 * 2 ^ 40)
  ({ d with free := d.free + 1 }).setBound b

/-- The state codes of Table CTY-5. -/
def ctyFREERUN : Nat := 0
def ctyACQUIRING : Nat := 1
def ctyLOCKED : Nat := 2
def ctyHOLDOVER : Nat := 3

/-- Change Continuity's state and log CTY 0x01 (R56). The mean of R66 is that of what correction there is, where fewer than
76 s of it have been recorded; with none the correction is kept (log entry 160). -/
def Dev.ctyGo (d : Dev) (new : Nat) : Dev :=
  let old := d.rf CTY_STAT_STATE
  let d := d.wf CTY_STAT_STATE new
  let d := { d with cty := { d.cty with
    belowSince := none,
    lockedSince := if new = ctyLOCKED then some d.slate else none,
    pendSamples := if new = ctyLOCKED then d.cty.pendSamples else [],
    everLocked := d.cty.everLocked || new == ctyLOCKED } }
  let d := if new = ctyHOLDOVER then
      let d := (d.on CTY_STAT_HO_ENTER).wf CTY_HO_TIME_SECONDS 0
      let h := (d.cty.fcwHist.drop 16000).take 60000
      let m := if h.isEmpty then none else some (roundFree d.free (h.foldl (· + ·) 0) h.length)
      { d with free := d.free + 1,
               cty := { d.cty with hoStart := d.slate, b0 := (d.rf CTY_TE_BOUND_BOUND : Nat), hoMean := m, alarmed := false } }
    else d
  d.log 0x02 0x01 .info [old, new, d.rf CTY_STAT_TIME_SLOT, d.rf CTY_STAT_FREQ_SLOT, 0]

/-- A slot's samples after time of day has moved by `k` ticks: their offsets from it are less by as much. PTP offsets are held
in 1/65,536 ns, the others in ps. -/
def RefSlot.stepped (r : RefSlot) (n : Nat) (ptp : Bool) (k : Int) : RefSlot :=
  let f := fun (x : Int) => if ptp then x - roundFree n (k * 3125 * 65536) 768 else x - roundFree n (k * 3125000) 768
  { r with sample := r.sample.map f, before := r.before.map f, offsets := if ptp then r.offsets.map f else r.offsets }

/-- MAP_TICK moves by `k` ticks, and every slot's samples with it. -/
def Dev.moveMap (d : Dev) (k : Int) : Dev :=
  let d := (List.range 8).foldl (fun d n =>
    d.setSlot n ((d.slot n).stepped d.free (d.rf (CTY_REFn_CFG_KIND n) == 2) k)) d
  ({ d with free := d.free + 1 }).wr64 CTY_MAP_TICK_LO CTY_MAP_TICK_HI (lowBits 64 (d.mapAt + k))

/-- The whole number of ticks nearest an offset, rounded half up (R62). -/
def nearTicks (offsetPs : Int) : Int := roundHalfUp (offsetPs * 768) 3125000

/-- The acquisition tick step (R62): what is left below a tick is for the loop to slew. -/
def Dev.acqStep (d : Dev) (offsetPs : Int) : Dev :=
  let k := nearTicks offsetPs
  let d := { d with cty := { d.cty with mapped := true } }
  if k = 0 then d else (d.moveMap k).todStepped k

/-- The state change of a loop run, after its selection (R56). -/
def Dev.ctyState (d : Dev) (offset : Int) : Dev :=
  let mode := d.rf CTY_CTL_MODE
  let s := d.rf CTY_STAT_STATE
  let sel := d.bit CTY_STAT_TIME_VALID
  let dwell := max 1 (d.rf CTY_LOCK_DWELL)
  if mode = 1 then (if s = ctyFREERUN then d else d.ctyGo ctyFREERUN)
  else if s = ctyFREERUN then
    if sel then
      let d := if d.bit CTY_CTL_STEP_EN then d.acqStep offset else d
      d.ctyGo ctyACQUIRING
    else d
  else if s = ctyHOLDOVER then (if sel ∧ mode ≠ 2 then d.ctyGo ctyACQUIRING else d)
  else if mode = 2 then d.ctyGo ctyHOLDOVER
  else if !sel then d.ctyGo (if d.cty.everLocked then ctyHOLDOVER else ctyFREERUN)
  else if s = ctyACQUIRING then
    match d.cty.belowSince with
    | some t => if t + dwell * ticksPerSec ≤ d.slate then d.ctyGo ctyLOCKED else d
    | none => d
  else d

/-- The mean phase error of the last second, where there is one (R67). -/
def Dev.meanPhase (d : Dev) : Option Int :=
  match d.cty.phases with
  | [] => none
  | l => some (roundFree d.free (l.foldl (fun a p => a + p.2) 0) l.length)

/-- TE_EST, its bound and the lock criterion while ACQUIRING or LOCKED (R56, R67). A run without a phase keeps TE_EST. -/
def Dev.teUpdate (d : Dev) (phase : Option Int) : Dev :=
  let s := d.rf CTY_STAT_STATE
  if s = ctyACQUIRING ∨ s = ctyLOCKED then
    let l := d.cty.phases.filter (fun p => decide (d.slate < p.1 + ticksPerSec))
    let l := match d.bit CTY_STAT_TIME_VALID, phase with | true, some p => (d.slate, p) :: l | _, _ => l
    let d := { d with cty := { d.cty with phases := l } }
    let d := match d.meanPhase with
      | none => d
      | some m =>
        let d := { (d.wfs CTY_TE_EST_TE (satTo 32 m)) with free := d.free + 1 }
        let d := if d.slate % ticksPerSec = 0 then { d with cty := { d.cty with errs := (m :: d.cty.errs).take 64 } } else d
        let small := m.natAbs < d.rf CTY_LOCK_THRESH * 1000
        { d with cty := { d.cty with belowSince := if small then some (d.cty.belowSince.getD d.slate) else none } }
    d.lockedBound
  else d

/-- The frequency correction of the run (R53, R54, R66). -/
def Dev.ctySteer (d : Dev) (phase : Option Int) : Dev :=
  let s := d.rf CTY_STAT_STATE
  let fofs : Int := if d.bit CTY_STAT_FREQ_VALID then d.rfs (CTY_REFn_STAT_FOFS (d.rf CTY_STAT_FREQ_SLOT)) else 0
  let d := if s = ctyFREERUN then d.slewTo (if d.modelUsable then d.prediction else 0)
    else if s = ctyHOLDOVER then
      if d.bit CTY_STAT_FREQ_VALID then d.steer 0 fofs
      else if d.modelUsable then d.slewTo d.prediction
      else match d.cty.hoMean with
        | some m => d.slewTo m
        | none => d
    else match phase with
      | some p => d.steer (p - d.cty.buildT) fofs
      | none => d
  { d with cty := { d.cty with fcwHist := (d.fcw :: d.cty.fcwHist).take 76000 } }

/-- The bound, the holdover time and the holdover alarm of the run (R67, R68). -/
def Dev.ctyBound (d : Dev) : Dev :=
  let s := d.rf CTY_STAT_STATE
  if s = ctyFREERUN then d.wf CTY_TE_BOUND_BOUND 0xFFFFFFFF
  else if s = ctyHOLDOVER then
    let d := d.holdoverBound
    let d := d.wf CTY_HO_TIME_SECONDS (satU 32 ((d.slate - d.cty.hoStart) / ticksPerSec))
    let b := d.rf CTY_TE_BOUND_BOUND
    if d.rf CTY_HO_CFG_ALARM * 1000 < b ∧ !d.cty.alarmed then
      let ns := b / 1000
      (({ d with cty := { d.cty with alarmed := true } }).on CTY_STAT_ALARM).log 0x02 0x07 .error
        [ns, ns / 2 ^ 8, ns / 2 ^ 16, ns / 2 ^ 24, 0]
    else d
  else d

/-- The word sent to the external DAC: MID − (FCW >> SHIFT), clipped to the word width. -/
def Dev.dacWord (d : Dev) : Nat :=
  let w := if d.rf CTY_DAC_CFG_WIDTH = 1 then 18 else if d.rf CTY_DAC_CFG_WIDTH = 2 then 20 else 16
  let v : Int := (d.rf CTY_DAC_CFG_MID : Nat) - d.fcw / (2 ^ (min 47 (d.rf CTY_DAC_CFG_SHIFT)) : Nat)
  min (2 ^ w - 1) v.toNat

/-- The phase sample of the selected time slot completed before this tick (R53), in ps: the last PPS edge or the PTP median
where its kind has one sample a second, otherwise what the phase detectors measured. -/
def Dev.phaseSample (d : Dev) (inp : LoopInput) : Option Int :=
  let n := d.rf CTY_STAT_TIME_SLOT
  let kind := d.rf (CTY_REFn_CFG_KIND n)
  let x := (d.slot n).sampleBefore d.slate
  if kind = 1 ∨ kind = 5 then x
  else if kind = 2 then x.map (fun o => roundFree d.free (o * 1000) 65536)
  else inp.phase

/-- A slot's frequency offset has been measured: CTY_REFn_STAT.FOFS, of an enabled slot, and since when it lies beyond
FREQ_LIM. -/
def Dev.fofsMeasured (d : Dev) (n : Nat) (ppb : Int) : Dev :=
  if n < 8 ∧ d.bit (CTY_REFn_CFG_EN n) then
    let r := d.slot n
    let since := if d.rf (CTY_REFn_QUAL_FREQ_LIM n) < ppb.natAbs then some (r.offSince.getD d.slate) else none
    (d.wfs (CTY_REFn_STAT_FOFS n) (satTo 24 ppb)).setSlot n { r with offSince := since }
  else d

/-- What is left of the time role's build-out after 1 ms at SLEW_MAX (R60). -/
def Dev.buildDrain (d : Dev) : Dev :=
  let step : Int := max 1 (d.rf CTY_CTL_SLEW_MAX)
  let b := d.cty.buildT
  { d with cty := { d.cty with buildT := if b > 0 then max 0 (b - step) else min 0 (b + step) } }

/-- The synthesiser returns to LO_IN once that has been good for 60 s and LO_FAIL is clear (R57). -/
def Dev.loReturn (d : Dev) : Dev :=
  if d.cty.loXtal && !d.loBad then { d with cty := { d.cty with loXtal := false, loGood := none } } else d

/-- Does the present tick take a loop run: a multiple of 245,760 that has had none (R53)? -/
def Dev.runDue (d : Dev) : Bool := d.slate % ticksPerMs == 0 && d.cty.lastRun != some d.slate

/-- The work of a loop run in its order: the frequency offsets, the temperature, the selectors, the phase error and its
bound, the state, the correction, the bound of holdover, the build-out and the DAC. -/
def Dev.loopWork (d : Dev) (inp : LoopInput) : Dev :=
  let d := inp.fofs.foldl (fun d p => d.fofsMeasured p.1 p.2) d
  let d := (d.loReturn.lag inp.temp).selectors inp.diffT inp.diffF
  let phase := d.phaseSample inp
  let d := ({ d with free := d.free + 1 }).teUpdate phase
  let offset := phase.getD inp.offset
  let before := d.mapAt
  let d := d.ctyState offset
  let moved := d.mapAt - before
  let phase := phase.map (fun p => p - roundFree d.free (moved * 3125000) 768)
  let d := (({ d with free := d.free + 1 }).ctySteer phase).ctyBound.buildDrain
  if d.bit CTY_CTL_DAC_EN then d.out (.dac d.dacWord) else d

/-- One loop run (R53). -/
def Dev.loopRun (d : Dev) (inp : LoopInput) : Dev :=
  if d.runDue then ({ d with cty := { d.cty with lastRun := some d.slate } }).loopWork inp else d

/-- LOOP_RUN (R53 to R68). -/
def execLoopRun (inp : LoopInput) (s : State) : Out := s.act (fun d => d.loopRun inp)

/-! ## PTP slots (R52) -/

/-- A write of CTY_PTP_OFS commits one offset to the slot of CTY_PTP_META, or discards it with CTY 0x0B. -/
def Dev.ptpOffset (d : Dev) (v : Word) : Dev :=
  let n := d.rf CTY_PTP_META_SLOT
  if d.rf (CTY_REFn_CFG_KIND n) = 2 then
    let o : Int := v.toInt * 65536 + (d.rf CTY_PTP_META_FRAC : Nat)
    d.setSlot n { d.slot n with offsets := o :: (d.slot n).offsets, heardAt := some d.slate }
  else d.log 0x02 0x0B .note [n, 0, 0, 0, 0]

/-- PTP_OFFSET_WRITE (R52). -/
def execPtpOffsetWrite (_rq : Requester) (v : Word) (s : State) : Out :=
  s.busWrite CTY_PTP_OFS (fun d => d.ptpOffset v)

/-- Insert into a rising list. -/
def insertInt (x : Int) : List Int → List Int
  | [] => [x]
  | y :: l => if x ≤ y then x :: y :: l else y :: insertInt x l

/-- The median, the lower middle value of an even number (R52). -/
def medianLow (l : List Int) : Option Int :=
  let s := l.foldl (fun acc x => insertInt x acc) []
  s[(s.length - 1) / 2]?

/-- PTP_PHASE_SAMPLE (R52): at a second boundary the median of the second's offsets becomes the sample; a second
with none gives none. -/
def execPtpPhaseSample (n : Fin 8) (s : State) : Out :=
  s.act (fun d =>
    if d.secondEdge && d.bit (CTY_REFn_CFG_EN n) && d.rf (CTY_REFn_CFG_KIND n) == 2 then
      let r := d.slot n
      d.setSlot n { r.take d.slate (medianLow r.offsets) with offsets := [] }
    else d)

/-- REF_SLOT_ENABLE (R51). -/
def execRefSlotEnable (_rq : Requester) (n : Fin 8) (v : Word) (s : State) : Out :=
  s.busWrite (CTY_REFn_CFG n) (fun d => d.refCfgWrite n v)

/-! ## Loss and qualification (R57 to R59) -/

/-- LO_FAILURE (R57): the frequency counter has found LO_IN off by `ppm` for `forNs`. More than 1,000 ppm for 1 ms: the
synthesiser takes the crystal, LO_FAIL sets and CTY 0x0A is logged. While the crystal has failed, or has not yet been good,
the check is suspended (R372). After a failure the counter tells since when LO_IN is good again. -/
def execLoFailure (ppm : Int) (forNs : Nat) (s : State) : Out :=
  s.act (fun d =>
    if !d.bit CKC_STAT_XTAL_OK then d
    else if ppm ≤ 1000 ∧ -1000 ≤ ppm then
      if d.cty.loXtal then { d with cty := { d.cty with loGood := some (d.cty.loGood.getD d.slate) } } else d
    else if d.cty.loXtal then { d with cty := { d.cty with loGood := none } }
    else if forNs < 1000000 then d
    else
      let d := { d with cty := { d.cty with loXtal := true, loGood := none } }
      let v := lowBits 16 ppm
      (d.on CTY_STAT_LO_FAIL).log 0x02 0x0A .error [v, v / 256, 0, 0, 0])

/-- The latest second whose window of ±24,576 ticks has closed (Table CTY-6). -/
def Dev.closedSec (d : Dev) : Int := (d.sinceMap - 24577) / (ticksPerSec : Int)

/-- Is more than `t` ticks gone since the slot was last heard? -/
def Dev.silentFor (d : Dev) (n t : Nat) : Bool :=
  match (d.slot n).heardAt with | some x => decide (x + t ≤ d.slate) | none => true

/-- Does the lane of a slot report loss of lock, or in PCS66 mode of block lock, or does its receive direction sleep
(R181, R197)? -/
def Dev.laneDown (d : Dev) (l : Nat) : Bool :=
  d.rf (LNQ_Li_PWR_RX_STATE l) != 2 || !d.bit (LNQ_Li_STAT_CDR_LOCK l) ||
    ((d.rf (LNQ_Li_CFG_MODE l) == 0 || d.rf (LNQ_Li_CFG_MODE l) == 3) && !d.bit (LNQ_Li_STAT_BLK_LOCK l))

/-- Does a loss of Table CTY-6 stand for the slot's kind? What REF_IN's edges do, no state of the device shows. -/
def Dev.lossStands (d : Dev) (n : Nat) (cause : LossCause) : Bool :=
  let kind := d.rf (CTY_REFn_CFG_KIND n)
  match cause with
  | .laneLock => kind == 3 && d.laneDown (d.rf (CTY_REFn_CFG_NUM n))
  | .noSignal =>
    if kind = 1 then
      if d.cty.mapped then (match (d.slot n).lastSec with | some x => decide (x < d.closedSec) | none => true)
      else d.silentFor n 270336000
    else if kind = 2 then d.silentFor n (2 * ticksPerSec)
    else if kind = 5 then !d.bit MSH_TOPO_UP_VALID
    else kind == 4
  | .freqLimit => (match (d.slot n).offSince with | some t => decide (t + ticksPerSec ≤ d.slate) | none => false)

/-- SLOT_LOS (R58, Table CTY-6). -/
def execSlotLos (n : Fin 8) (cause : LossCause) (s : State) : Out :=
  s.act (fun d => if d.lossStands n cause then d.slotLost n cause else d)

/-- Has the slot's loss condition cleared (R58)? REF_IN's signal is the environment's to tell. -/
def Dev.lossCleared (d : Dev) (n : Nat) : Bool :=
  let kind := d.rf (CTY_REFn_CFG_KIND n)
  (d.slot n).offSince.isNone && kind != 0 && decide (kind ≤ 5) && !d.lossStands n .laneLock &&
    (kind == 4 || !d.lossStands n .noSignal)

/-- SLOT_LOSS_CLEAR (R58): a slot in LOS whose loss condition has cleared moves to QUALIFYING. -/
def execSlotLossClear (n : Fin 8) (s : State) : Out :=
  s.act (fun d =>
    if d.bit (CTY_REFn_CFG_EN n) && d.rf (CTY_REFn_STAT_QSTATE n) == 0 && d.lossCleared n then
      (d.wf (CTY_REFn_STAT_QSTATE n) 1).setSlot n { d.slot n with qualSince := d.slate }
    else d)

/-- Is the slot better than the one that the time selector, or the frequency selector, has chosen (R59)? -/
def Dev.betterTime (d : Dev) (n : Nat) : Bool := match d.timeSel with | some t => d.timeRole n && d.better n t | none => false
def Dev.betterFreq (d : Dev) (n : Nat) : Bool := match d.cty.selF with | some f => d.freqRole n && d.better n f | none => false
def Dev.betterThanSelected (d : Dev) (n : Nat) : Bool := d.betterTime n || d.betterFreq n

/-- SLOT_QUALIFIED (R58, R59): after QUAL_TIME seconds without loss the slot is QUALIFIED, or enters WAIT where it
is better than the selected one. -/
def execSlotQualified (n : Fin 8) (s : State) : Out :=
  s.act (fun d =>
    if d.rf (CTY_REFn_STAT_QSTATE n) = 1 ∧
        (d.slot n).qualSince + d.rf (CTY_REFn_QUAL_QUAL_TIME n) * ticksPerSec ≤ d.slate then
      if d.betterThanSelected n then
        (d.wf (CTY_REFn_STAT_QSTATE n) 3).setSlot n { d.slot n with waitSince := d.slate, holdT := d.betterTime n,
                                                                    holdF := d.betterFreq n }
      else d.wf (CTY_REFn_STAT_QSTATE n) 2
    else d)

/-- The slots that have waited WTR seconds in revertive mode (R59). -/
def Dev.restoreDue (d : Dev) : List Nat :=
  (List.range 8).filter (fun n =>
    let r := d.slot n
    d.bit CTY_CTL_REVERTIVE && (d.rf (CTY_REFn_STAT_QSTATE n) == 3 || d.rf (CTY_REFn_STAT_QSTATE n) == 2 && (r.holdT || r.holdF)) &&
    decide (r.waitSince + min 3600 (d.rf CTY_WTR_WTR) * ticksPerSec ≤ d.slate))

/-- The slot waits no more. -/
def Dev.restored (d : Dev) (n : Nat) : Dev :=
  (d.wf (CTY_REFn_STAT_QSTATE n) 2).setSlot n { d.slot n with holdT := false, holdF := false }

/-- WAIT_TO_RESTORE (R59): on the tick of a loop run, in revertive mode, the slots that have waited WTR seconds become
QUALIFIED and the selectors take them. -/
def execWaitToRestore (diffT diffF : Int) (s : State) : Out :=
  s.act (fun d =>
    if d.slate % ticksPerMs ≠ 0 ∨ d.restoreDue.isEmpty then d
    else (d.restoreDue.foldl Dev.restored d).selectors diffT diffF)

/-! ## Time of day (R61, R62) -/

/-- TOD_SET_WRITE (R62): a step of whole seconds, made at the next second boundary; a later write before it takes the place of
an earlier one (log entry 161). -/
def execTodSetWrite (_rq : Requester) (v : Word) (s : State) : Out :=
  s.busWrite CTY_TOD_SET (fun d => if v = 0 then d else { d with cty := { d.cty with todPend := v.toInt } })

/-- TOD_STEP (R62): at a second boundary MAP_SEC moves by the requested step. -/
def execTodStep (s : State) : Out :=
  s.timed (fun d =>
    if d.secondEdge ∧ d.cty.todPend ≠ 0 then
      let k := d.cty.todPend
      let d := d.wr64 CTY_MAP_SEC_LO CTY_MAP_SEC_HI (lowBits 48 ((d.mapSec : Int) + k))
      ({ d with cty := { d.cty with todPend := 0, mapped := true } }).todStepped (k * (ticksPerSec : Int))
    else d)

/-! ## The oscillator model (R63 to R65) -/

/-- The samples that lie in AWIN. -/
def Dev.inAwin (d : Dev) : List ModelSample :=
  d.cty.samples.filter (fun m => d.slate ≤ m.tick + max 24 (min 720 (d.rf CTY_MDL_CTL_AWIN)) * (3600 * ticksPerSec))

/-- MDL_VALID (R65): AWIN holds at least 86,400 samples and the last refit completed, or the model is a restored one. A frozen
model is kept as it is. -/
def Dev.mdlValid (d : Dev) : Dev :=
  if d.bit CTY_MDL_CTL_FREEZE then d
  else d.wb CTY_STAT_MDL_VALID (d.cty.restored || d.cty.refitDone && decide (86400 ≤ d.inAwin.length))

/-- MODEL_SAMPLE (R63): a second that ends in LOCKED yields a sample, which enters the model 16 s later. -/
def execModelSample (s : State) : Out :=
  s.act (fun d =>
    match d.cty.lockedSince with
    | none => d
    | some since =>
      if d.rf CTY_STAT_STATE ≠ ctyLOCKED ∨ d.slate % ticksPerSec ≠ 0 ∨ d.loBad = true
          ∨ d.bit CTY_MDL_CTL_FREEZE then d else
      let ready := d.cty.pendSamples.filter (fun m => m.tick + 16 * ticksPerSec ≤ d.slate)
      let wait := d.cty.pendSamples.filter (fun m => !decide (m.tick + 16 * ticksPerSec ≤ d.slate))
      let h := d.cty.fcwHist.take 1000
      let th := d.cty.tempHist.take 1000
      let new := if since + ticksPerSec ≤ d.slate ∧ !h.isEmpty ∧ !th.isEmpty then
          [{ tick := d.slate, y := roundFree d.free (-(h.foldl (· + ·) 0)) h.length,
             t := roundFree (d.free + 1) (th.foldl (· + ·) 0) th.length : ModelSample }] else []
      ({ d with free := d.free + 2,
                cty := { d.cty with pendSamples := new ++ wait,
                                    samples := (ready ++ d.cty.samples).filter (fun m =>
                                      d.slate ≤ m.tick + 720 * 3600 * ticksPerSec) } }).mdlValid)

/-- A determinant of a 3 × 3 matrix given by rows. -/
def det3 (a b c : Rat × Rat × Rat) : Rat :=
  a.1 * (b.2.1 * c.2.2 - b.2.2 * c.2.1) - a.2.1 * (b.1 * c.2.2 - b.2.2 * c.1) + a.2.2 * (b.1 * c.2.1 - b.2.1 * c.1)

/-- A least-squares line through (x, r): intercept and slope; none where the points do not fix one. -/
def fitLine (l : List (Rat × Rat)) : Option (Rat × Rat) :=
  let n : Rat := l.length
  let sx := l.foldl (fun s p => s + p.1) 0
  let sr := l.foldl (fun s p => s + p.2) 0
  let sxx := l.foldl (fun s p => s + p.1 * p.1) 0
  let sxr := l.foldl (fun s p => s + p.1 * p.2) 0
  let det := n * sxx - sx * sx
  if det = 0 then none else some ((sxx * sr - sx * sxr) / det, (n * sxr - sx * sr) / det)

/-- A least-squares fit of r by c1 d + c2 d² + c3 d³; none where the points do not fix one. -/
def fitCubic (l : List (Rat × Rat)) : Option (Rat × Rat × Rat) :=
  let s := fun (k : Nat) => l.foldl (fun a p => a + p.1 ^ k) 0
  let m := fun (k : Nat) => l.foldl (fun a p => a + p.1 ^ k * p.2) 0
  let r1 := (s 2, s 3, s 4)
  let r2 := (s 3, s 4, s 5)
  let r3 := (s 4, s 5, s 6)
  let det := det3 r1 r2 r3
  if det = 0 then none else
    some (det3 (m 1, r1.2.1, r1.2.2) (m 2, r2.2.1, r2.2.2) (m 3, r3.2.1, r3.2.2) / det,
          det3 (r1.1, m 1, r1.2.2) (r2.1, m 2, r2.2.2) (r3.1, m 3, r3.2.2) / det,
          det3 (r1.1, r1.2.1, m 1) (r2.1, r2.2.1, m 2) (r3.1, r3.2.1, m 3) / det)

/-- A rational rounded to a whole number, up or down as a free bit says. -/
def ratRound (n : Nat) (q : Rat) : Int := roundFree n q.num q.den

/-- The two alternating passes of R64 over aging samples (x in days, y, d) and temperature samples. -/
def refitPass (aging temps : List (Rat × Rat × Rat)) (keepC : Bool) (ac : (Rat × Rat) × (Rat × Rat × Rat)) :
    Option ((Rat × Rat) × (Rat × Rat × Rat)) :=
  let c := ac.2
  match fitLine (aging.map (fun p => (p.1, p.2.1 - (c.1 * p.2.2 + c.2.1 * p.2.2 ^ 2 + c.2.2 * p.2.2 ^ 3)))) with
  | none => none
  | some a =>
    if keepC then some (a, c) else
      match fitCubic (temps.map (fun p => (p.2.2, p.2.1 - (a.1 + a.2 * p.1)))) with
      | none => none
      | some c' => some (a, c')

/-- Three times the square root of `v`, in 10^-12 for `v` in (10^-15)², rounded up or down as a free bit says. -/
def threeRoot (n : Nat) (v : Rat) : Int := ratSqrt n (9 * v / 1000000)

/-- Is a refit made: learning runs, in LOCKED (Table CTY-5), with the model not frozen, and 60 s have gone by? -/
def Dev.refitDue (d : Dev) : Bool :=
  d.rf CTY_STAT_STATE == ctyLOCKED && !d.bit CTY_MDL_CTL_FREEZE && !d.loBad && decide (d.cty.lastRefit + 60 * ticksPerSec ≤ d.slate)

/-- A refit that does not complete. -/
def Dev.refitFailed (d : Dev) : Dev := { d with cty := { d.cty with refitDone := false } }

/-- The samples that lie in TWIN. -/
def Dev.inTwin (d : Dev) : List ModelSample :=
  d.cty.samples.filter (fun m => d.slate ≤ m.tick + max 1 (min 168 (d.rf CTY_MDL_CTL_TWIN)) * (3600 * ticksPerSec))

/-- The least and the greatest temperature of some samples. -/
def coldest (l : List ModelSample) : Int := l.foldl (fun a m => min a m.t) ((l.head?.map (·.t)).getD 0)
def hottest (l : List ModelSample) : Int := l.foldl (fun a m => max a m.t) ((l.head?.map (·.t)).getD 0)

/-- Their mean temperature. -/
def meanTemp (l : List ModelSample) : Rat := (l.foldl (fun a m => a + m.t) 0 : Int) / (l.length : Rat)

/-- A sample as a point of the fits: its age in days, y, and its distance in kelvin from the mean temperature of TWIN. -/
def Dev.fitPoint (d : Dev) (m : ModelSample) : Rat × Rat × Rat :=
  ((((m.tick : Int) - (d.slate : Int) : Int) : Rat) / ((ticksPerSec * 86400 : Nat) : Rat), (m.y : Rat),
    ((m.t : Rat) - meanTemp d.inTwin) / 2 ^ 40)

/-- The coefficients of aging and of temperature that two passes over the samples of AWIN and TWIN give (R64); none where the
samples fix no fit (log entry 12). The temperature's are kept where TWIN spans less than 2 K. -/
def Dev.refitFit (d : Dev) : Option ((Rat × Rat) × (Rat × Rat × Rat)) :=
  if d.inTwin.isEmpty then none else
  let keepC := decide (hottest d.inTwin - coldest d.inTwin < 2 * 2 ^ 40)
  let pass := refitPass (d.inAwin.map d.fitPoint) (d.inTwin.map d.fitPoint) keepC
  (pass ((0, 0), ((d.param 2 : Rat), (d.param 3 : Rat), (d.param 4 : Rat)))).bind pass

/-- A refit that completes stores its coefficients, T0, TMIN and TMAX of TWIN, the uncertainties from the residuals, and its
tick. -/
def Dev.refitStore (d : Dev) (r : (Rat × Rat) × (Rat × Rat × Rat)) : Dev :=
  let pa := d.inAwin.map d.fitPoint
  let pT := d.inTwin.map d.fitPoint
  let a := r.1
  let c := r.2
  let res := fun (p : Rat × Rat × Rat) =>
    p.2.1 - (a.1 + a.2 * p.1) - (c.1 * p.2.2 + c.2.1 * p.2.2 ^ 2 + c.2.2 * p.2.2 ^ 3)
  let n : Rat := pa.length
  let rssA := pa.foldl (fun x p => x + res p ^ 2) 0
  let rssT := pT.foldl (fun x p => x + res p ^ 2) 0
  let sx := pa.foldl (fun x p => x + p.1) 0
  let sxx := pa.foldl (fun x p => x + p.1 * p.1) 0
  let det := n * sxx - sx * sx
  let var := rssA / (n - 2)
  let f := d.free
  let lo := coldest d.inTwin
  let hi := hottest d.inTwin
  let mean := meanTemp d.inTwin
  let d := { d with free := f + 12, cty := { d.cty with refitDone := true } }
  let d := ((d.setParam 0 (ratRound f a.1)).setParam 1 (ratRound (f + 1) a.2)).setParam 5 (ratRound (f + 2) (mean / 2 ^ 32))
  let d := ((d.setParam 2 (ratRound (f + 3) c.1)).setParam 3 (ratRound (f + 4) c.2.1)).setParam 4 (ratRound (f + 5) c.2.2)
  let d := (d.setParam 6 (roundFree (f + 6) lo (2 ^ 32))).setParam 7 (roundFree (f + 7) hi (2 ^ 32))
  let d := ((d.setParam 8 (threeRoot (f + 8) (var * sxx / det))).setParam 9
    (threeRoot (f + 9) (rssT / (pT.length : Rat)))).setParam 10 (threeRoot (f + 10) (var * n / det))
  d.setParam 11 (d.slate : Int)

/-- A refit (R64). -/
def Dev.refit (d : Dev) : Dev :=
  let r := d.refitFit
  let d := ({ d with cty := { d.cty with lastRefit := d.slate, restored := false } }).setParam 12 (d.inAwin.length : Int)
  match r with
  | none => d.refitFailed
  | some r => d.refitStore r

/-- MODEL_REFIT (R64, R65): every 60 s. -/
def execModelRefit (s : State) : Out := s.act (fun d => if d.refitDue then d.refit.mdlValid else d)

/-- A write of CTY_MDL_CTL (R57, R65): CLEAR erases the model and clears LO_FAIL; FREEZE returning to zero after parameter writes
makes a restored model valid. -/
def Dev.mdlCtlWrite (d : Dev) (v : Word) : Dev :=
  let was := d.bit CTY_MDL_CTL_FREEZE
  let d := d.plainWrite CTY_MDL_CTL v
  let now := d.bit CTY_MDL_CTL_FREEZE
  let d := if !was && now then { d with cty := { d.cty with mdlRestored := false, mdlLo := none } } else d
  let d := if was && !now && d.cty.mdlRestored then
      { d with cty := { d.cty with mdlRestored := false, restored := true, everLocked := true } }
    else d
  let d := d.mdlValid
  if fieldGet 31 1 v = 1 then
    let d := { d with cty := { d.cty with params := [], samples := [], pendSamples := [], refitDone := false,
                                          restored := false, mdlRestored := false } }
    ((d.off CTY_STAT_MDL_VALID).off CTY_STAT_LO_FAIL).loReturn.log 0x02 0x0C .note [0, 0, 0, 0, 0]
  else d

/-- MODEL_CLEAR (R57): a write of CTY_MDL_CTL with CLEAR. -/
def execModelClear (_rq : Requester) (v : Word) (s : State) : Out :=
  s.busWrite CTY_MDL_CTL (fun d => d.mdlCtlWrite (v ||| fieldMask 31 1))

/-- MODEL_FREEZE (R65): a write of CTY_MDL_CTL that sets FREEZE. -/
def execModelFreeze (_rq : Requester) (v : Word) (s : State) : Out :=
  s.busWrite CTY_MDL_CTL (fun d => d.mdlCtlWrite (v ||| fieldMask 30 1))

/-- MODEL_UNFREEZE (R65): a write of CTY_MDL_CTL that clears FREEZE. -/
def execModelUnfreeze (_rq : Requester) (v : Word) (s : State) : Out :=
  s.busWrite CTY_MDL_CTL (fun d => d.mdlCtlWrite (v &&& ~~~(fieldMask 30 1)))

/-- A write of CTY_MDL_VAL_LO: it awaits HI, and only with FREEZE set (R65). -/
def Dev.mdlLoWrite (d : Dev) (lo : Word) : Dev :=
  if d.bit CTY_MDL_CTL_FREEZE then { d with cty := { d.cty with mdlLo := some lo } } else d

/-- A write of CTY_MDL_VAL_HI after LO writes the selected parameter (R65); indices 13 to 15 ignore it. -/
def Dev.mdlHiWrite (d : Dev) (hi : Word) : Dev :=
  match d.cty.mdlLo with
  | none => d
  | some lo =>
    if !d.bit CTY_MDL_CTL_FREEZE then d else
    let i := d.rf CTY_MDL_SEL_INDEX
    let d := { d with cty := { d.cty with mdlLo := none } }
    if i ≤ 12 then
      ({ d with cty := { d.cty with mdlRestored := true } }).setParam i (signedOf 64 (hi.toNat * 2 ^ 32 + lo.toNat))
    else d

/-- MODEL_PARAM_WRITE (R65): LO, then HI. -/
def execModelParamWrite (_rq : Requester) (lo hi : Word) (s : State) : Out :=
  s.busAct (fun d => (d.access CTY_MDL_VAL_LO (fun d => d.mdlLoWrite lo)).access CTY_MDL_VAL_HI (fun d => d.mdlHiWrite hi))

/-- EXT_SENSOR_POLL (R76): the controller port reads two bytes at POINTER of the sensor at ADDR (R351); no acknowledge, or a reading outside −60 to +150 °C, is a
failed sensor. -/
def execExtSensorPoll (ans : Option (BitVec 16)) (s : State) : Out :=
  s.act (fun d =>
    if d.rf CTY_MDL_CTL_SENSOR ≠ 1 then d else
    let d := d.out (.sensorPoll (d.rf CTY_TSENS_ADDR) (d.rf CTY_TSENS_POINTER))
    match ans with
    | none => ({ d with cty := { d.cty with tempFail := true } }).log 0x02 0x09 .warn [1, 0, 0, 0, 0]
    | some v =>
      if v.toInt < -60 * 256 ∨ 150 * 256 < v.toInt then
        ({ d with cty := { d.cty with tempFail := true } }).log 0x02 0x09 .warn [1, 1, 0, 0, 0]
      else { d with cty := { d.cty with tempFail := false, extTemp := v.toInt } })

/-! ## Timing outputs (R70, R72) -/

/-- PPS_OUT_EDGE (R70): on a second boundary PPS_OUT rises, shifted by whole time-clock cycles of 390,625/384 ps
and a fine delay in 15 ps steps, rounded half up. -/
def execPpsOutEdge (s : State) : Out :=
  s.timed (fun d =>
    if d.secondEdge && d.bit CTY_PPS_CTL_EN then
      let dly := d.rfs CTY_PPS_DLY_DLY
      let coarse := dly * 384 / 390625
      let fine := roundHalfUp (dly * 384 - coarse * 390625) (15 * 384)
      d.out (.ppsOut coarse fine (max 1 (min 999 (d.rf CTY_PPS_CTL_WIDTH))))
    else d)

/-- What FOUTf carries (R71): nothing where it is not driven, 10 MHz from the fractional divider (FOUT1 with SRC 1), or
the time clock divided by a divisor of at least 4. -/
inductive FreqOut where
  | undriven | tenMHz | divided (n : Nat)
  deriving DecidableEq, Repr

def Dev.freqOut (d : Dev) (f : Fin 2) : FreqOut :=
  if !d.bit (CTY_FOUTf_EN f) then .undriven
  else if f = 1 ∧ d.bit (CTY_FOUTf_SRC f) then .tenMHz
  else .divided (max 4 (d.rf (CTY_FOUTf_DIV f)))

/-- One SYSREF pulse of output `n` (R72). -/
def Dev.sysrefOut (d : Dev) (n : Nat) : Dev :=
  d.out (.sysref n (max 1 (d.rf (CTY_SYSs_CTL_WIDTH n))) (d.rf (CTY_SYSs_DLY_COARSE n)) (min 67 (d.rf (CTY_SYSs_DLY_FINE n))))

/-- SYSREF_PULSE (R72): a pulse on each qualifying tick, in continuous mode or while a burst has pulses left. -/
def execSysrefPulse (n : Fin 8) (s : State) : Out :=
  s.act (fun d =>
    let per := d.rf (CTY_SYSs_PER_PER n)
    let due := per ≠ 0 ∧ ((d.slate : Int) - (d.rf (CTY_SYSs_OFS_OFS n) : Nat)) % (per : Int) = 0
    if !decide due then d
    else if d.rf (CTY_SYSs_CTL_MODE n) = 1 then d.sysrefOut n
    else if d.rf (CTY_SYSs_CTL_MODE n) = 2 then
      match SMap.at none d.cty.bursts n with
      | some b =>
        if b.start ≤ d.slate ∧ 0 < b.left then
          let nb : Option Burst := if b.left = 1 then none else some { b with left := b.left - 1 }
          ({ d with cty := { d.cty with bursts := SMap.set none d.cty.bursts n nb } }).sysrefOut n
        else d
      | none => d
    else d)

/-- A write of CTY_SYSs_CTL (R72): MODE 2 starts a burst at the first qualifying tick at least 4,096 ticks later;
a COUNT of zero produces none. -/
def Dev.sysCtlWrite (d : Dev) (n : Nat) (v : Word) : Dev :=
  let d := d.plainWrite (CTY_SYSs_CTL n) v
  let b : Option Burst := if fieldGet 0 2 v = 2 ∧ fieldGet 8 8 v ≠ 0 then
      some { start := d.slate + 4096, left := fieldGet 8 8 v } else none
  { d with cty := { d.cty with bursts := SMap.set none d.cty.bursts n b } }

/-- SYSREF_GAPPED_START (R72): a write of CTY_SYSs_CTL with MODE = 2. -/
def execSysrefGappedStart (_rq : Requester) (n : Fin 8) (v : Word) (s : State) : Out :=
  s.busWrite (CTY_SYSs_CTL n) (fun d => d.sysCtlWrite n (fieldSet 0 2 2 v))

/-! ## Measuring time error (R74) -/

/-- A write of CTY_TEM_CTL (R74): START takes WINDOW; a WINDOW of zero sets DONE at once with zero results. -/
def Dev.temCtlWrite (d : Dev) (v : Word) : Dev :=
  let d := d.plainWrite CTY_TEM_CTL v
  if fieldGet 30 1 v = 1 then
    let w := d.rf CTY_TEM_WIN_WINDOW
    let d := d.wf CTY_TEM_CTL_USED 0
    if w = 0 then
      let d := { d with cty := { d.cty with tem := none } }
      ((d.wr CTY_TEM_MEAN 0).wr CTY_TEM_MIN 0).wr CTY_TEM_MAX 0 |>.on CTY_TEM_CTL_DONE
    else
      ({ d with cty := { d.cty with tem := some { next := d.slate + ticksPerSec, left := w, used := 0, sum := 0, lo := 0, hi := 0 } } }).off
        CTY_TEM_CTL_DONE
  else d

/-- TEM_START (R74): a write of CTY_TEM_CTL with START. -/
def execTemStart (_rq : Requester) (v : Word) (s : State) : Out :=
  s.busWrite CTY_TEM_CTL (fun d => d.temCtlWrite (v ||| fieldMask 30 1))

/-- The phase of a point (R74) against the second of time of day, in ps; none for a slot in LOS or without a sample. A
frequency-only slot's phase, against the start of the window, is what its detector measured (`phases`); PPS_OUT has the
shift it is driven with; the tick edge, and points 10 to 15, have none. -/
def Dev.temPoint (d : Dev) (phases : List (Fin 8 × Int)) (p : Nat) : Option Int :=
  if p < 8 then
    if !d.bit (CTY_REFn_CFG_EN p) || d.rf (CTY_REFn_STAT_QSTATE p) == 0 then none
    else
      let kind := d.rf (CTY_REFn_CFG_KIND p)
      if d.rf (CTY_REFn_CFG_ROLE p) = 2 ∨ kind = 3 ∨ kind = 4 then (phases.find? (fun x => x.1.val == p)).map (·.2)
      else if kind = 2 then (d.slot p).sample.map (fun o => roundFree d.free (o * 1000) 65536)
      else (d.slot p).sample
  else if p = 9 then
    let dly := d.rfs CTY_PPS_DLY_DLY
    let coarse := dly * 384 / 390625
    some (roundFree d.free (coarse * 390625) 384 + 15 * roundHalfUp (dly * 384 - coarse * 390625) (15 * 384))
  else some 0

/-- A measurement ends: DONE, with the mean, minimum and maximum. With no sample at all the spec states no results: they are
free. -/
def Dev.temEnd (d : Dev) (r : TemRun) : Dev :=
  let d := { d with cty := { d.cty with tem := none } }
  if r.used = 0 then
    let (a, d) := d.draw
    let (b, d) := d.draw
    let (c, d) := d.draw
    (((d.wr CTY_TEM_MEAN a).wr CTY_TEM_MIN b).wr CTY_TEM_MAX c).on CTY_TEM_CTL_DONE
  else
    let m := roundFree d.free r.sum r.used
    let d := { d with free := d.free + 1 }
    (((d.wfs CTY_TEM_MEAN_VALUE (satTo 32 m)).wfs CTY_TEM_MIN_VALUE (satTo 32 r.lo)).wfs CTY_TEM_MAX_VALUE
      (satTo 32 r.hi)).on CTY_TEM_CTL_DONE

/-- A window after one more second, with B − A in ps or no sample. -/
def TemRun.after (r : TemRun) (diff : Option Int) : TemRun :=
  let r := match diff with
    | some x => { r with used := r.used + 1, sum := r.sum + x,
                         lo := if r.used = 0 then x else min r.lo x, hi := if r.used = 0 then x else max r.hi x }
    | none => r
  { r with left := r.left - 1, next := r.next + ticksPerSec }

/-- B − A on the present tick. -/
def Dev.temDiff (d : Dev) (phases : List (Fin 8 × Int)) : Option Int :=
  match d.temPoint phases (d.rf CTY_TEM_CTL_A), d.temPoint phases (d.rf CTY_TEM_CTL_B) with
  | some a, some b => some (b - a)
  | _, _ => none

/-- TEM_SAMPLE (R74): a second of the window has gone by. -/
def execTemSample (phases : List (Fin 8 × Int)) (s : State) : Out :=
  s.act (fun d =>
    match d.cty.tem with
    | none => d
    | some r =>
      if d.slate < r.next then d else
      let r := r.after (d.temDiff phases)
      let d := ({ d with free := d.free + 1 }).wf CTY_TEM_CTL_USED r.used
      if r.left ≠ 0 then { d with cty := { d.cty with tem := some r } } else d.temEnd r)

/-! ## Timing inputs (R76) -/

/-- The second of time of day nearest the present tick, counted from the mapping tick, and the tick's offset from it. -/
def Dev.nearSec (d : Dev) : Int := (d.sinceMap + (ticksPerSec : Int) / 2) / (ticksPerSec : Int)
def Dev.edgeOfs (d : Dev) : Int := d.sinceMap - d.nearSec * (ticksPerSec : Int)

/-- An edge of PPS_IN is rejected (CTY 0x05). -/
def Dev.ppsReject (d : Dev) (n reason : Nat) : Dev :=
  let us := lowBits 16 (d.edgeOfs * 3125 / 768000)
  d.log 0x02 0x05 .note [n, us, us / 256, reason, 0]

/-- PPS_IN_EDGE (R76, Table CTY-6): an edge of the given width, at this tick and `subPs` ps, is a phase sample, or
is rejected with CTY 0x05 as too short (2), as a second edge in one second (0) or as outside ±24,576 ticks (1). The record's
offset in µs is rounded down and cut to 16 bits; before the first mapping no edge is extra or outside (log entry 162). -/
def execPpsInEdge (n : Fin 8) (widthNs : Nat) (subPs : Int) (s : State) : Out :=
  s.act (fun d =>
    if !(d.bit (CTY_REFn_CFG_EN n) && d.rf (CTY_REFn_CFG_KIND n) == 1) then d else
    if widthNs < 100 then d.ppsReject n 2
    else if d.cty.mapped ∧ (d.slot n).lastSec = some d.nearSec then d.ppsReject n 0
    else if d.cty.mapped ∧ (24576 < d.edgeOfs ∨ d.edgeOfs < -24576) then d.ppsReject n 1
    else
      let p := roundFree d.free (d.edgeOfs * 3125000 + subPs * 768) 768
      ({ d with free := d.free + 1 }).setSlot n
        { (d.slot n).take d.slate (some p) with lastSec := some d.nearSec, heardAt := some d.slate })

/-- TOD_RX_BYTE (R76): a byte enters the 256-byte FIFO, or is dropped with FERR or OVR. -/
def execTodRxByte (b : Byte) (framing : Bool) (s : State) : Out :=
  s.act (fun d =>
    if framing then (d.on CTY_TODRX_FERR).log 0x02 0x0D .note [0, 0, 0, 0, 0]
    else if 256 ≤ d.cty.todFifo.length then (d.on CTY_TODRX_OVR).log 0x02 0x0D .note [1, 0, 0, 0, 0]
    else
      let q := d.cty.todFifo ++ [b]
      let d := { d with cty := { d.cty with todFifo := q } }
      (d.on CTY_TODRX_VALID).wf CTY_TODRX_DATA ((q.headD 0).toNat))

/-- A read of CTY_TODRX returns the register and removes the oldest byte of the FIFO. -/
def Dev.todrxRead (d : Dev) : Dev :=
  let d := { d with resp := .data (d.rd CTY_TODRX) }
  let q := d.cty.todFifo.drop 1
  let d := { d with cty := { d.cty with todFifo := q } }
  (d.wb CTY_TODRX_VALID (!q.isEmpty)).wf CTY_TODRX_DATA ((q.headD 0).toNat)

/-- TODRX_READ (R76). -/
def execTodrxRead (_rq : Requester) (s : State) : Out :=
  s.busWrite CTY_TODRX Dev.todrxRead

end Sys2Proof.Machine
end

