-- ==== Sys2Proof/Machine/Crc.lean ====
section
/-! DEFINITION. Cyclic redundancy codes over bytes, and byte strings as numbers (R6). -/
namespace Sys2Proof.Machine

/-- One bit of a reflected CRC of width `w`. -/
def crcBit {w : Nat} (poly r : BitVec w) : BitVec w := if r.getLsbD 0 then (r >>> 1) ^^^ poly else r >>> 1

/-- One byte of a reflected CRC. -/
def crcByte {w : Nat} (poly r : BitVec w) (b : Byte) : BitVec w :=
  (List.range 8).foldl (fun r _ => crcBit poly r) (r ^^^ b.setWidth w)

/-- A reflected CRC with all-ones start and final inversion. -/
def crcReflected {w : Nat} (poly : BitVec w) (l : List Byte) : BitVec w :=
  ~~~(l.foldl (crcByte poly) (BitVec.allOnes w))

/-- The Ethernet FCS (IEEE 802.3 clause 3): CRC-32. -/
def crc32 (l : List Byte) : BitVec 32 := crcReflected (0xEDB88320 : BitVec 32) l

/-- CRC-32C, the Castagnoli polynomial. -/
def crc32c (l : List Byte) : BitVec 32 := crcReflected (0x82F63B78 : BitVec 32) l

/-- One byte of the CRC-64 of R327: polynomial 0x42F0E1EBA9EA3693, the most significant bit first. -/
def crc64Byte (r : BitVec 64) (b : Byte) : BitVec 64 :=
  (List.range 8).foldl (fun r _ => if r.msb then (r <<< 1) ^^^ 0x42F0E1EBA9EA3693 else r <<< 1)
    (r ^^^ (b.setWidth 64 <<< 56))

/-- A frame's signature: start zero, no final inversion (R327). -/
def crc64 (l : List Byte) : BitVec 64 := l.foldl crc64Byte 0

/-- `n` bytes of a number, byte 0 first (R6). -/
def leBytes (n x : Nat) : List Byte := (List.range n).map (fun i => BitVec.ofNat 8 (x / 2 ^ (8 * i)))

/-- `n` bytes of a number, the most significant first. -/
def beBytes (n x : Nat) : List Byte := (leBytes n x).reverse

/-- The number that bytes spell, byte 0 least significant. -/
def leNat (l : List Byte) : Nat := l.foldr (fun b n => n * 256 + b.toNat) 0

/-- The number that bytes spell, the first most significant. -/
def beNat (l : List Byte) : Nat := l.foldl (fun n b => n * 256 + b.toNat) 0

/-- Bytes `ofs` to `ofs + n − 1` of a string; beyond its end, zero. -/
def bytesAt (l : List Byte) (ofs n : Nat) : List Byte := (List.range n).map (fun i => l.getD (ofs + i) 0)

/-- `l` with the bytes at `ofs` replaced. -/
def putBytes (l : List Byte) (ofs : Nat) (x : List Byte) : List Byte := l.take ofs ++ x ++ l.drop (ofs + x.length)

end Sys2Proof.Machine
end

