-- ==== Sys2Proof/Machine/Fabric.lean ====
section
/-! DEFINITION. The logic fabric (04_fabric_logic_and_routing): the tile array, what a cell's registers and memories
do at an edge, least hop counts and bridge latency, the TICK pattern, the probe multiplexers and the capture unit. -/
namespace Sys2Proof.Machine
open Reg

/-! ## The tile array and its regions (R78, R316) -/

/-- The power domain of column `x` of a die (R78). -/
def columnDomain (die x : Nat) : Nat := (if die = 0 then 3 else 11) + x / 15

/-- Does Splice region `r` hold tile (x, y) of the die (R316)? -/
def Dev.regionHolds (d : Dev) (r die x y : Nat) : Bool :=
  d.bit (SPL_REGr_DEF_VALID r) && d.rf (SPL_REGr_DEF_DIE r) == die &&
  decide (d.rf (SPL_REGr_DEF_X0 r) ≤ x) && decide (x ≤ d.rf (SPL_REGr_DEF_X1 r)) &&
  decide (d.rf (SPL_REGr_DEF_Y0 r) ≤ y) && decide (y ≤ d.rf (SPL_REGr_DEF_Y1 r))

/-- The Splice region that holds a tile, if a defined region does. -/
def Dev.regionOf (d : Dev) (die x y : Nat) : Option Nat :=
  (List.range 64).find? (fun r => d.regionHolds r die x y)

/-- Why a tile's outputs read zero (R17, R86): reason 0 its power region is off, with that region's number; reason 1
its Splice region is isolated, with that region's number. `none`: the tile is live. -/
def Dev.tileDead (d : Dev) (die x y : Nat) : Option (Nat × Nat) :=
  if !d.domainUp (columnDomain die x) then some (x / 15, 0)
  else if SMap.at false d.gaf.isoDomain (columnDomain die x) then some (x / 15, 1)
  else match d.regionOf die x y with
    | some r => if d.bit (SPL_REGr_STAT_ISOLATED r) then some (r, 1) else none
    | none => some (x / 15, 1)

/-! ## Cells (R79 to R83): the rules of one edge -/

/-- A flip-flop at a rising edge (R80): the reset wins over the enable; otherwise D is taken or the value held. -/
def flipFlop (resetSel resetVal enable dIn q : Bool) : Bool :=
  if resetSel then resetVal else if enable then dIn else q

/-- A SHIFT cell at an edge (R81): bit 0 takes DX and bit k takes bit k − 1 with the enable high. -/
def shiftCell (enable dx : Bool) (c : BitVec 64) : BitVec 64 :=
  if enable then (c <<< 1) ||| (BitVec.ofBool dx).setWidth 64 else c

/-- A RAM cell at an edge (R82): DX is written at the address with the enable high. -/
def ramCell (enable dx : Bool) (addr : BitVec 6) (c : BitVec 64) : BitVec 64 :=
  if enable then
    (c &&& ~~~((1 : BitVec 64) <<< addr.toNat)) ||| ((BitVec.ofBool dx).setWidth 64 <<< addr.toNat)
  else c

/-- The bit a LUT6, SHIFT or RAM cell's LA shows: the addressed bit of its 64 (R79, R81, R82). -/
def cellBit (c : BitVec 64) (addr : BitVec 6) : Bool := c.getLsbD addr.toNat

/-- An ARITH cell (Table FAB-2): sum bit and carry out of I0, I1 and the carry, with I2 the subtract control. -/
def arithCell (i0 i1 sub cin : Bool) : Bool × Bool :=
  let b := i1 ^^ sub
  (i0 ^^ b ^^ cin, (i0 && b) || (cin && (i0 ^^ b)))

/-! ## Latency (R19, R89, R93) -/

/-- h₀(r) of Table FAB-4. -/
def hop0 (r : Nat) : Nat := [0, 1, 2, 2, 1, 2, 3, 3, 2, 3, 4, 3, 2, 3, 3, 2, 1].getD r 0

/-- Least express hops along one axis (R89). -/
def hops (dist : Nat) : Nat :=
  let q := dist / 16
  let r := dist % 16
  min (q + hop0 r) (q + 1 + hop0 (16 - r))

/-- The positions, as bits, that one express link along an axis of `n` tiles reaches from those of `m`, `m` among them. -/
def linkReach (n m : Nat) : Nat :=
  (m ||| m <<< 1 ||| m <<< 4 ||| m <<< 16 ||| m >>> 1 ||| m >>> 4 ||| m >>> 16) % 2 ^ n

/-- The least number of links along an axis of `n` tiles from one of `m` to position `b`, of at most `k`. -/
def axisHops (n b : Nat) : Nat → Nat → Nat
  | 0, _ => 0
  | k + 1, m => if m.testBit b then 0 else 1 + axisHops n b k (linkReach n m)

/-- Least express hops between two tiles of the array, over the sequences of links that exist (R89): no link turns a corner,
so the two axes count apart. -/
def leastHops (x0 y0 x1 y1 : Nat) : Nat := axisHops 120 x1 120 (2 ^ x0) + axisHops 60 y1 60 (2 ^ y0)

/-- Fabric cycles of one bridge crossing on a synthesiser of P cycles in Q ticks: ⌈6 ns ÷ period⌉ + 1 (R19). -/
def bridgeCycles (p q : Nat) : Nat := (6 * 768 * p + 3125 * q - 1) / (3125 * q) + 1

/-- Die to die through the hub: two crossings and one hub register (R19). -/
def dieToDieCycles (p q : Nat) : Nat := 2 * bridgeCycles p q + 1

/-- The first edge, counted from a tick count that is a multiple of Q, at or after tick `k` (R93). -/
def tickEdge (p q k : Nat) : Nat := (k * p + q - 1) / q

/-- Cycles of the fabric clock from the TICK cycle of tick `c` to that of tick `c + 1` (R93). -/
def tickCycles (p q c : Nat) : Nat := let k := c % q; tickEdge p q (k + 1) - tickEdge p q k

/-! ## Probes and capture (R94 to R101) -/

def Dev.capOf (d : Dev) (die : Nat) : Capture := SMap.at Capture.idle d.fab.cap die

def Dev.setCap (d : Dev) (die : Nat) (c : Capture) : Dev :=
  { d with fab := { d.fab with cap := SMap.set Capture.idle d.fab.cap die c } }

/-- Is the die's capture unit ARMED or TRIGGERED? -/
def Dev.capActive (d : Dev) (die : Nat) : Bool :=
  d.rf (FAB_CAP_STAT_STATE die) == 1 || d.rf (FAB_CAP_STAT_STATE die) == 2

/-- A write of FAB_PRB_SELn (R94): refused with FAB 0x06 for a tile out of range (0) or while a capture is active (1); where
both hold, the cause is 0 (log entry 165). -/
def Dev.probeSelect (d : Dev) (die n : Nat) (v : Word) : Dev :=
  if 7199 < fieldGet 0 13 v then d.log 0x1A 0x06 .warn [die, n, 0, 0, 0]
  else if d.capActive die then d.log 0x1A 0x06 .warn [die, n, 1, 0, 0]
  else d.plainWrite (FAB_PRB_SELn die n) v

/-- A write of FAB_CAP_MASK while a capture is active is refused with FAB 0x06 (R94); the record's probe number is
free, since a mask names no one probe. -/
def Dev.capMaskWrite (d : Dev) (die a : Nat) (v : Word) : Dev :=
  if d.capActive die then
    let (w, d) := d.draw
    d.log 0x1A 0x06 .warn [die, w.toNat, 1, 0, 0]
  else d.plainWrite a v

/-- A write of FAB_CAP_VAL is plain; of FAB_CAP_AT ignored while a capture is active. -/
def Dev.capAtWrite (d : Dev) (die a : Nat) (v : Word) : Dev :=
  if d.capActive die then d else d.plainWrite a v

/-- PROBE_SELECT_WRITE (R94). -/
def execProbeSelectWrite (_rq : Requester) (die : Fin 2) (n : Fin 64) (v : Word) (s : State) : Out :=
  s.busWrite (FAB_PRB_SELn die n) (fun d => d.probeSelect die n v)

/-- The region and reason for which probe `n` samples zero, where its cell's region is isolated or off (R94). -/
def Dev.probeDead (d : Dev) (die n : Nat) : Option (Nat × Nat) :=
  let t := d.rf (FAB_PRB_SELn_TILE die n)
  d.tileDead die (t % 120) (t / 120)

/-- While a capture is active, each enabled probe on an isolated or switched-off cell sets INVALID and logs FAB 0x09, once per
probe and capture (R94, Table FAB-10). -/
def Dev.capWatch (d : Dev) (die : Nat) : Dev :=
  if !d.capActive die then d else
  (List.range 64).foldl (fun d n =>
    if !d.bit (FAB_PRB_SELn_EN die n) || (d.capOf die).seen.contains n then d
    else match d.probeDead die n with
      | none => d
      | some (region, reason) =>
        ((d.setCap die { d.capOf die with seen := n :: (d.capOf die).seen }).on (FAB_CAP_STAT_INVALID die)).log 0x1A 0x09 .note
          [die, n, region, reason, 0]) d

def Dev.capWatches (d : Dev) : Dev := (d.capWatch 0).capWatch 1

/-- The capture ends without completion: ABORTED, with its status and FAB 0x08 (R97, R98, Table FAB-10). -/
def Dev.capEnd (d : Dev) (die status cause : Nat) : Dev :=
  (((d.wf (FAB_CAP_STAT_STATE die) 4).wf (FAB_CAP_STAT_STATUS die) status).on (FAB_CAP_STAT_ENDED die)).log 0x1A 0x08
    .warn [die, status, cause, 0, 0]

/-- The trigger sample has been stored: TRIGGERED, with its tick and phase (R97, R98). -/
def Dev.capTriggered (d : Dev) (die phase : Nat) : Dev :=
  let d := d.wf (FAB_CAP_STAT_STATE die) 2
  let d := (d.wr64 (FAB_CAP_TRIG_TICK_LO die) (FAB_CAP_TRIG_TICK_HI die) d.slate).wf (FAB_CAP_CNT_PHASE die) phase
  d.setCap die { d.capOf die with left := d.rf (FAB_CAP_CTL_POST die) }

/-- After the POST samples the unit enters DONE and logs FAB 0x07 (R97). -/
def Dev.capDone (d : Dev) (die : Nat) : Dev :=
  let n := d.rf (FAB_CAP_CNT_COUNT die)
  (((d.wf (FAB_CAP_STAT_STATE die) 3).wf (FAB_CAP_STAT_STATUS die) stDONE).on (FAB_CAP_STAT_DONE die)).log 0x1A 0x07
    .info [die, d.rf (FAB_CAP_CTL_TRIG_SRC die), n, n / 256, 0]

/-- One capture-clock cycle, number `phase` of the tick, with its sample (R97): the sample enters the ring of 16,384, and is the
trigger sample of an ARMED capture if a trigger falls on it. `fabric`: CAP_TRIG is high. -/
def Dev.capSample (d : Dev) (die phase : Nat) (fabric : Bool) (x : BitVec 64) : Dev :=
  if !d.capActive die then d else
  let c := d.capOf die
  let d := d.setCap die { c with buf := (x :: c.buf).take 16384 }
  let d := d.wf (FAB_CAP_CNT_COUNT die) (min 16384 (c.buf.length + 1))
  let src := d.rf (FAB_CAP_CTL_TRIG_SRC die)
  let mask := BitVec.ofNat 64 (d.rd64 (FAB_CAP_MASK_LO die) (FAB_CAP_MASK_HI die))
  let val := BitVec.ofNat 64 (d.rd64 (FAB_CAP_VAL_LO die) (FAB_CAP_VAL_HI die))
  let hit := c.sw || (src == 1 && (x &&& mask) == (val &&& mask)) ||
    (src == 2 && phase == 0 && d.rd64 (FAB_CAP_AT_LO die) (FAB_CAP_AT_HI die) == d.slate) || (src == 3 && fabric)
  let d := if d.rf (FAB_CAP_STAT_STATE die) = 1 ∧ hit then d.capTriggered die phase else d
  if d.rf (FAB_CAP_STAT_STATE die) = 2 then
    let c := d.capOf die
    let d := d.setCap die { c with left := c.left - 1, sw := false }
    if c.left ≤ 1 then d.capDone die else d
  else d

/-- ARM in IDLE, DONE or ABORTED (R95, R97, R98). `onClock`: every enabled probe's cell is on the capture clock. Where several
checks fail, POST is looked at before the clock and the clock before the tick; a capture of POST zero logs no FAB 0x07, and an
ending with LENGTH logs no FAB 0x08 and keeps the earlier samples and COUNT (log entries 166 and 167). -/
def Dev.capArm (d : Dev) (die : Nat) (onClock : Bool) : Dev :=
  if d.capActive die then d else
  let post := d.rf (FAB_CAP_CTL_POST die)
  if post = 0 then
    (((d.wf (FAB_CAP_STAT_STATE die) 3).wf (FAB_CAP_STAT_STATUS die) stDONE).on (FAB_CAP_STAT_DONE die)).wf
      (FAB_CAP_CNT_COUNT die) 0 |>.setCap die Capture.idle
  else if 16384 < post then
    ((d.wf (FAB_CAP_STAT_STATE die) 4).wf (FAB_CAP_STAT_STATUS die) stLENGTH).on (FAB_CAP_STAT_ENDED die)
  else if !onClock then d.capEnd die 9 3
  else if d.rf (FAB_CAP_CTL_TRIG_SRC die) = 2 ∧ d.rd64 (FAB_CAP_AT_LO die) (FAB_CAP_AT_HI die) ≤ d.slate then
    d.capEnd die 8 2
  else
    ((d.wf (FAB_CAP_STAT_STATE die) 1).wf (FAB_CAP_CNT_COUNT die) 0).setCap die Capture.idle |>.capWatch die

/-- The buffer window (R99): sample j, oldest first, low or high word; zero beyond COUNT; none while a capture is
active. -/
def Dev.capWindow (d : Dev) (die ofs : Nat) : Option Word :=
  if d.capActive die then none else
  let n := d.rf (FAB_CAP_CNT_COUNT die)
  let j := ofs / 8
  if n ≤ j then some 0 else
  let x := (d.capOf die).buf.getD (n - 1 - j) 0
  some (if ofs % 8 = 0 then x.extractLsb' 0 32 else x.extractLsb' 32 32)

/-- The capture of a die ends because its clock stopped or a Slate step passed its tick (Table FAB-10). -/
def Dev.capClockStops (d : Dev) (synth : Nat) : Dev :=
  [0, 1].foldl (fun d die =>
    if d.capActive die ∧ d.rf (FAB_CAP_CTL_CLK die) = synth then d.capEnd die stTIMEOUT 4 else d) d

def Dev.capStepped (d : Dev) : Dev :=
  [0, 1].foldl (fun d die =>
    if d.rf (FAB_CAP_STAT_STATE die) = 1 ∧ d.rf (FAB_CAP_CTL_TRIG_SRC die) = 2
        ∧ d.rd64 (FAB_CAP_AT_LO die) (FAB_CAP_AT_HI die) < d.slate then d.capEnd die stABORT 1 else d) d

/-- What the die's PROBE pins drive in a capture-clock cycle: an enabled pin, the value that the probe it names had 12 cycles
before; a disabled one, low (R96). -/
def Dev.probePins (d : Dev) (die : Nat) (history : List (BitVec 64)) : BitVec 16 :=
  (List.range 16).foldl (fun x p =>
    if d.bit (FAB_PRB_PINp_EN die p) && (history.getD 12 0).getLsbD (d.rf (FAB_PRB_PINp_PROBE die p)) then x ||| ((1 : BitVec 16) <<< p)
    else x) 0

end Sys2Proof.Machine
end

