-- ==== Sys2Proof/Machine/Lanes.lean ====
section
/-! DEFINITION. The serial lanes (08_serial_lanes): PLLs, power states, adaptation, the 64b/66b sublayer, loopbacks
and patterns. -/
namespace Sys2Proof.Machine
open Reg

def Dev.lane (d : Dev) (l : Nat) : Lane := SMap.at Lane.idle d.lanes l
def Dev.setLane (d : Dev) (l : Nat) (x : Lane) : Dev := { d with lanes := SMap.set Lane.idle d.lanes l x }
def Dev.modLane (d : Dev) (l : Nat) (f : Lane → Lane) : Dev := d.setLane l (f (d.lane l))

/-- A lane's quad (R177). -/
def quadOf (l : Nat) : Nat := l / 4

/-- Direction state codes (LNQ_Li_PWR). -/
def lOFF : Nat := 0
def lWAKING : Nat := 1
def lON : Nat := 2
def lLIGHT : Nat := 3
def lDEEP : Nat := 4
def lENTERING : Nat := 5

/-- The state a request code names. -/
def reqState (r : Nat) : Nat := if r = 0 then lOFF else if r = 1 then lON else if r = 2 then lLIGHT else lDEEP

def Dev.txState (d : Dev) (l : Nat) : Nat := d.rf (LNQ_Li_PWR_TX_STATE l)
def Dev.rxState (d : Dev) (l : Nat) : Nat := d.rf (LNQ_Li_PWR_RX_STATE l)

/-- Log a record of the LNQ block about a lane. -/
def Dev.laneLog (d : Dev) (l code : Nat) (sev : Sev) (det : List Nat) : Dev := d.log 0x15 code sev (l :: l / 256 :: det)

/-- A refused write (LNQ 0x0A): quad, lane in quad or 0xFF, and the register's offset from its base. -/
def Dev.lnqRefused (d : Dev) (q lane ofs : Nat) : Dev := d.log 0x15 0x0A .warn [q, lane, ofs, ofs / 256, 0]

/-- The owner, 5 to 7 acting as 0; the mode, 3 acting as 0. -/
def Dev.laneOwner (d : Dev) (l : Nat) : Nat := let o := d.rf (LNQ_Li_CFG_OWNER l); if 4 < o then 0 else o
def Dev.laneMode (d : Dev) (l : Nat) : Nat := let m := d.rf (LNQ_Li_CFG_MODE l); if m = 3 then 0 else m

/-- Rate of a direction in kb/s × 16: the PLL's RATE divided by 2^DIV (R179). -/
def Dev.laneRate16 (d : Dev) (l : Nat) (rx : Bool) : Nat :=
  let pll := if rx then d.rf (LNQ_Li_CFG_RX_PLL l) else d.rf (LNQ_Li_CFG_TX_PLL l)
  let div := min 4 (if rx then d.rf (LNQ_Li_CFG_RX_DIV l) else d.rf (LNQ_Li_CFG_TX_DIV l))
  d.rf (LNQ_PLLp_RATE_RATE (quadOf l) pll) * 2 ^ (4 - div)

def Dev.txPllLock (d : Dev) (l : Nat) : Bool := d.bit (LNQ_PLLp_STAT_LOCK (quadOf l) (d.rf (LNQ_Li_CFG_TX_PLL l)))
def Dev.rxPllLock (d : Dev) (l : Nat) : Bool := d.bit (LNQ_PLLp_STAT_LOCK (quadOf l) (d.rf (LNQ_Li_CFG_RX_PLL l)))

/-- Is the lane's quad out of isolation and clocked (R15, R376)? -/
def Dev.quadLive (d : Dev) (l : Nat) : Bool :=
  !(SMap.at false d.gaf.isoQuad (quadOf l)) && d.clocked (LNQ_Li_CFG l)

/-- Block lock, as the owner of the lane sees it: an isolated quad drives it low (R17). -/
def Dev.blkLock (d : Dev) (l : Nat) : Bool := d.bit (LNQ_Li_STAT_BLK_LOCK l) && !(SMap.at false d.gaf.isoQuad (quadOf l))

/-- Does user logic reach the lane: is the region of its fabric hard site live, or has the lane another owner
(R17, R197)? -/
def Dev.siteLive (d : Dev) (l : Nat) : Bool :=
  d.laneOwner l != 1 || (d.tileDead (l / 256) (Config.laneHost l).1 (Config.laneHost l).2).isNone

/-! ## PLLs (R179, R180, R182) -/

/-- Does a direction of the lane take its rate from PLL `p`? -/
def Dev.txUses (d : Dev) (l p : Nat) : Bool := d.rf (LNQ_Li_CFG_TX_PLL l) == p
def Dev.rxUses (d : Dev) (l p : Nat) : Bool := d.rf (LNQ_Li_CFG_RX_PLL l) == p

def quadLanes (q : Nat) : List Nat := [4 * q, 4 * q + 1, 4 * q + 2, 4 * q + 3]

/-- Is a direction that uses the PLL not OFF (R180)? -/
def Dev.pllInUse (d : Dev) (q p : Nat) : Bool :=
  (quadLanes q).any (fun l => (d.txUses l p && d.txState l != lOFF) || (d.rxUses l p && d.rxState l != lOFF))

/-- A write of LNQ_PLLp_CFG. -/
def Dev.pllCfgWrite (d : Dev) (q p : Nat) (v : Word) : Dev :=
  if v.getLsbD 0 then d.plainWrite (LNQ_PLLp_CFG q p) v
  else if d.pllInUse q p then d.lnqRefused q 0xFF (0x10 + p * 0x10)
  else (d.plainWrite (LNQ_PLLp_CFG q p) v).off (LNQ_PLLp_STAT_LOCK q p)

/-- A write of LNQ_PLLp_RATE: refused while EN, or outside the range of R179. -/
def Dev.pllRateWrite (d : Dev) (q p : Nat) (v : Word) : Dev :=
  let r := fieldGet 0 26 v
  if d.bit (LNQ_PLLp_CFG_EN q p) || decide (r < 16000000) || decide (32750000 < r) then
    d.lnqRefused q 0xFF (0x14 + p * 0x10)
  else d.plainWrite (LNQ_PLLp_RATE q p) v

def execPllRateWrite (_rq : Requester) (q : Fin 128) (p : Fin 2) (v : Word) (s : State) : Out :=
  s.busWrite (LNQ_PLLp_RATE q p) (fun d => d.pllRateWrite q p v)

def execPllEnable (_rq : Requester) (q : Fin 128) (p : Fin 2) (v : Word) (s : State) : Out :=
  s.busWrite (LNQ_PLLp_CFG q p) (fun d => d.pllCfgWrite q p (v ||| 1))

def execPllDisable (_rq : Requester) (q : Fin 128) (p : Fin 2) (v : Word) (s : State) : Out :=
  s.busWrite (LNQ_PLLp_CFG q p) (fun d => d.pllCfgWrite q p (v &&& ~~~(1 : Word)))

/-- Exit time of a transmit wake, exact (Table LNQ-4). -/
def txExit (from_ : Nat) : Nat := if from_ = lLIGHT then 25 else 2458

/-- A PLL locks: transmit wakes that waited for it start to count. -/
def execPllLock (q : Fin 128) (p : Fin 2) (s : State) : Out :=
  s.act (fun d =>
    if !d.bit (LNQ_PLLp_CFG_EN q p) then d else
    let d := d.on (LNQ_PLLp_STAT_LOCK q p)
    (quadLanes q).foldl (fun d l =>
      let x := d.lane l
      if d.txUses l p && d.txState l == lWAKING && x.txDue.isNone then
        d.setLane l { x with txDue := some (d.slate + txExit x.txFrom) }
      else d) d)

/-- A direction that leaves ACQUIRE before its end keeps the best code found so far (R187). -/
def Dev.keepBest (d : Dev) (l : Nat) : Dev :=
  match (d.lane l).acqBest with
  | some (_, c) => if d.rf (LNQ_Li_STAT_PHASE l) = 1 then d.wf (LNQ_Li_EYE_CTLE l) c else d
  | none => d

/-- A receive direction holds no lock: block lock is sought anew, blocks that the owner has not read are gone, and a
slot of Continuity that the lane feeds is lost (R181, R197). -/
def Dev.rxUnlock (d : Dev) (l : Nat) : Dev :=
  let d := if d.bit (LNQ_Li_STAT_CDR_LOCK l) then d.laneSlotsLost l else d
  let d := d.keepBest l
  (((d.modLane l (fun x => { x with hdrGood := 0, hdrBad := [], eb := [], trialDue := false })).off (LNQ_Li_STAT_CDR_LOCK l)).off (LNQ_Li_STAT_BLK_LOCK l)).off (LNQ_Li_STAT_PHASE l)

/-- A PLL loses lock (R182). Receive directions reacquire as after LIGHT sleep. -/
def execPllUnlock (q : Fin 128) (p : Fin 2) (s : State) : Out :=
  s.act (fun d =>
    if !d.bit (LNQ_PLLp_STAT_LOCK q p) then d else
    let d := (d.off (LNQ_PLLp_STAT_LOCK q p)).on (LNQ_PLLp_STAT_UNLOCK q p)
    let mask := ([0, 1, 2, 3].map (fun i => if d.txUses (4 * q + i) p || d.rxUses (4 * q + i) p then 2 ^ i else 0)).sum
    let d := (quadLanes q).foldl (fun d l =>
      let d := if d.txUses l p && d.txState l == lON then d.out (.laneIdle l) else d
      if d.rxUses l p && d.bit (LNQ_Li_STAT_CDR_LOCK l) then (d.rxUnlock l).on (LNQ_Li_STAT_CDR_LOSS l) else d) d
    d.log 0x15 0x07 .error [q, p, mask, 0, 0])

/-! ## Power states (R193, R187) -/

/-- A direction of the lane has reached a state: SLEEP_DONE or WAKE_DONE, and LNQ 0x06. -/
def Dev.dirDone (d : Dev) (l : Nat) (rx : Bool) (st : Nat) : Dev :=
  (d.on (if st = lON then LNQ_Li_STAT_WAKE_DONE l else LNQ_Li_STAT_SLEEP_DONE l)).laneLog l 0x06 .info [rx.toNat, st, 0]

/-- The transmit direction starts for a state. -/
def Dev.txGo (d : Dev) (l tgt : Nat) : Dev :=
  let s := d.txState l
  let x := d.lane l
  let cur := if s = lWAKING ∨ s = lENTERING then x.txTo else s
  if cur = tgt then d
  else if tgt = lON then
    let from_ := if s = lENTERING then x.txTo else s
    let due := if !d.txPllLock l then none else some (d.slate + txExit from_)
    (d.setLane l { x with txFrom := from_, txTo := tgt, txDue := due }).wf (LNQ_Li_PWR_TX_STATE l) lWAKING
  else ((d.setLane l { x with txFrom := s, txTo := tgt, txDue := none }).wf (LNQ_Li_PWR_TX_STATE l) lENTERING).out (.laneIdle l)

/-- OFF discards the values of the equaliser (R187). -/
def Dev.eqDiscard (d : Dev) (l : Nat) : Dev :=
  [0, 1, 2].foldl (fun d j => d.wr (LNQ_Li_DFEj l j) 0)
    ((d.modLane l (fun x => { x with phase := 0 })).wf (LNQ_Li_EYE_CTLE l) 0)

/-- The receive direction starts for a state: sleep keeps the equaliser values, ACQUIRE is run again if it was under
way, and OFF discards them (R187). -/
def Dev.rxGo (d : Dev) (l tgt : Nat) : Dev :=
  let s := d.rxState l
  let x := d.lane l
  let cur := if s = lWAKING ∨ s = lENTERING then x.rxTo else s
  if cur = tgt then d
  else if tgt = lON then
    let from_ := if s = lENTERING then x.rxTo else s
    (d.setLane l { x with rxFrom := from_, rxTo := tgt, acquire := x.acquire || from_ == lOFF, acqCode := 0, acqBest := none }).wf
      (LNQ_Li_PWR_RX_STATE l) lWAKING
  else
    let acq := d.rf (LNQ_Li_STAT_PHASE l) == 1
    let d := (d.rxUnlock l).modLane l (fun x =>
      { x with rxFrom := s, rxTo := tgt, acquire := tgt == lOFF || acq || x.acquire, acqCode := 0, acqBest := none,
               ctleNext := none })
    let d := if tgt = lOFF then d.eqDiscard l else d
    d.wf (LNQ_Li_PWR_RX_STATE l) lENTERING

/-- The lane's request takes effect. -/
def Dev.laneEffect (d : Dev) (l : Nat) : Dev :=
  ((d.off (LNQ_Li_PWR_PENDING l)).txGo l (reqState (d.rf (LNQ_Li_PWR_TX_REQ l)))).rxGo l (reqState (d.rf (LNQ_Li_PWR_RX_REQ l)))

def Dev.laneAt (d : Dev) (l : Nat) : Nat := d.rd64 (LNQ_Li_AT_LO l) (LNQ_Li_AT_HI l)

/-- A write of LNQ_Li_PWR (R193): at once, or pending until the tick in LNQ_Li_AT. -/
def Dev.lanePwrWrite (d : Dev) (l : Nat) (v : Word) : Dev :=
  let d := d.plainWrite (LNQ_Li_PWR l) v
  if d.bit (LNQ_Li_PWR_AT_EN l) && decide (d.slate < d.laneAt l) then d.on (LNQ_Li_PWR_PENDING l) else d.laneEffect l

def execLanePowerRequest (_rq : Requester) (l : Fin 512) (v : Word) (s : State) : Out :=
  s.busWrite (LNQ_Li_PWR l) (fun d => d.lanePwrWrite l v)

/-- A pending request whose tick has come. -/
def execLaneRequestEffect (l : Fin 512) (s : State) : Out :=
  s.act (fun d => if d.bit (LNQ_Li_PWR_PENDING l) && decide (d.laneAt l ≤ d.slate) then d.laneEffect l else d)

/-- A transition completes: an entry, or a transmit wake at its exact tick. -/
def execLaneTransitionDone (l : Fin 512) (rx : Bool) (s : State) : Out :=
  s.act (fun d =>
    let x := d.lane l
    if rx then
      if d.rxState l = lENTERING then (d.wf (LNQ_Li_PWR_RX_STATE l) x.rxTo).dirDone l true x.rxTo else d
    else if d.txState l = lENTERING then (d.wf (LNQ_Li_PWR_TX_STATE l) x.txTo).dirDone l false x.txTo
    else if d.txState l = lWAKING then
      match x.txDue with
      | some t => if t ≤ d.slate then (d.wf (LNQ_Li_PWR_TX_STATE l) lON).dirDone l false lON else d
      | none => d
    else d)

/-! ## Clock recovery and adaptation (R181, R184 to R187, R198) -/

/-- Clock-recovery lock: a waking direction is ON; ACQUIRE follows, or TRACK resumes. -/
def execCdrLock (l : Fin 512) (s : State) : Out :=
  s.act (fun d =>
    let st := d.rxState l
    if (st = lWAKING ∨ st = lON) ∧ d.rxPllLock l ∧ !d.bit (LNQ_Li_STAT_CDR_LOCK l) then
      let d := (d.on (LNQ_Li_STAT_CDR_LOCK l)).on (LNQ_Li_STAT_SIG_DET l)
      let x := d.lane l
      let d := d.wf (LNQ_Li_STAT_PHASE l) (if x.acquire then 1 else 2)
      let d := d.setLane l { x with acqCode := 0, acqBest := none, rxScr := 0 }
      if st = lWAKING then (d.wf (LNQ_Li_PWR_RX_STATE l) lON).dirDone l true lON else d
    else d)

/-- Clock-recovery lock is lost: delivery stops, the direction stays ON (R198). `sig`: is a signal present? -/
def execCdrLockLoss (l : Fin 512) (sig : Bool) (s : State) : Out :=
  s.act (fun d =>
    if d.bit (LNQ_Li_STAT_CDR_LOCK l) then
      (((d.rxUnlock l).wb (LNQ_Li_STAT_SIG_DET l) sig).on (LNQ_Li_STAT_CDR_LOSS l)).laneLog l 0x01 .warn [sig.toNat, 0, 0]
    else d.wb (LNQ_Li_STAT_SIG_DET l) sig)

/-- The open points of 64: those whose disagreements do not exceed ERRLIM (R184). -/
def Dev.openPoints (d : Dev) (l : Nat) (counts : List Nat) : Nat :=
  ((counts.take 64).filter (fun c => decide (c ≤ d.rf (LNQ_Li_ADAPT_ERRLIM l)))).length

/-- The eye score of `v` open threshold points and `h` open phase points (R184). -/
def eyeScore (v h : Nat) : Nat := min 255 (v * h / 8)

/-- The 12 tap values, tap 0 in the low byte. -/
def Dev.setDfe (d : Dev) (l : Nat) (t : BitVec 96) : Dev :=
  [0, 1, 2].foldl (fun d j => d.wr (LNQ_Li_DFEj l j) (t.extractLsb' (32 * j) 32)) d

/-- LOW_EYE follows the score, with LNQ 0x04 once (R186). -/
def Dev.lowEye (d : Dev) (l v h : Nat) : Dev :=
  let sc := eyeScore v h
  if sc < d.rf (LNQ_Li_ADAPT_MIN_SCORE l) then
    if d.bit (LNQ_Li_STAT_LOW_EYE l) then d
    else ((d.on (LNQ_Li_STAT_LOW_EYE l)).on (LNQ_Li_STAT_EYE_EV l)).laneLog l 0x04 .note [sc, v, h]
  else d.off (LNQ_Li_STAT_LOW_EYE l)

/-- The updates of the equaliser, in ACQUIRE and in TRACK, where FREEZE holds every value (R185, R186). -/
def Dev.eqUpdate (d : Dev) (l : Nat) (eq : Option EqValues) : Dev :=
  match eq with
  | none => d
  | some e =>
    let ph := d.rf (LNQ_Li_STAT_PHASE l)
    if ph = 1 ∨ (ph = 2 ∧ !d.bit (LNQ_Li_ADAPT_FREEZE l)) then
      (d.setDfe l e.dfe).modLane l (fun x => { x with phase := e.phase })
    else d

/-- The end of the trial sweep that follows a sweep in TRACK, at one code above or below the data path's, alternating:
the data path is to move to it if it scored `v`, `h` at least HYST more (R186). The first direction is free. -/
def Dev.ctleTrial (d : Dev) (l v h : Nat) : Dev :=
  let (up, d) := match (d.lane l).trialUp with
    | some u => (!u, d)
    | none => let (w, d) := d.draw; (w.getLsbD 0, d)
  let c := d.rf (LNQ_Li_EYE_CTLE l)
  let ok := (if up then decide (c < 15) else decide (0 < c)) &&
    decide (d.rf (LNQ_Li_EYE_SCORE l) + d.rf (LNQ_Li_ADAPT_HYST l) ≤ eyeScore v h)
  d.modLane l (fun x => { x with trialDue := false, trialUp := some up,
                                 ctleNext := if ok then some (if up then c + 1 else c - 1) else x.ctleNext })

/-- The better of two ACQUIRE results: the higher score, the lower code on a tie (R185). -/
def betterCode (a : Option (Nat × Nat)) (sc c : Nat) : Option (Nat × Nat) :=
  match a with
  | some (s, k) => if s < sc then some (sc, c) else some (s, k)
  | none => some (sc, c)

/-- A sweep ends (R184). In TRACK every other sweep is the trial sweep of the one before it, unless FREEZE is set; LNQ_Li_EYE
shows the data path's. `eq`: what the updates have reached. -/
def execEyeSweepEnd (l : Fin 512) (counts : EyeCounts) (eq : Option EqValues) (s : State) : Out :=
  s.act (fun d =>
    if d.rxState l != lON || !d.bit (LNQ_Li_STAT_CDR_LOCK l) then d else
    let ph := d.rf (LNQ_Li_STAT_PHASE l)
    let v := d.openPoints l counts.threshold
    let h := d.openPoints l counts.phase
    let d := d.eqUpdate l eq
    let frozen := d.bit (LNQ_Li_ADAPT_FREEZE l)
    if ph == 2 && (d.lane l).trialDue && !frozen then d.ctleTrial l v h
    else
      let d := ((d.wf (LNQ_Li_EYE_SCORE l) (eyeScore v h)).wf (LNQ_Li_EYE_V l) v).wf (LNQ_Li_EYE_H l) h
      if ph = 1 then
        d.modLane l (fun x => if x.acqCode < 16 then
          { x with acqCode := x.acqCode + 1, acqBest := betterCode x.acqBest (eyeScore v h) x.acqCode } else x)
      else if ph = 2 then (d.modLane l (fun x => { x with trialDue := !frozen })).lowEye l v h
      else d)

/-- ACQUIRE ends after its 16 sweeps (R185). -/
def execAcquireEnd (l : Fin 512) (s : State) : Out :=
  s.act (fun d =>
    let x := d.lane l
    match x.acqBest with
    | some (sc, c) =>
      if d.rf (LNQ_Li_STAT_PHASE l) = 1 ∧ x.acqCode = 16 then
        let d := ((d.wf (LNQ_Li_EYE_CTLE l) c).wf (LNQ_Li_STAT_PHASE l) 2).setLane l
          { x with acquire := false, acqCode := 0, acqBest := none }
        if sc < d.rf (LNQ_Li_ADAPT_MIN_SCORE l) then (d.on (LNQ_Li_STAT_ADAPT_FAIL l)).laneLog l 0x05 .warn [sc, c, 0]
        else d
      else d
    | none => d)

/-! ## The 64b/66b sublayer (R188 to R192) -/

/-- The self-synchronising scrambler 1 + x^39 + x^58 on one bit: the line bit and the next state, which holds the last
58 line bits, the newest in bit 0. -/
def scramble1 (st : BitVec 58) (b : Bool) : Bool × BitVec 58 :=
  let o := b ^^ st.getLsbD 38 ^^ st.getLsbD 57
  (o, (st <<< 1) ||| (BitVec.ofBool o).setWidth 58)

/-- The descrambler on one line bit. -/
def descramble1 (st : BitVec 58) (b : Bool) : Bool × BitVec 58 :=
  (b ^^ st.getLsbD 38 ^^ st.getLsbD 57, (st <<< 1) ||| (BitVec.ofBool b).setWidth 58)

/-- A function of one bit and a state, over 64 bits, bit 0 first. -/
def overBits {σ : Type} (f : σ → Bool → Bool × σ) (st : σ) (x : BitVec 64) : BitVec 64 × σ :=
  (List.range 64).foldl (fun p i =>
    let (o, st) := f p.2 (x.getLsbD i)
    (if o then p.1 ||| ((1 : BitVec 64) <<< i) else p.1, st)) (0, st)

/-- The fill block (R188). -/
def Dev.fillBlock (d : Dev) (l : Nat) : LaneBlock :=
  { hdr := 2, data := BitVec.ofNat 64 (d.rd64 (LNQ_Li_FILL_LO l) (LNQ_Li_FILL_HI l)) }

/-- The loopback that LOOP selects: codes 4 to 7 act as 0, and far PCS needs both directions ON at one rate
(R194). -/
def Dev.loopOf (d : Dev) (l : Nat) : Nat :=
  let c := d.rf (LNQ_Li_TEST_LOOP l)
  if 3 < c then 0
  else if c = 3 ∧ !(d.txState l == lON && d.rxState l == lON && d.laneRate16 l true == d.laneRate16 l false) then 0
  else c

/-- A block boundary of the transmit direction: the loopback and the equaliser setting written since the last one take
effect (R183, R194). -/
def Dev.txBoundary (d : Dev) (l : Nat) : Dev :=
  d.modLane l (fun x => { x with loopNow := d.loopOf l, txeqNow := d.rd (LNQ_Li_TXEQ l) })

/-- A block boundary of the receive direction: the loopback takes effect, and the data path moves to the code that a
trial has won (R186). -/
def Dev.rxBoundary (d : Dev) (l : Nat) : Dev :=
  let d := d.modLane l (fun x => { x with loopNow := d.loopOf l })
  match (d.lane l).ctleNext with
  | some c =>
    if d.bit (LNQ_Li_ADAPT_FREEZE l) then d
    else (d.modLane l (fun x => { x with ctleNext := none })).wf (LNQ_Li_EYE_CTLE l) c
  | none => d

/-- A block enters the elastic buffer of 32 blocks, or is discarded whole at a full one (R191). -/
def Dev.toBuffer (d : Dev) (l : Nat) (b : LaneBlock) (hdrErr : Bool) : Dev :=
  let x := d.lane l
  if 32 ≤ x.eb.length then ((d.inc (LNQ_Li_CNT_EB_DROP l)).on (LNQ_Li_STAT_EB_ERR l)).laneLog l 0x08 .warn [0, 0, 0]
  else d.setLane l { x with eb := x.eb ++ [(b, hdrErr)] }

/-- A read cycle of the elastic buffer: the oldest block goes to the owner with its wait in UI (Table LNQ-3); with none
there is valid low (R191, R192). -/
def Dev.ebRead (d : Dev) (l : Nat) (wait : BitVec 7) : Option LaneBlock × Dev :=
  match (d.lane l).eb with
  | [] => (none, d)
  | (b, bad) :: rest =>
    let w := min wait.toNat (if d.laneMode l = 1 then 64 else 66)
    let d := (d.modLane l (fun x => { x with eb := rest })).wf (LNQ_Li_RXLAT_WAIT l) w
    (some b, if d.laneOwner l != 0 && d.siteLive l then d.out (.laneRx l b.hdr b.data bad w) else d)

/-- The owner's read cycles, one for each wait measured. -/
def Dev.ownerReads (d : Dev) (l : Nat) (reads : List (BitVec 7)) : Dev := reads.foldl (fun d w => (d.ebRead l w).2) d

/-- An invalid sync header. -/
def badHeader (h : BitVec 2) : Bool := h == 0 || h == 3

/-- A block at the receive side of the 64b/66b sublayer (R189, R190): its header counts towards block lock or its loss.
Without lock an invalid header moves the candidate boundary by one bit; under lock it is counted, and the block is
delivered. -/
def Dev.pcsIn (d : Dev) (l : Nat) (b : LaneBlock) : Dev :=
  let bad := badHeader b.hdr
  let lock := d.bit (LNQ_Li_STAT_BLK_LOCK l)
  let d := d.modLane l (fun x =>
    { x with hdrGood := if bad then 0 else min 64 (x.hdrGood + 1), hdrBad := (bad :: x.hdrBad).take 64,
             bound := if bad && !lock then (x.bound + 1) % 66 else x.bound,
             hber := if bad && lock then x.hber + 1 else x.hber })
  if !lock then d else
  (if bad then d.inc (LNQ_Li_CNT_HDR_ERR l) else d).toBuffer l b bad

/-- The next bit of a pattern (Table LNQ-7), from the generator's register and its position. -/
def patternBit (code : Nat) (upat : BitVec 64) (r : BitVec 31) (pos : Nat) : Bool :=
  match code with
  | 0 => r.getLsbD 5 ^^ r.getLsbD 6
  | 1 => r.getLsbD 4 ^^ r.getLsbD 8
  | 2 => r.getLsbD 13 ^^ r.getLsbD 14
  | 3 => r.getLsbD 17 ^^ r.getLsbD 22
  | 5 => decide (pos % 64 < 32)
  | 6 => upat.getLsbD (pos % 64)
  | _ => r.getLsbD 27 ^^ r.getLsbD 30

/-- `n` pattern bits, the first in bit 0. -/
def patternBits (code : Nat) (upat : BitVec 64) : Nat → BitVec 31 × Nat → BitVec 66 × BitVec 31 × Nat
  | 0, (r, pos) => (0, r, pos)
  | n + 1, (r, pos) =>
    let (x, r, pos) := patternBits code upat n (r, pos)
    let b := patternBit code upat r pos
    (if b then x ||| ((1 : BitVec 66) <<< n) else x, (r <<< 1) ||| (BitVec.ofBool b).setWidth 31, pos + 1)

/-- The user pattern. -/
def Dev.upat (d : Dev) (l : Nat) : BitVec 64 := BitVec.ofNat 64 (d.rd64 (LNQ_Li_UPAT_LO l) (LNQ_Li_UPAT_HI l))

/-- Stages of a PRBS pattern's register (Table LNQ-7). -/
def prbsStages (code : Nat) : Nat := match code with | 0 => 7 | 1 => 9 | 2 => 15 | 3 => 23 | _ => 31

/-- Are 64 line bits, the newest in bit 0, 64 consecutive bits of the pattern, and at which position does it go on? -/
def patternFit (code : Nat) (upat hist : BitVec 64) : Option Nat :=
  if code = 5 ∨ code = 6 then
    (List.range 64).find? (fun ph => (List.range 64).all (fun i => hist.getLsbD i == patternBit code upat 0 (ph + 63 - i)))
  else
    let n := prbsStages code
    if (List.range (64 - n)).all (fun i => hist.getLsbD i == patternBit code upat ((hist >>> (i + 1)).setWidth 31) 0) &&
        hist.toNat / 2 ^ (64 - n) != 0 then some 0 else none

/-- The checker takes one line bit; in sync, was it an error (R195)? -/
def Checker.take (code : Nat) (upat : BitVec 64) (sync : Bool) (c : Checker) (b : Bool) : Checker × Bool :=
  let c := { c with hist := (c.hist <<< 1) ||| (BitVec.ofBool b).setWidth 64, seen := min 64 (c.seen + 1) }
  if !sync then (c, false) else
  let p := patternBit code upat c.reg c.pos
  let e := p != b
  let errs := if e then c.n :: c.errs.filter (fun k => decide (c.n < k + 1024)) else c.errs
  ({ c with reg := (c.reg <<< 1) ||| (BitVec.ofBool p).setWidth 31, pos := c.pos + 1, n := c.n + 1, errs := errs,
            lost := c.lost || decide (64 ≤ errs.length) }, e)

/-- Add to the 48-bit count of checked bits, which saturates. -/
def Dev.addBits (d : Dev) (l n : Nat) : Dev :=
  d.wr64 (LNQ_Li_PBITS_LO l) (LNQ_Li_PBITS_HI l) (min (2 ^ 48 - 1) (d.rd64 (LNQ_Li_PBITS_LO l) (LNQ_Li_PBITS_HI l) + n))

/-- The checker compares the line bits of one block time; in sync it counts them and their errors (R195). -/
def Dev.checkBits (d : Dev) (l : Nat) (bits : List Bool) : Dev :=
  if !d.bit (LNQ_Li_TEST_CHK_EN l) then d else
  let sync := d.bit (LNQ_Li_TEST_CHK_SYNC l)
  let (c, errs) := bits.foldl (fun (p : Checker × Nat) b =>
    let (c, e) := p.1.take (d.rf (LNQ_Li_TEST_CHK l)) (d.upat l) sync b
    (c, p.2 + e.toNat)) ((d.lane l).chk, 0)
  let d := d.modLane l (fun x => { x with chk := c })
  if sync then (d.addBits l bits.length).incBy (LNQ_Li_PERR_ERRORS l) errs else d

/-- What one block time puts on the line: the pattern, or the block (scrambled in PCS66 mode). -/
def Dev.txLine (d : Dev) (l : Nat) (b : LaneBlock) : LaneBlock × Dev :=
  let x := d.lane l
  if d.bit (LNQ_Li_TEST_GEN_EN l) then
    let n := if d.laneMode l = 1 then 64 else 66
    let (bits, r, pos) := patternBits (d.rf (LNQ_Li_TEST_GEN l)) (d.upat l) n (x.lfsr, x.genPos)
    (if n = 64 then { hdr := 0, data := bits.setWidth 64 } else { hdr := bits.extractLsb' 0 2, data := bits.extractLsb' 2 64 },
      d.setLane l { x with lfsr := r, genPos := pos })
  else if d.laneMode l = 0 && d.bit (LNQ_Li_CFG_SCR_EN l) then
    let (y, st) := overBits scramble1 x.txScr b.data
    ({ b with data := y }, d.setLane l { x with txScr := st })
  else (b, d)

/-- INJ inverts one bit of the next block: which one, the spec leaves open. -/
def Dev.injected (d : Dev) (l : Nat) (b : LaneBlock) : LaneBlock × Dev :=
  if (d.lane l).inject then
    let (w, d) := d.draw
    ({ b with data := b.data ^^^ ((1 : BitVec 64) <<< (w.toNat % 64)) }, d.modLane l (fun x => { x with inject := false }))
  else (b, d)

def flipBlock (b : LaneBlock) : LaneBlock := { hdr := ~~~b.hdr, data := ~~~b.data }

/-- The 66 bits of a block in line order, the first in bit 0, and back. -/
def blockLine (b : LaneBlock) : BitVec 66 := b.data ++ b.hdr
def lineBlock (w : BitVec 66) : LaneBlock := { hdr := w.extractLsb' 0 2, data := w.extractLsb' 2 64 }

/-- The block of a block time whose boundary lies `k` bits before it. -/
def framedBlock (prev new : BitVec 66) (k : Nat) : LaneBlock := lineBlock ((new ++ prev).extractLsb' (66 - k) 66)

/-- The line bits of one block time reach the receive side (R189, R190, R195). -/
def Dev.rxLine (d : Dev) (l : Nat) (blk : LaneBlock) : Dev :=
  let b := if d.bit (LNQ_Li_CFG_RX_POL l) then flipBlock blk else blk
  let mode := d.laneMode l
  let d := d.checkBits l (if mode = 1 then (List.range 64).map b.data.getLsbD else (List.range 66).map (blockLine b).getLsbD)
  let x := d.lane l
  let d := d.setLane l { x with prev := blockLine b }
  let f := framedBlock x.prev (blockLine b) x.bound
  if mode = 1 then d.toBuffer l b false
  else if mode = 2 then d.toBuffer l f false
  else
    let (y, st) := overBits descramble1 x.rxScr f.data
    let d := d.modLane l (fun x => { x with rxScr := st })
    d.pcsIn l (if d.bit (LNQ_Li_CFG_DSC_EN l) then { f with data := y } else f)

/-- Does the receive direction take line bits: ON with clock-recovery lock? -/
def Dev.rxTakes (d : Dev) (l : Nat) : Bool := d.rxState l == lON && d.bit (LNQ_Li_STAT_CDR_LOCK l)

/-- Transmit one block: the owner's, in far PCS loopback the elastic buffer's, or else the fill block (R188, R194). The
generator takes and discards the owner's. A lane without an owner, or whose hard site's region is not live, is offered
none (R178, R197). -/
def Dev.txBlock (d : Dev) (l : Nat) (blk : Option LaneBlock) (reads : List (BitVec 7)) : Dev :=
  let d := d.txBoundary l
  let loop := (d.lane l).loopNow
  let owner := if loop = 3 ∨ d.laneOwner l = 0 ∨ !d.siteLive l then none else blk
  let (looped, d) := match reads with
    | w :: _ => if loop = 3 then d.ebRead l w else (none, d)
    | [] => (none, d)
  let d :=
    if d.bit (LNQ_Li_TEST_GEN_EN l) || looped.isSome then d
    else
      let d := if owner.isNone && (d.lane l).sentData then d.laneLog l 0x0B .note [d.laneOwner l, 0, 0] else d
      d.modLane l (fun x => { x with sentData := owner.isSome })
  let b := (looped.or owner).getD (d.fillBlock l)
  let (line, d) := d.txLine l b
  let (line, d) := d.injected l line
  let pin := if d.bit (LNQ_Li_CFG_TX_POL l) then flipBlock line else line
  let d := if loop = 2 then d.out (.laneIdle l) else d.out (.laneTx l pin.hdr pin.data)
  if loop = 1 then (if d.laneMode l = 0 then d.pcsIn l b else d.toBuffer l b false).ownerReads l reads
  else if loop = 2 ∧ d.rxTakes l then (d.rxLine l pin).ownerReads l reads
  else d

/-- One block time of a lane's transmit side: it must be ON, its PLL locked and its quad live. `reads`: in a near
loopback the owner's read cycles of the elastic buffer until the next block time, in far PCS loopback the transmit
side's, each with the wait measured. -/
def execTxBlock (l : Fin 512) (blk : Option LaneBlock) (reads : List (BitVec 7)) (s : State) : Out :=
  s.act (fun d => if d.txState l = lON ∧ d.txPllLock l ∧ d.quadLive l then d.txBlock l blk reads else d)

/-- Receive the line bits of one block time (R189 to R192). In a near loopback the receive side takes the transmit
side's instead, and in far PCS loopback the transmit side reads the elastic buffer. -/
def Dev.rxBlock (d : Dev) (l : Nat) (blk : LaneBlock) (eq : Option EqValues) (reads : List (BitVec 7)) : Dev :=
  let d := (d.eqUpdate l eq).rxBoundary l
  let loop := (d.lane l).loopNow
  if loop = 1 ∨ loop = 2 then d
  else if loop = 3 then d.rxLine l blk
  else (d.rxLine l blk).ownerReads l reads

/-- A block time of a lane that is ON and holds clock-recovery lock: its line bits, what the equaliser's updates have
reached, and the owner's read cycles of the elastic buffer until the next, each with the wait measured. -/
def execRxBlock (l : Fin 512) (blk : LaneBlock) (eq : Option EqValues) (reads : List (BitVec 7)) (s : State) : Out :=
  s.act (fun d => if d.rxTakes l && d.quadLive l then d.rxBlock l blk eq reads else d)

/-- Does the receive side take blocks: locked to its input, or looped back from the transmit side (R194)? -/
def Dev.rxFed (d : Dev) (l : Nat) : Bool :=
  (d.lane l).loopNow == 1 || d.rxTakes l

/-- Block lock after 64 consecutive valid headers (R189); an HBER window begins. -/
def execBlockLock (l : Fin 512) (s : State) : Out :=
  s.act (fun d =>
    if d.rxFed l ∧ d.laneMode l = 0 ∧ !d.bit (LNQ_Li_STAT_BLK_LOCK l) ∧ 64 ≤ (d.lane l).hdrGood then
      (d.on (LNQ_Li_STAT_BLK_LOCK l)).modLane l (fun x => { x with hber := 0, hberAt := d.slate })
    else d)

/-- Are 16 of the last 64 headers invalid (R189)? -/
def Dev.headersBad (d : Dev) (l : Nat) : Bool := decide (16 ≤ ((d.lane l).hdrBad.filter (fun b => b)).length)

/-- Block lock is lost at 16 invalid headers of 64, and sought anew (R189). -/
def Dev.blockLockLost (d : Dev) (l : Nat) : Dev :=
  if d.bit (LNQ_Li_STAT_BLK_LOCK l) && d.headersBad l then
    ((((d.laneSlotsLost l).modLane l (fun x => { x with hdrGood := 0, hdrBad := [], eb := [] })).off (LNQ_Li_STAT_BLK_LOCK l)).on
      (LNQ_Li_STAT_BLK_LOSS l)).laneLog l 0x02 .warn [0, 0, 0]
  else d

/-- Is the HBER window still under way? HBER_WIN µs, 0 acting as 1, at 245.76 ticks a µs. -/
def Dev.hberRunning (d : Dev) (l : Nat) : Bool :=
  decide (100 * d.slate < 100 * (d.lane l).hberAt + 24576 * max 1 (d.rf (LNQ_Li_PCS_HBER_WIN l)))

/-- The end of an HBER window, HBER_WIN µs after it began (R189); without block lock none is under way. -/
def execHberWindowEnd (l : Fin 512) (s : State) : Out :=
  s.act (fun d =>
    let c := (d.lane l).hber
    if !d.bit (LNQ_Li_STAT_BLK_LOCK l) ∨ d.hberRunning l then d else
    let d := d.modLane l (fun x => { x with hber := 0, hberAt := d.slate })
    if d.rf (LNQ_Li_PCS_HBER_LIM l) < c then
      if d.bit (LNQ_Li_STAT_HI_BER l) then d
      else ((d.on (LNQ_Li_STAT_HI_BER l)).on (LNQ_Li_STAT_HBER_EV l)).laneLog l 0x03 .warn [c, c / 256, 0]
    else d.off (LNQ_Li_STAT_HI_BER l))

/-- A pulse on SLIP (R190): it moves the word boundary by one bit, in RAW66 mode only. -/
def execSlip (l : Fin 512) (s : State) : Out :=
  s.act (fun d => if d.laneMode l = 2 then d.modLane l (fun x => { x with bound := (x.bound + 1) % 66 }) else d)

/-! ## Settings and tests -/

/-- A write of LNQ_Li_TXEQ (R183). -/
def Dev.txeqWrite (d : Dev) (l : Nat) (v : Word) : Dev :=
  let pre := fieldGet 0 5 v
  let main := fieldGet 5 6 v
  let post := fieldGet 11 5 v
  if pre ≤ 12 ∧ post ≤ 20 ∧ 24 ≤ main ∧ pre + main + post ≤ 48 then d.plainWrite (LNQ_Li_TXEQ l) v
  else d.lnqRefused (quadOf l) (l % 4) 0x10

def execTxeqWrite (_rq : Requester) (l : Fin 512) (v : Word) (s : State) : Out :=
  s.busWrite (LNQ_Li_TXEQ l) (fun d => d.txeqWrite l v)

/-- A write of LNQ_Li_CFG: refused while either direction is not OFF. -/
def Dev.laneCfgWrite (d : Dev) (l : Nat) (v : Word) : Dev :=
  if d.txState l = lOFF ∧ d.rxState l = lOFF then d.plainWrite (LNQ_Li_CFG l) v
  else d.lnqRefused (quadOf l) (l % 4) 0

def execLaneConfigWrite (_rq : Requester) (l : Fin 512) (v : Word) (s : State) : Out :=
  s.busWrite (LNQ_Li_CFG l) (fun d => d.laneCfgWrite l v)

/-- A generator's first register: free, but not one from which a PRBS pattern never leaves zero. -/
def genStart (code : Nat) (w : Word) : BitVec 31 :=
  if w.toNat % 2 ^ prbsStages code = 0 then 1 else w.setWidth 31

/-- A write of LNQ_Li_TEST (R194, R195): a far PCS loopback that cannot run is logged; a generator that starts takes
a free state, since the spec gives its first bit no place in the pattern; a checker that starts, stops or changes its
pattern has no sync; INJ acts once. -/
def Dev.laneTestWrite (d : Dev) (l : Nat) (v : Word) : Dev :=
  let gen := fun (d : Dev) => (d.bit (LNQ_Li_TEST_GEN_EN l), d.rf (LNQ_Li_TEST_GEN l))
  let chk := fun (d : Dev) => (d.bit (LNQ_Li_TEST_CHK_EN l), d.rf (LNQ_Li_TEST_CHK l))
  let (gen0, chk0) := (gen d, chk d)
  let d := d.plainWrite (LNQ_Li_TEST l) v
  let d := if d.rf (LNQ_Li_TEST_LOOP l) = 3 ∧ d.loopOf l = 0 then d.lnqRefused (quadOf l) (l % 4) 0x50 else d
  let d := if d.bit (LNQ_Li_TEST_GEN_EN l) && gen d != gen0 then
      let (w, d) := d.draw
      d.modLane l (fun x => { x with lfsr := genStart (d.rf (LNQ_Li_TEST_GEN l)) w, genPos := 0 })
    else d
  let d := if chk d = chk0 then d else (d.modLane l (fun x => { x with chk := Checker.idle })).off (LNQ_Li_TEST_CHK_SYNC l)
  if v.getLsbD 13 then d.modLane l (fun x => { x with inject := true }) else d

def execLoopbackWrite (_rq : Requester) (l : Fin 512) (v : Word) (s : State) : Out :=
  s.busWrite (LNQ_Li_TEST l) (fun d => d.laneTestWrite l v)

def execInj (_rq : Requester) (l : Fin 512) (v : Word) (s : State) : Out :=
  s.busWrite (LNQ_Li_TEST l) (fun d => d.laneTestWrite l (v ||| fieldMask 13 1))

/-- The checker gains sync after 64 error-free bits: the last 64 are of the pattern, which the checker then follows. It
loses sync after 64 errors in 1,024 bits (R195). -/
def execPatternCheckerSync (l : Fin 512) (s : State) : Out :=
  s.act (fun d =>
    let c := (d.lane l).chk
    if !d.bit (LNQ_Li_TEST_CHK_EN l) then d
    else if d.bit (LNQ_Li_TEST_CHK_SYNC l) then
      if c.lost then
        ((d.modLane l (fun x => { x with chk := Checker.idle })).off (LNQ_Li_TEST_CHK_SYNC l)).laneLog l 0x09 .note [0, 0, 0]
      else d
    else if c.seen < 64 then d
    else match patternFit (d.rf (LNQ_Li_TEST_CHK l)) (d.upat l) c.hist with
      | some ph =>
        (d.modLane l (fun x => { x with chk := { c with reg := c.hist.setWidth 31, pos := ph, n := 0, errs := [], lost := false } })).on
          (LNQ_Li_TEST_CHK_SYNC l)
      | none => d)

end Sys2Proof.Machine
end

