-- ==== Sys2Proof/Machine/Ethernet.lean ====
section
/-! DEFINITION. The Ethernet MACs and the converter links (09_ethernet_fronthaul_converters). -/
namespace Sys2Proof.Machine
open Reg

def Dev.mac (d : Dev) (m : Nat) : Mac := SMap.at Mac.idle d.eth.macs m
def Dev.setMac (d : Dev) (m : Nat) (x : Mac) : Dev := { d with eth := { d.eth with macs := SMap.set Mac.idle d.eth.macs m x } }
def Dev.jlk (d : Dev) (j : Nat) : Jlk := SMap.at Jlk.idle d.eth.links j
def Dev.setJlk (d : Dev) (j : Nat) (x : Jlk) : Dev := { d with eth := { d.eth with links := SMap.set Jlk.idle d.eth.links j x } }

/-- A record of MAC or link `n`: byte 0 of the detail is its global number (R217). -/
def Dev.ethLog (d : Dev) (blk n code : Nat) (sev : Sev) (det : List Nat) : Dev := d.log blk code sev (n :: det)

/-- A record that is logged at most once per MAC or link per second (R212, R215). -/
def Dev.ethLogLimited (d : Dev) (blk n code : Nat) (sev : Sev) (det : List Nat) : Dev :=
  let k := (blk * 32 + n) * 256 + code
  let due := match SMap.at none d.eth.logAt k with | some t => decide (t + ticksPerSec ≤ d.slate) | none => true
  if due then
    { d with eth := { d.eth with logAt := SMap.set none d.eth.logAt k (some d.slate) } }.ethLog blk n code sev det
  else d

/-! ## MACs: configuration and link state (R200, R204) -/

/-- The MAC's speed, 3 acting as 0. -/
def ethSpeed (v : Word) : Nat := let s := fieldGet 1 2 v; if s = 3 then 0 else s

/-- The MAC whose group owns MAC `m`, if MAC 4g of its group runs as a 100GBASE-R4 port and `m` is another (R200). -/
def Dev.macAbsorbed (d : Dev) (m : Nat) : Bool :=
  let h := m / 4 * 4
  m != h && d.bit (ETH_CFG_EN h) && ethSpeed (d.rd (ETH_CFG h)) == 2

/-- The global lanes that an ETH_CFG word claims for MAC `m` (R200). -/
def macLanesOf (m : Nat) (v : Word) : List Nat :=
  let base := m / 16 * 256
  if ethSpeed v = 2 then (List.range 4).map (fun i => base + 4 * (16 * (m % 16 / 4) + fieldGet 8 4 v) + i)
  else [base + 16 * (m % 16) + fieldGet 4 4 v]

def Dev.macLanes (d : Dev) (m : Nat) : List Nat := macLanesOf m (d.rd (ETH_CFG m))

/-- Is the MAC one that runs: enabled, not absorbed into a group, its domain up and its clock on? -/
def Dev.macLive (d : Dev) (m : Nat) : Bool :=
  d.bit (ETH_CFG_EN m) && !d.macAbsorbed m && d.domainUp 27 && d.clocked (ETH_CFG m)

/-- ETH_CFG.MAX_LEN as it acts. -/
def Dev.maxLen (d : Dev) (m : Nat) : Nat := max 64 (min 9728 (d.rf (ETH_CFG_MAX_LEN m)))

/-- The fault bits of a MAC change; a change of LINK sets LINK_EV and logs ETH 0x01 (R204). -/
def Dev.setFaults (d : Dev) (m : Nat) (lf rf : Bool) : Dev :=
  let was := d.bit (ETH_STAT_LINK m)
  let up := !lf && !rf
  let d := ((d.wb (ETH_STAT_LF m) lf).wb (ETH_STAT_RF m) rf).wb (ETH_STAT_LINK m) up
  if was != up then
    (d.on (ETH_STAT_LINK_EV m)).ethLog 0x16 m 0x01 .note [up.toNat, lf.toNat, rf.toNat, 0]
  else d

/-- Do the MAC's lanes hold the locks without which it reports local fault itself (R204)? -/
def Dev.macLocked (d : Dev) (m : Nat) : Bool :=
  (d.macLanes m).all (fun l => d.laneOwner l == 2 && d.blkLock l) &&
    (ethSpeed (d.rd (ETH_CFG m)) != 2 || (d.bit (ETH_STAT_FEC_LOCK m) && (d.mac m).amLock))

/-- A configuration write is refused. -/
def Dev.ethRefused (d : Dev) (m ofs : Nat) : Dev := d.ethLog 0x16 m 0x0A .warn [ofs, ofs / 256, 0, 0]

/-- A MAC stops: what it buffered is gone and its link is down. -/
def Dev.macStop (d : Dev) (m : Nat) : Dev :=
  let up := d.bit (ETH_STAT_LINK m)
  let d := (d.setMac m { Mac.idle with txts := (d.mac m).txts }).off (ETH_STAT_FEC_LOCK m)
  let d := ((d.off (ETH_STAT_LF m)).off (ETH_STAT_RF m)).off (ETH_STAT_LINK m)
  if up then (d.on (ETH_STAT_LINK_EV m)).ethLog 0x16 m 0x01 .note [0, 0, 0, 0] else d

/-- Does each claimed lane have OWNER 2 and run PCS66 at the rate of Table ETH-1? -/
def Dev.macLanesFit (d : Dev) (m : Nat) (v : Word) : Bool :=
  let rate := if ethSpeed v = 0 then 165000000 else 412500000
  (macLanesOf m v).all (fun l => d.laneOwner l == 2 && d.laneMode l == 0 &&
    d.laneRate16 l false == rate && d.laneRate16 l true == rate)

/-- The fault a MAC reports on its transmit side: remote fault while it receives local fault, idle while it receives
remote fault (R204). -/
def Dev.faultOut (d : Dev) (m : Nat) : Dev := d.out (.ethFault m (d.bit (ETH_STAT_LF m)) (d.bit (ETH_STAT_RF m)))

/-- A write of ETH_CFG (R200). -/
def Dev.ethCfgWrite (d : Dev) (m : Nat) (v : Word) : Dev :=
  let en := v.getLsbD 0
  if d.macAbsorbed m then d.ethRefused m 0
  else if d.bit (ETH_CFG_EN m) then
    if en then d.ethRefused m 0 else (d.plainWrite (ETH_CFG m) v).macStop m
  else if ethSpeed v == 2 && m % 4 != 0 then d.ethRefused m 0
  else if !en then d.plainWrite (ETH_CFG m) v
  else if !d.macLanesFit m v then d.ethRefused m 0
  else ((d.plainWrite (ETH_CFG m) v).off (ETH_STAT_FEC_LOCK m)).setFaults m true false |>.faultOut m

def execMacEnable (_rq : Requester) (m : Fin 32) (v : Word) (s : State) : Out :=
  s.busWrite (ETH_CFG m) (fun d => d.ethCfgWrite m v)

/-- Codewords beyond correction and corrected (R215). -/
def Dev.fecCount (d : Dev) (m : Nat) (f : FecCount) : Dev :=
  let d := (d.incBy (ETH_FEC_CORR m) f.corr).incBy (ETH_FEC_UNCORR m) f.uncorr
  if f.uncorr = 0 then d else
    let c := d.rf (ETH_FEC_UNCORR m)
    (d.on (ETH_STAT_FEC_UE m)).ethLog 0x16 m 0x08 .warn [c, c / 256, 0, 0]

/-- The received ordered sets, the alignment marker lock of a group or the FEC lock change (R204). -/
def execLinkFaultChange (m : Fin 32) (lf rf amLock fecLock : Bool) (fec : FecCount) (s : State) : Out :=
  s.act (fun d =>
    if !d.macLive m then d else
    let usesFec := ethSpeed (d.rd (ETH_CFG m)) == 2 || (ethSpeed (d.rd (ETH_CFG m)) == 1 && d.bit (ETH_CFG_FEC m))
    let d := (d.fecCount m fec).wb (ETH_STAT_FEC_LOCK m) (fecLock && usesFec)
    let d := d.setMac m { (d.mac m) with amLock := amLock && ethSpeed (d.rd (ETH_CFG m)) == 2 }
    (d.setFaults m (lf || !d.macLocked m) rf).faultOut m)

/-- The lanes of a group lose their alignment markers (Table ETH-5). -/
def execAlignmentLoss (m : Fin 32) (mask : BitVec 4) (fec : FecCount) (s : State) : Out :=
  s.act (fun d =>
    if !d.macLive m || ethSpeed (d.rd (ETH_CFG m)) != 2 then d else
    let d := ((d.fecCount m fec).off (ETH_STAT_FEC_LOCK m)).ethLog 0x16 m 0x09 .warn [mask.toNat, 0, 0, 0]
    let d := d.setMac m { (d.mac m) with amLock := false }
    (d.setFaults m true (d.bit (ETH_STAT_RF m))).faultOut m)

/-- The MACs whose lanes have lost lock report local fault (R204). -/
def Dev.ethSettle (d : Dev) : Dev :=
  (List.range 32).foldl (fun d m =>
    if d.macLive m && !d.bit (ETH_STAT_LF m) && !d.macLocked m then
      (d.setFaults m true (d.bit (ETH_STAT_RF m))).faultOut m
    else d) d

/-! ## Receive: checks and the eCPRI parser (R201, R208) -/

/-- The offset after the EtherType and its VLAN tags: the EtherType and the number of tags. -/
def etherType (b : List Byte) : Nat × Nat × Nat :=
  let at2 := fun o => beNat (bytesAt b o 2)
  let isTag := fun x => x == 0x8100 || x == 0x88A8
  if isTag (at2 12) then
    if isTag (at2 16) then (at2 20, 2, 22) else (at2 16, 1, 18)
  else (at2 12, 0, 14)

/-- A word of the parser's registers as it stood before this tick: a write takes effect for the headers parsed after its
sampled tick (R208). -/
def Dev.rfBefore (d : Dev) (f : RF) : Nat :=
  fieldGet f.lo f.w (match d.eth.wrote.find? (fun w => w.1 == d.slate && w.2.1 == f.addr) with
    | some w => w.2.2
    | none => d.rd f.addr)

/-- A write of ETH_ECP_CFG or of the match table. -/
def Dev.ecpWrite (d : Dev) (a : Nat) (v : Word) : Dev :=
  let l := d.eth.wrote.filter (fun w => w.1 == d.slate)
  let l := if l.any (fun w => w.2.1 == a) then l else (d.slate, a, d.rd a) :: l
  { d with eth := { d.eth with wrote := l } }.plainWrite a v

/-- The lowest enabled entry of the match table that a header fits. -/
def Dev.ecpMatch (d : Dev) (m mtype id : Nat) : Option Nat :=
  (List.range 32).find? (fun n =>
    d.rfBefore (ETH_ECPn_ACT_EN m n) == 1 && (d.rfBefore (ETH_ECPn_ACT_ANY m n) == 1 || d.rfBefore (ETH_ECPn_ACT_TYPE m n) == mtype) &&
      (id &&& d.rfBefore (ETH_ECPn_MATCH_MASK m n)) == (d.rfBefore (ETH_ECPn_MATCH_ID m n) &&& d.rfBefore (ETH_ECPn_MATCH_MASK m n)))

/-- Parse a header, with the registers as they stood before this tick (R208). The size is judged at the frame's end. -/
def Dev.ecpParse (d : Dev) (m : Nat) (b : List Byte) : Parsed :=
  let (ty, vl, o) := etherType b
  if ty != 0xAEFE then
    { port := d.rfBefore (ETH_ECP_CFG_OTHER_PORT m), ecp := false, bad := none, concat := false, vlans := vl, mtype := 0, id := 0,
      seq := 0, tag := 0, other := 0, size := 0, off := o }
  else
    let h0 := (b.getD o 0).toNat
    let mt := (b.getD (o + 1) 0).toNat
    let size := beNat (bytesAt b (o + 2) 2)
    let iq := decide (mt ≤ 2)
    let id := if iq then beNat (bytesAt b (o + 4) 2) else 0
    let seq := if iq then beNat (bytesAt b (o + 6) 2) else 0
    let bad :=
      if h0 / 16 != d.rfBefore (ETH_ECP_CFG_REV m) then some 0
      else if iq && decide (size < 4) then some 2
      else none
    let hit := d.ecpMatch m mt id
    let port := if bad.isSome then d.rfBefore (ETH_ECP_CFG_OTHER_PORT m)
      else match hit with | some n => d.rfBefore (ETH_ECPn_ACT_PORT m n) | none => d.rfBefore (ETH_ECP_CFG_DEF_PORT m)
    let tag := if bad.isSome then 0xFFF
      else match hit with | some n => d.rfBefore (ETH_ECPn_ACT_TAG m n) | none => 0
    { port := port, ecp := true, bad := bad, concat := h0 % 2 == 1, vlans := vl, mtype := mt, id := id, seq := seq, tag := tag,
      other := d.rfBefore (ETH_ECP_CFG_OTHER_PORT m), size := size, off := o + 4 }

/-- The parser's result once the frame's length without FCS is known: a payload size beyond the bytes after the header makes
it malformed, unless its revision already has (R208). -/
def Parsed.settle (p : Parsed) (n : Nat) : Parsed :=
  if p.ecp && p.bad != some 0 && decide (n - p.off < p.size) then { p with bad := some 1, port := p.other, tag := 0xFFF } else p

/-- A frame is discarded for its length or its coding: 0 runt, 1 oversize, 2 coding. -/
def Dev.ethDiscard (d : Dev) (m cause : Nat) : Dev :=
  ((d.on (ETH_STAT_DISCARD m)).inc (ETH_RXE_DISC m)).ethLogLimited 0x16 m 0x03 .warn [cause, 0, 0, 0]

/-- Units of 1/65,536 ns in a second. -/
def unitsPerSec : Int := 65536000000000

/-- Time of day of this tick's edge in 1/65,536 ns (R61). -/
def Dev.todUnits (d : Dev) : Int :=
  ((d.timeOfDay / 2 ^ 48 : Nat) : Int) * unitsPerSec + ((d.timeOfDay % 2 ^ 48 : Nat) : Int)

/-- A time in 1/65,536 ns in the form of Table CTY-12 (R73). -/
def stampOf (u : Int) : BitVec 96 :=
  BitVec.ofNat 96 ((u / unitsPerSec % (2 ^ 48 : Nat)).toNat * 2 ^ 48 + (u % unitsPerSec).toNat)

/-- `n` unit intervals of a lane's direction in 1/65,536 ns, rounded half up (log entry 183). -/
def Dev.uiUnits (d : Dev) (l : Nat) (rx : Bool) (n : Nat) : Int :=
  let r := d.laneRate16 l rx
  if r = 0 then 0 else roundHalfUp ((n : Int) * 65536 * 16000000) r

/-- The timestamp of a received frame at the pin: the capture less the fixed receive latency of Table LNQ-3, the wait and
the deskew (R205). -/
def Dev.rxStamp (d : Dev) (m : Nat) (x : StampPoint) : BitVec 96 :=
  stampOf (d.todUnits + (x.sub.toNat : Int) - d.uiUnits ((d.macLanes m).headD 0) true (180 + x.wait.toNat) - (x.deskew : Int))

/-- The timestamp of a transmitted frame at the pin: the capture and the fixed transmit latency of Table LNQ-3. -/
def Dev.txStamp (d : Dev) (m : Nat) (x : StampPoint) : BitVec 96 :=
  stampOf (d.todUnits + (x.sub.toNat : Int) + d.uiUnits ((d.macLanes m).headD 0) false 172)

/-- Bytes of a receive port's buffer: 16 KiB, or 64 KiB pooled in a group. -/
def Dev.rxRoom (d : Dev) (m : Nat) : Nat := if ethSpeed (d.rd (ETH_CFG m)) = 2 then 65536 else 16384

/-- A frame is discarded for its port: 0 full, 1 isolated (R201, Table ETH-4). -/
def Dev.portDiscard (d : Dev) (m port why : Nat) : Dev :=
  ((d.on (ETH_STAT_OVF m)).inc (ETH_OVF_OVF m)).ethLogLimited 0x16 m 0x04 .warn [port, why, 0, 0]

/-- A frame that has passed its checks is offered whole to its port (R201, R208). -/
def Dev.rxDeliver (d : Dev) (m : Nat) (h : RxHead) (p : Parsed) (body : List Byte) (isolated : Bool) : Dev :=
  let d := match p.bad with
    | some c => ((d.on (ETH_STAT_ECP_ERR m)).inc (ETH_OVF_ECP_ERR m)).ethLogLimited 0x16 m 0x05 .note [c, p.mtype, 0, 0]
    | none => d
  if isolated then d.portDiscard m p.port 1
  else
    let x := d.mac m
    let d := d.setMac m { x with rxHeld := SMap.set 0 x.rxHeld p.port (SMap.at 0 x.rxHeld p.port + body.length) }
    let side : RxSide := { len := body.length, ts := h.ts, ecp := p.ecp, ecpErr := p.bad.isSome, concat := p.concat,
                           vlans := p.vlans, mtype := p.mtype, id := p.id, seq := p.seq, tag := p.tag }
    (d.inc (ETH_RXF_COUNT m)).out (.ethRx m p.port side body)

/-- The end of a frame: its port's buffer, then its checks, then its port (R201, R215). -/
def Dev.rxEnd (d : Dev) (m : Nat) (h : RxHead) (rest : List Byte) (coding inBad isolated : Bool) : Dev :=
  let bytes := h.bytes ++ rest
  let n := bytes.length
  let body := bytes.take (n - 4)
  let p := h.parsed.settle (n - 4)
  if inBad then d
  else if d.rxRoom m < SMap.at 0 (d.mac m).rxHeld p.port + body.length then d.portDiscard m p.port 0
  else if coding then d.ethDiscard m 2
  else if n < 64 then d.ethDiscard m 0
  else if d.maxLen m < n then d.ethDiscard m 1
  else if leBytes 4 (crc32 body).toNat != bytes.drop (n - 4) then
    let d := (d.on (ETH_STAT_FCS m)).inc (ETH_RXE_FCS m)
    let c := d.rf (ETH_RXE_FCS m)
    d.ethLogLimited 0x16 m 0x02 .warn [c, c / 256, 0, 0]
  else d.rxDeliver m h p body isolated

/-- What a receive port's user has taken out of its buffers, port 0 first, leaves them. -/
def Mac.drain (x : Mac) (drained : List Nat) : SMap Nat :=
  (List.range 4).foldl (fun h p => SMap.set 0 h p (SMap.at 0 x.rxHeld p - drained.getD p 0)) x.rxHeld

/-- A received frame: its header is parsed and its timestamp taken, or it ends. An end without a start is a coding
error (Table ETH-5). -/
def execRxFrame (m : Fin 32) (part : RxPart) (s : State) : Out :=
  s.act (fun d =>
    if !d.macLive m then d else
    let x := d.mac m
    match part with
    | .head stamp b => d.setMac m { x with rxNow := some { ts := d.rxStamp m stamp, bytes := b, parsed := d.ecpParse m b } }
    | .tail rest coding inBad fec isolated drained =>
      let d := (d.fecCount m fec).setMac m { x with rxNow := none, rxHeld := x.drain drained }
      match x.rxNow with
      | none => d.ethDiscard m 2
      | some h => d.rxEnd m h rest coding inBad isolated)

/-! ## Transmit (R202, R203, R206, R207) -/

/-- Bytes of the transmit buffer: 32 KiB, or 128 KiB pooled in a group. -/
def Dev.txRoom (d : Dev) (m : Nat) : Nat := if ethSpeed (d.rd (ETH_CFG m)) = 2 then 131072 else 32768

/-- The one's-complement sum weight of byte `o` for a checksum at `c`. -/
def csumWeight (c o : Nat) : Int := if o % 2 = c % 2 then 256 else 1

/-- The weighted sum of `n` bytes at `o`. -/
def csumOver (b : List Byte) (c o n : Nat) : Int :=
  ((List.range n).map (fun i => csumWeight c (o + i) * ((b.getD (o + i) 0).toNat : Int))).sum

/-- The seconds and the rounded nanoseconds of a timestamp, big-endian (R207). -/
def tsBytes (ts : BitVec 96) : List Byte :=
  let sec := ts.toNat / 2 ^ 48
  let ns := ts.toNat / 2 ^ 16 % 2 ^ 32 + (if ts.toNat % 2 ^ 16 < 2 ^ 15 then 0 else 1)
  if ns = 1000000000 then beBytes 6 (sec + 1) ++ beBytes 4 0 else beBytes 6 sec ++ beBytes 4 ns

/-- Write the frame's own timestamp into it and adjust its UDP checksum (R207). -/
def oneStepWrite (f : EthTx) (ts : BitVec 96) : List Byte :=
  if !f.oneStep then f.bytes else
  let o := f.tsOfs.toNat
  let c := f.csumOfs.toNat
  let new := putBytes f.bytes o (tsBytes ts)
  if c = 0 then new else
    let x := ((beNat (bytesAt f.bytes c 2) : Int) - (csumOver new c o 10 - csumOver f.bytes c o 10)) % 65535
    putBytes new c (beBytes 2 (if x = 0 then 65535 else x.toNat))

/-- Is the frame refused whole (R202)? -/
def Dev.txRefused (d : Dev) (m : Nat) (f : EthTx) : Bool :=
  decide (d.maxLen m - 4 < f.bytes.length) ||
    (f.oneStep && (decide (f.bytes.length < f.tsOfs.toNat + 10) ||
      (f.csumOfs != 0 && decide (f.bytes.length < f.csumOfs.toNat + 2))))

/-- The bytes that pad a frame to 60: the spec gives them no value. -/
def Dev.padTo60 (d : Dev) (b : List Byte) : List Byte × Dev :=
  (List.range (60 - b.length)).foldl (fun (b, d) _ => let (w, d) := d.draw; (b ++ [w.setWidth 8], d)) (b, d)

/-- Send a frame whose timestamp is `ts`; with TS_REQ the tag comes back with that timestamp (R206, R207). -/
def Dev.ethSend (d : Dev) (m : Nat) (f : EthTx) (ts : BitVec 96) : Dev :=
  let (b, d) := d.padTo60 (oneStepWrite f ts)
  let fcs := if f.poison then ~~~(crc32 b) else crc32 b
  let d := (d.inc (ETH_TXF_COUNT m)).out (.ethTx m (b ++ leBytes 4 fcs.toNat))
  let n := f.bytes.length
  let d := if f.poison then (d.on (ETH_STAT_TX_PSN m)).ethLog 0x16 m 0x0B .error [n, n / 256, 0, 0] else d
  if f.tsReq then d.setMac m { (d.mac m) with tsWait := (d.mac m).tsWait ++ [(f.tsTag.toNat, ts)] } else d

/-- Bytes in the transmit buffer. -/
def Mac.txUsed (x : Mac) : Nat := (x.txq.map (fun g => g.bytes.length)).sum + x.txPart

/-- The port's ready output: is there room for the next word, of 8 bytes, or 32 at a group's port (R202)? -/
def Dev.txReady (d : Dev) (m : Nat) : Bool :=
  decide ((d.mac m).txUsed + (if ethSpeed (d.rd (ETH_CFG m)) = 2 then 32 else 8) ≤ d.txRoom m)

/-- What the port presents enters the transmit buffer where there is room; a frame that R202 refuses does not. -/
def Dev.txPort (d : Dev) (m : Nat) (p : PortTx) : Dev :=
  let x := d.mac m
  match p with
  | .idle => d
  | .words n => if d.txRoom m < x.txUsed + n then d else d.setMac m { x with txPart := x.txPart + n }
  | .cut => d.setMac m { x with txPart := 0 }
  | .frame f =>
    if f.bytes.length = 0 then d
    else if d.txRefused m f then
      ((d.setMac m { x with txPart := 0 }).on (ETH_STAT_TX_REJ m)).out (.ethReject m stLENGTH) |>.ethLog 0x16 m 0x06 .warn
        [f.bytes.length, f.bytes.length / 256, 0, 0]
    else if d.txRoom m < { x with txPart := 0 }.txUsed + f.bytes.length then d
    else d.setMac m { x with txPart := 0, txq := x.txq ++ [f] }

/-- The transmit port takes what comes, the oldest frame that lies whole in the buffer starts if the link is up, and the
ready output follows (R202, R204). -/
def execTxFrame (m : Fin 32) (port : PortTx) (stamp : StampPoint) (s : State) : Out :=
  s.act (fun d =>
    if !d.macLive m then d else
    let d := d.txPort m port
    let d := match (d.mac m).txq with
      | [] => d
      | f :: q =>
        if d.bit (ETH_STAT_LINK m) then (d.setMac m { (d.mac m) with txq := q }).ethSend m f (d.txStamp m stamp) else d
    d.out (.ethReady m (d.txReady m)))

/-- The timestamp of the oldest TS_REQ frame sent comes back, the one that frame carried (R206, R207). -/
def execTxTimestamp (m : Fin 32) (s : State) : Out :=
  s.act (fun d =>
    match (d.mac m).tsWait with
    | [] => d
    | (tag, ts) :: rest =>
      let x := { (d.mac m) with tsWait := rest }
      let d := (d.setMac m x).out (.ethTs m tag ts)
      if x.txts.length < 64 then d.setMac m { x with txts := x.txts ++ [(tag, ts)] }
      else (d.on (ETH_STAT_TS_OVF m)).ethLog 0x16 m 0x07 .note [tag, tag / 256, 0, 0])

/-- A read of ETH_TXTS_TAG: the oldest entry leaves the FIFO and its timestamp is held (R206). -/
def Dev.txtsTagRead (d : Dev) (m : Nat) : Dev :=
  match (d.mac m).txts with
  | [] => { d with resp := .data 0 }
  | (tag, ts) :: rest =>
    let d := d.setMac m { (d.mac m) with txts := rest }
    let sec := ts.toNat / 2 ^ 48
    let d := (d.wr (ETH_TXTS_SEC m) (BitVec.ofNat 32 sec)).wr (ETH_TXTS_NS m) (BitVec.ofNat 32 (ts.toNat / 2 ^ 16))
    let d := (d.wf (ETH_TXTS_X_SEC_HI m) (sec / 2 ^ 32)).wf (ETH_TXTS_X_FRAC m) ts.toNat
    { d with resp := .data (BitVec.ofNat 32 (tag % 65536 + 65536)) }

def execTxtsTagRead (_rq : Requester) (m : Fin 32) (s : State) : Out :=
  s.busWrite (ETH_TXTS_TAG m) (fun d => d.txtsTagRead m)

/-! ## Converter links: start and state (R209 to R211) -/

def jOFF : Nat := 0
def jALIGN : Nat := 1
def jWAIT : Nat := 2
def jRUN : Nat := 3

/-- The global lanes a link's mask claims, logical lane 0 first. -/
def Dev.linkLanes (d : Dev) (j : Nat) : List Nat :=
  ((List.range 16).filter (fun i => (d.rf (JLK_LANES_MASK j)).testBit i)).map (fun i => 16 * j + i)

/-- Multiblocks per extended multiblock, 0 acting as 32. -/
def linkE (v : Word) : Nat := let e := fieldGet 6 5 v; if e = 0 then 32 else e

/-- Does a tick lie on the link's LEMC grid (R210)? -/
def Dev.onLemc (d : Dev) (j t : Nat) : Bool :=
  let pe := d.rf (JLK_INFO_PE j)
  pe != 0 && ((t : Int) - (d.rf (JLK_LEMC_OFS j) : Int)) % (pe : Int) == 0

/-- Does the SYSREF output named keep to the rule of R210? -/
def Dev.sysrefFits (d : Dev) (j sys pe : Nat) : Bool :=
  let per := d.rf (CTY_SYSs_PER_PER sys)
  per != 0 && per % pe == 0 &&
    ((d.rf (CTY_SYSs_OFS_OFS sys) : Int) - (d.rf (JLK_LEMC_OFS j) : Int)) % (pe : Int) == 0

/-- A change of STATE (JLK 0x01). -/
def Dev.linkState (d : Dev) (j st : Nat) : Dev :=
  let old := d.rf (JLK_STAT_STATE j)
  if old = st then d else
  ((d.wf (JLK_STAT_STATE j) st).on (JLK_STAT_STATE_EV j)).ethLog 0x17 j 0x01 .info [old, st, 0, 0]

/-- The lanes' common rate in 2,027,520 kb/s, if they have one that Table JLK-1 lists. -/
def Dev.linkRate (d : Dev) (j : Nat) (rx : Bool) : Option Nat :=
  match (d.linkLanes j).map (fun l => d.laneRate16 l rx) with
  | [] => none
  | r :: rs =>
    let k := r / 32440320
    if rs.all (fun x => x == r) && r % 32440320 == 0 && decide (1 ≤ k) && decide (k ≤ 16) then some k else none

/-- The start checks in their order: the status, the octets per lane and tick, and P_E (R209). -/
def Dev.linkCheck (d : Dev) (j : Nat) (v : Word) : Nat × Nat × Nat :=
  let ls := d.linkLanes j
  let rx := !v.getLsbD 1
  if ls.length = 0 then (stDONE, 0, 0)
  else if 8 < ls.length then (stLENGTH, 0, 0)
  else if !(ls.all (fun l => d.laneOwner l == 3 && d.laneMode l == 0)) then (stACCESS, 0, 0)
  else match d.linkRate j rx with
    | none => (stACCESS, 0, 0)
    | some k =>
      let pe := 256 * linkE v / k
      let rbd := fieldGet 12 12 v
      if 256 * linkE v % k != 0 || decide (4096 < pe) || decide (rbd < 1) || decide (pe < rbd) then (8, 0, 0)
      else if !d.sysrefFits j (fieldGet 2 3 v) pe then (9, 0, 0)
      else (stDONE, k, pe)

/-- A refused write of a link that runs (JLK 0x02): the spec gives no status for it, so that byte is free. -/
def Dev.linkWriteRefused (d : Dev) (j : Nat) : Dev :=
  let (w, d) := d.draw
  d.ethLog 0x17 j 0x02 .warn [w.toNat, 0, 0, 0]

/-- A write of JLK_CFG. -/
def Dev.jlkCfgWrite (d : Dev) (j : Nat) (v : Word) : Dev :=
  if !v.getLsbD 0 then (((d.plainWrite (JLK_CFG j) v).linkState j jOFF).setJlk j Jlk.idle)
  else if d.bit (JLK_CFG_EN j) then d.linkWriteRefused j
  else
    let (st, k, pe) := d.linkCheck j v
    let d := d.wf (JLK_STAT_START j) st
    if k = 0 then
      let d := d.plainWrite (JLK_CFG j) (v &&& ~~~(1 : Word))
      if st = stDONE then d else d.ethLog 0x17 j 0x02 .warn [st, 0, 0, 0]
    else
      let d := d.plainWrite (JLK_CFG j) v
      let d := ((d.wf (JLK_INFO_O j) k).wf (JLK_INFO_L j) (d.linkLanes j).length).wf (JLK_INFO_PE j) pe
      (d.setJlk j { Jlk.idle with runFrom := d.slate + 64 }).linkState j jALIGN

/-- A write of JLK_LANES or JLK_LEMC, refused while EN is set. -/
def Dev.jlkPlainWrite (d : Dev) (j a : Nat) (v : Word) : Dev :=
  if d.bit (JLK_CFG_EN j) then d.linkWriteRefused j else d.plainWrite a v

def execLinkEnable (_rq : Requester) (j : Fin 32) (v : Word) (s : State) : Out :=
  s.busWrite (JLK_CFG j) (fun d => d.jlkCfgWrite j v)

/-- Does the link run at all: enabled, its domain up and its clock on? -/
def Dev.linkLive (d : Dev) (j : Nat) : Bool := d.bit (JLK_CFG_EN j) && d.domainUp 27 && d.clocked (JLK_CFG j)

/-- The link goes back to ALIGN. -/
def Dev.linkRealign (d : Dev) (j : Nat) : Dev :=
  ((d.setJlk j { Jlk.idle with runFrom := (d.jlk j).runFrom, wordAt := (d.jlk j).wordAt }).on (JLK_STAT_RESYNC j)).linkState j jALIGN

/-- Every lane of a receive link has gained its extended multiblock lock (R211). -/
def execEmbLock (j : Fin 32) (s : State) : Out :=
  s.act (fun d =>
    if d.linkLive j && !d.bit (JLK_CFG_DIR j) && d.rf (JLK_STAT_STATE j) == jALIGN &&
        (d.linkLanes j).all (fun l => d.blkLock l) then d.linkState j jWAIT
    else d)

/-- The LEMC boundary of this tick (R211, R213). -/
def execLemcBoundary (j : Fin 32) (s : State) : Out :=
  s.act (fun d =>
    if !d.linkLive j || !d.onLemc j d.slate then d
    else if !d.bit (JLK_CFG_DIR j) then
      if d.rf (JLK_STAT_STATE j) == jWAIT then d.linkState j jRUN else d
    else if d.rf (JLK_STAT_STATE j) == jALIGN && decide ((d.jlk j).runFrom ≤ d.slate) then d.linkState j jRUN
    else d)

/-- A lane of a receive link loses its extended multiblock lock (R212). -/
def Dev.embLost (d : Dev) (j lane : Nat) : Dev :=
  if !d.linkLive j || d.bit (JLK_CFG_DIR j) || decide (d.rf (JLK_STAT_STATE j) < jWAIT) then d
  else
    let d := (d.on (JLK_STAT_EMB_LOSS j)).ethLog 0x17 j 0x05 .warn [lane, 0, 0, 0]
    d.linkRealign j

def execEmbLockLoss (j : Fin 32) (lane : Fin 8) (s : State) : Out := s.act (fun d => d.embLost j lane)

/-- A lane of a link has lost block lock: the links that claim it lose their extended multiblock lock
(Table JLK-3). -/
def Dev.linkLaneLost (d : Dev) (l : Nat) : Dev :=
  let j := l / 16
  match (d.linkLanes j).findIdx? (fun x => x == l) with
  | some i => d.embLost j i
  | none => d

/-- The poison bits, one per 64 bits, of a word some of whose octets are poisoned (R211, R212). -/
def octetPoison (l : List Bool) : BitVec 16 :=
  l.zipIdx.foldl (fun p (b, i) => if b then p ||| ((1 : BitVec 16) <<< (i / 8)) else p) 0

/-- ARRIVAL and MARGIN, once an extended multiblock has opened on every lane (R212). -/
def Dev.linkArrival (d : Dev) (j arrival : Nat) : Dev :=
  let a := satU 16 arrival
  let mg : Int := (d.rf (JLK_CFG_RBD j) : Int) * 256 - (a : Int)
  (d.wf (JLK_RXLAT_ARRIVAL j) a).wfs (JLK_RXLAT_MARGIN j) (min (d.rfs (JLK_RXLAT_MARGIN j)) (satTo 16 mg))

/-- A late word (R212). -/
def Dev.linkLate (d : Dev) (j : Nat) : Dev :=
  let rbd := d.rf (JLK_CFG_RBD j)
  let arrival := d.rf (JLK_RXLAT_ARRIVAL j)
  let d := ((d.on (JLK_STAT_LATE j)).inc (JLK_CNT_LATE j)).ethLogLimited 0x17 j 0x04 .error
    [arrival, arrival / 256, rbd, rbd / 256]
  let x := d.jlk j
  if x.lateNow then d
  else if x.lateRun = 3 then (d.ethLog 0x17 j 0x06 .warn [0, 0, 0, 0]).linkRealign j
  else d.setJlk j { x with lateNow := true, lateRun := x.lateRun + 1 }

/-- A CRC-12 mismatch on a logical lane (R212). -/
def Dev.linkCrc (d : Dev) (j i : Nat) : Dev :=
  let d := (d.on (JLK_STAT_CRC j)).inc (JLK_CNT_CRC j)
  let c := d.rf (JLK_CNT_CRC j)
  d.ethLogLimited 0x17 j 0x03 .warn [i, c, c / 256, 0]

def Jlk.lane (x : Jlk) (i : Nat) : LinkLane := SMap.at LinkLane.idle x.rx i
def Dev.setLinkLane (d : Dev) (j i : Nat) (y : LinkLane) : Dev :=
  d.setJlk j { (d.jlk j) with rx := SMap.set LinkLane.idle (d.jlk j).rx i y }

/-- The last LEMC boundary up to this tick. -/
def Dev.lastLemc (d : Dev) (j : Nat) : Nat :=
  ((d.slate : Int) - ((d.slate : Int) - (d.rf (JLK_LEMC_OFS j) : Int)) % (d.rf (JLK_INFO_PE j) : Int)).toNat

/-- The first octet of an extended multiblock arrives on a lane (R211, R212): it has the number of the last LEMC boundary,
and once every lane has opened that one ARRIVAL is known. -/
def Dev.embOpens (d : Dev) (j i : Nat) (ph : BitVec 8) : Dev :=
  let b := d.lastLemc j
  let n := b * d.rf (JLK_INFO_O j)
  let y := (d.jlk j).lane i
  let y := if y.pos.map (· + y.q.length) = some n then y else { y with q := [], pos := some n }
  let d := d.setLinkLane j i { y with opened := some (b, (d.slate - b) * 256 + ph.toNat) }
  let all := (List.range (d.rf (JLK_INFO_L j))).map (fun k => ((d.jlk j).lane k).opened)
  if all.all (fun o => o.any (fun p => p.1 == b)) then
    d.linkArrival j (all.foldl (fun m o => match o with | some p => max m p.2 | none => m) 0)
  else d

/-- One octet enters a lane's buffer. At the first octet of a multiblock, of 256, its CRC-12 is judged: a mismatch poisons
every octet of it (R212). -/
def Dev.octetIn (d : Dev) (j i : Nat) (bad : Bool) (x : Byte) : Dev :=
  let y := (d.jlk j).lane i
  match y.pos with
  | none => d
  | some p =>
    let first := ((p + y.q.length : Nat) : Int) % 256 == ((d.rf (JLK_LEMC_OFS j) * d.rf (JLK_INFO_O j) : Nat) : Int) % 256
    let miss := bad && d.bit (JLK_CFG_CRC_EN j)
    let now := if first then miss else y.bad
    let d := if first && miss && decide (jWAIT ≤ d.rf (JLK_STAT_STATE j)) then d.linkCrc j i else d
    d.setLinkLane j i { y with q := y.q ++ [(x, now)], bad := now }

/-- Octets arrive on a lane that holds its locks. Beyond one extended multiblock and 64 blocks the lane has lost its
place until the next opening (R211). -/
def Dev.chunkIn (d : Dev) (j : Nat) (c : LinkChunk) : Dev :=
  match (d.linkLanes j)[c.lane.val]? with
  | none => d
  | some l =>
    if !(d.rxTakes l && d.blkLock l) then d else
    let d := match c.opens with | some ph => d.embOpens j c.lane ph | none => d
    let d := c.octets.foldl (fun d x => d.octetIn j c.lane c.bad x) d
    if 256 * linkE (d.rd (JLK_CFG j)) + 512 < ((d.jlk j).lane c.lane).q.length then
      d.setLinkLane j c.lane { ((d.jlk j).lane c.lane) with q := [], pos := none }
    else d

/-- Octets with a number below `p` are past their release. -/
def LinkLane.dropTo (p : Nat) (y : LinkLane) : LinkLane :=
  match y.pos with
  | none => y
  | some n => let k := min (p - n) y.q.length; { y with q := y.q.drop k, pos := some (n + k) }

/-- The `o` octets of the word that begins at number `p`, if they have all arrived. -/
def LinkLane.word (o p : Nat) (y : LinkLane) : Option (List (Byte × Bool)) :=
  if y.pos = some p ∧ o ≤ y.q.length then some (y.q.take o) else none

/-- The octets of all lanes, logical lane 0 first, if every lane has its own. -/
def joinLanes : List (Option (List (Byte × Bool))) → Option (List (Byte × Bool))
  | [] => some []
  | some w :: r => (joinLanes r).map (w ++ ·)
  | none :: _ => none

/-- The release of this tick's word, RBD ticks after the converter began it (R211, R212). -/
def Dev.linkRelease (d : Dev) (j : Nat) : Dev :=
  let o := d.rf (JLK_INFO_O j)
  let l := d.rf (JLK_INFO_L j)
  let p := (d.slate - d.rf (JLK_CFG_RBD j)) * o
  let d := (List.range l).foldl (fun d i => d.setLinkLane j i (((d.jlk j).lane i).dropTo p)) d
  if d.rf (JLK_STAT_STATE j) != jRUN then d else
  let emb := d.onLemc j (d.slate + d.rf (JLK_INFO_PE j) - d.rf (JLK_CFG_RBD j))
  let x := d.jlk j
  let d := if emb then d.setJlk j { x with lateRun := if x.lateNow then x.lateRun else 0, lateNow := false } else d
  match joinLanes ((List.range l).map (fun i => ((d.jlk j).lane i).word o p)) with
  | some w => d.out (.jlkRx j emb (w.map (·.1)) (octetPoison (w.map (·.2))))
  | none => (d.out (.jlkRx j emb (List.replicate (o * l) 0) 0xFFFF)).linkLate j

/-- A tick of a receive link: the octets that arrive on its lanes, and in RUN the word at its port (R211, R212). -/
def execRxLinkWord (j : Fin 32) (chunks : List LinkChunk) (s : State) : Out :=
  s.act (fun d =>
    if !d.linkLive j || d.bit (JLK_CFG_DIR j) || d.rf (JLK_STAT_STATE j) == jOFF || (d.jlk j).wordAt == some d.slate then d
    else ((chunks.foldl (fun d c => d.chunkIn j c) (d.setJlk j { (d.jlk j) with wordAt := some d.slate })).linkRelease j))

/-- The lanes whose octets a poisoned word's poison bits touch. -/
def poisonLanes (o l : Nat) (p : BitVec 16) : Nat :=
  ((List.range l).map (fun i => if (List.range o).any (fun k => p.getLsbD ((i * o + k) / 8)) then 2 ^ i else 0)).sum

/-- A tick of a transmit link: the word that user logic presents enters the lanes two ticks on; before RUN the sync
header stream carries zero data (R213). -/
def execTxLinkWord (j : Fin 32) (word : Option LinkWord) (s : State) : Out :=
  s.act (fun d =>
    if !d.linkLive j || !d.bit (JLK_CFG_DIR j) || d.rf (JLK_STAT_STATE j) == jOFF || (d.jlk j).wordAt == some d.slate then d
    else
    let d := d.setJlk j { (d.jlk j) with wordAt := some d.slate }
    let o := d.rf (JLK_INFO_O j)
    let l := d.rf (JLK_INFO_L j)
    let opens := d.onLemc j (d.slate + 2)
    match (if d.rf (JLK_STAT_STATE j) = jRUN then word else none) with
    | none => d.out (.jlkTx j (d.slate + 2) opens (List.replicate (o * l) 0))
    | some w =>
      let mask := poisonLanes o l w.poison
      let b := (List.range (o * l)).map (fun i => if mask.testBit (i / o) then 0 else w.octets.getD i 0)
      let d := d.out (.jlkTx j (d.slate + 2) opens b)
      if w.poison = 0 then d else (d.on (JLK_STAT_TX_PSN j)).ethLog 0x17 j 0x07 .error [mask, 0, 0, 0])

/-! ## When things meet (R214) -/

/-- A Slate step: every link in RUN goes to ALIGN at once, and what waits for its release has lost its place. -/
def Dev.jlkStepped (d : Dev) : Dev :=
  (List.range 32).foldl (fun d j =>
    let d := if d.linkLive j then d.setJlk j { (d.jlk j) with rx := [] } else d
    if d.linkLive j && d.rf (JLK_STAT_STATE j) == jRUN then
      let d := (d.ethLog 0x17 j 0x06 .warn [1, 0, 0, 0]).linkRealign j
      d.setJlk j { (d.jlk j) with runFrom := d.slate }
    else d) d

/-- Transmit lanes and SYSREF of the links in RUN: each loss is logged once (JLK 0x08). -/
def Dev.linkSettle (d : Dev) : Dev :=
  (List.range 32).foldl (fun d j =>
    if d.linkLive j && d.rf (JLK_STAT_STATE j) == jRUN then
      let d := if d.bit (JLK_CFG_DIR j) then
          (d.linkLanes j).zipIdx.foldl (fun d (l, i) =>
            let up := d.txState l == lON && d.txPllLock l
            let x := d.jlk j
            if up then d.setJlk j { x with lost := x.lost &&& ~~~((1 : BitVec 8) <<< i) }
            else if x.lost.getLsbD i then d
            else (d.setJlk j { x with lost := x.lost ||| ((1 : BitVec 8) <<< i) }).ethLog 0x17 j 0x08 .warn [0, i, 0, 0]) d
        else d
      let fits := d.sysrefFits j (d.rf (JLK_CFG_SYS j)) (d.rf (JLK_INFO_PE j))
      let x := d.jlk j
      if fits then d.setJlk j { x with sysLost := false }
      else if x.sysLost then d
      else (d.setJlk j { x with sysLost := true }).ethLog 0x17 j 0x08 .warn [1, 0, 0, 0]
    else d) d

/-- P27 goes off: MACs and links of both dies stop and their buffers are lost (Table ETH-4). -/
def Dev.ethOff (d : Dev) : Dev := { d with eth := { d.eth with macs := [], links := [] } }

end Sys2Proof.Machine
end

