-- ==== Sys2Proof/Machine/Mesh.lean ====
section
/-! DEFINITION. The mesh: ports and links, time across them, the forming, losing and meeting of systems
(10_mesh_multidevice). Clappers, barriers and data stand in Machine/Clapper.lean. -/
namespace Sys2Proof.Machine
open Reg

def Dev.mport (d : Dev) (p : Nat) : MeshPort := SMap.at MeshPort.idle d.mesh.ports p
def Dev.setMport (d : Dev) (p : Nat) (x : MeshPort) : Dev :=
  { d with mesh := { d.mesh with ports := SMap.set MeshPort.idle d.mesh.ports p x } }

/-- Link states (MSH_PORTp_STAT) and device states (Table MSH-2). -/
def mDOWN : Nat := 0
def mTRAINING : Nat := 1
def mUP : Nat := 2
def mHELD : Nat := 3
def mOFF : Nat := 0
def mALONE : Nat := 1
def mSEEK : Nat := 2
def mMEMBER : Nat := 3
def mROOT : Nat := 4
def mSTEPPING : Nat := 5

/-- Link causes (Table MSH-8). -/
def cDISABLED : Nat := 0
def cLANE : Nat := 1
def cRETRY : Nat := 2
def cLONG : Nat := 3
def cDUPLICATE : Nat := 4
def cPROTOCOL : Nat := 5
def cFLAP : Nat := 6
def cCONFIG : Nat := 7

def Dev.mstate (d : Dev) : Nat := d.rf MSH_STAT_STATE
def Dev.pstate (d : Dev) (p : Nat) : Nat := d.rf (MSH_PORTp_STAT_STATE p)

/-- The ports whose links are UP. -/
def Dev.upPorts (d : Dev) : List Nat := (List.range 16).filter (fun p => d.pstate p == mUP)

/-- A record of the MSH block (R239). -/
def Dev.meshLog (d : Dev) (code : Nat) (sev : Sev) (det : List Nat) : Dev := d.log 0x0C code sev det

/-- A configuration or protocol violation (MSH 0x0D). -/
def Dev.meshViolation (d : Dev) (p typ cause : Nat) : Dev := d.meshLog 0x0D .warn [p, typ, cause, 0, 0]

/-- Does the controller run: P29 on and its clock on? -/
def Dev.meshLive (d : Dev) : Bool := d.domainUp 29 && d.clocked MSH_CFG

/-! ## Sending (R220, R221) -/

/-- TYPE codes (Table MSH-1). -/
def MeshBody.typ : MeshBody → Nat
  | .hello .. | .candidate .. => 1
  | .delay => 2
  | .ack .. => 3
  | .nak .. => 4
  | .credit .. => 5
  | .beat .. => 6
  | .map .. => 7
  | .clapper .. => 8
  | .report .. => 9
  | .data .. | .loadReq .. => 10

/-- A packet's size in bytes: header, payload and CRC-32C. -/
def MeshPkt.size (x : MeshPkt) : Nat :=
  match x.body with
  | .data _ b => 12 + (b.length + 7) / 8 * 8
  | b => 12 + 8 * Config.meshWords b.typ

/-- Its credit, in units of 64 bytes (R221). -/
def MeshPkt.units (x : MeshPkt) : Nat := (x.size + 63) / 64

def vcKey (vc : Bool) : Nat := vc.toNat

/-- Put a packet on the link: it takes the next sequence number of its VC and stays in the replay buffer. -/
def Dev.meshEmit (d : Dev) (p : Nat) (x : MeshPkt) : Dev :=
  let m := d.mport p
  let k := vcKey x.vc
  let q := SMap.at 0 m.txSeq k
  let d := d.setMport p { m with txSeq := SMap.set 0 m.txSeq k ((q + 1) % 4096),
                                 kept := m.kept ++ [{ pkt := x, seq := q, sent := d.slate, resends := 0 }] }
  d.out (.meshTx p x.vc x.dst x.src q x.body)

/-- The bytes the replay buffer holds. -/
def MeshPort.keptBytes (m : MeshPort) : Nat := (m.kept.map (fun k => k.pkt.size)).sum

/-- Send what waits, in order, as far as credit and the replay buffer reach; a packet of one VC does not wait for one
of the other. -/
def Dev.meshPumpVc (d : Dev) (p : Nat) (vc : Bool) : Nat → Dev
  | 0 => d
  | n + 1 =>
    let m := d.mport p
    match m.waiting.find? (fun x => x.vc == vc) with
    | none => d
    | some x =>
      let c := SMap.at 0 m.credit (vcKey vc)
      if c < x.units || decide (65536 < m.keptBytes + x.size) then d
      else
        let d := d.setMport p { m with waiting := m.waiting.erase x, credit := SMap.set 0 m.credit (vcKey vc) (c - x.units) }
        (d.meshEmit p x).meshPumpVc p vc n

def Dev.meshPump (d : Dev) (p : Nat) : Dev :=
  let n := (d.mport p).waiting.length
  (d.meshPumpVc p false n).meshPumpVc p true n

/-- Hand a packet to a link: control before data. -/
def Dev.meshSend (d : Dev) (p : Nat) (vc : Bool) (dst src : Nat) (b : MeshBody) : Dev :=
  if d.pstate p != mUP then d else
  let m := d.mport p
  (d.setMport p { m with waiting := m.waiting ++ [{ vc := vc, dst := dst, src := src, body := b }] }).meshPump p

/-- A packet to the neighbour. -/
def Dev.meshNear (d : Dev) (p : Nat) (b : MeshBody) : Dev := d.meshSend p false 0x3FF (d.rf MSH_STAT_NUM) b

/-- A packet that needs no credit: HELLO, DELAY and CREDIT, which pass in training too. -/
def Dev.meshLink (d : Dev) (p : Nat) (b : MeshBody) : Dev :=
  d.meshEmit p { vc := false, dst := 0x3FF, src := d.rf MSH_STAT_NUM, body := b }

/-- Grant the neighbour credit for a VC (R221). -/
def Dev.creditGrant (d : Dev) (p : Nat) (vc : Bool) (units : Nat) : Dev :=
  let m := d.mport p
  (d.setMport p { m with grant := SMap.set 0 m.grant (vcKey vc) (SMap.at 0 m.grant (vcKey vc) + units) }).meshLink p (.credit vc units)

/-- ACK and NAK, which are not themselves numbered. -/
def Dev.meshReply (d : Dev) (p : Nat) (vc : Bool) (b : MeshBody) : Dev :=
  d.out (.meshTx p vc 0x3FF (d.rf MSH_STAT_NUM) 0 b)

/-- Send along the routing table (R227); with no VALID entry the packet is discarded (MSH 0x0D). -/
def Dev.meshRoute (d : Dev) (vc : Bool) (dst src : Nat) (b : MeshBody) : Dev :=
  if d.bit (MSH_RTd_VALID dst) && !d.bit (MSH_RTd_LOCAL dst) then d.meshSend (d.rf (MSH_RTd_PORT dst)) vc dst src b
  else
    let (w, d) := d.draw
    (d.inc MSH_CNT_DISC).meshViolation (w.toNat % 256) b.typ cPROTOCOL

/-- REPORTs that wait are sent as far as routes to their origins are known. -/
def Dev.reportsFlush (d : Dev) : Dev :=
  let known := fun (r : ClapReport) => d.bit (MSH_RTd_VALID r.origin.toNat) && !d.bit (MSH_RTd_LOCAL r.origin.toNat)
  let l := d.mesh.reports.filter known
  l.foldl (fun d r => d.meshRoute false r.origin.toNat (d.rf MSH_STAT_NUM) (.report r))
    { d with mesh := { d.mesh with reports := d.mesh.reports.filter (fun r => !known r) } }

/-- Send to the devices below in the tree. -/
def Dev.meshDown (d : Dev) (b : MeshBody) : Dev := d.mesh.kids.foldl (fun d p => d.meshNear p b) d

/-! ## Link states (R218, R219, R222) -/

/-- The global lanes of a port. -/
def Dev.portLanes (d : Dev) (p : Nat) : List Nat :=
  (List.range (d.rf (MSH_PORTp_CFG_WIDTH p) + 1)).map (fun i => p / 8 * 256 + 4 * d.rf (MSH_PORTp_CFG_QUAD p) + i)

/-- Do the lanes have OWNER 4, run PCS66, and run both directions at one of the two rates of R218? -/
def Dev.portFits (d : Dev) (p : Nat) : Bool :=
  (d.portLanes p).all (fun l => d.laneOwner l == 4 && d.laneMode l == 0 && d.laneRate16 l false == d.laneRate16 l true &&
    (d.laneRate16 l false == 412500000 || d.laneRate16 l false == 524000000))

/-- A new link state: MSH_EVT.LINK sets. -/
def Dev.setPstate (d : Dev) (p st cause : Nat) : Dev :=
  if d.pstate p = st then d.wf (MSH_PORTp_STAT_CAUSE p) cause
  else ((d.wf (MSH_PORTp_STAT_STATE p) st).wf (MSH_PORTp_STAT_CAUSE p) cause).on MSH_EVT_LINK

/-- The enabled Continuity slots of kind 0x5 lose their upstream (R223). -/
def Dev.meshSlotsLost (d : Dev) : Dev :=
  (List.range 8).foldl (fun d n => if d.rf (CTY_REFn_CFG_KIND n) == 5 then d.slotLost n .noSignal else d) d

/-- The device's present tree is gone. -/
def Dev.meshNoTree (d : Dev) : Dev :=
  let d := (d.off MSH_TOPO_UP_VALID).off MSH_TOPO_UP
  { d with mesh := { d.mesh with kids := [] } }

/-- The device with no system. -/
def Dev.meshForget (d : Dev) : Dev :=
  let d := (d.resetRange (MSH_RTd 0) (MSH_RTd 1023)).wr MSH_TOPO 0
  { d.meshNoTree with mesh := { d.meshNoTree.mesh with root := none, joined := false, best := none, dist := 0, serials := [] } }

/-- The port no longer carries packets: what it held is gone, and what hung on it is lost (R223, Table MSH-2). -/
def Dev.portGone (d : Dev) (p : Nat) : Dev :=
  let d := d.setMport p MeshPort.idle
  let d := { d with mesh := { d.mesh with kids := d.mesh.kids.filter (fun k => k != p) } }
  let d := if d.bit MSH_TOPO_UP_VALID && d.rf MSH_TOPO_UP == (p : Nat) then
      ((d.off MSH_TOPO_UP_VALID).off MSH_TOPO_UP).meshSlotsLost
    else d
  if d.upPorts.isEmpty && (d.mstate == mSEEK || d.mstate == mMEMBER || d.mstate == mROOT) then
    d.meshForget.wf MSH_STAT_STATE mALONE
  else d

/-- The port is HELD (MSH 0x04). -/
def Dev.portHeld (d : Dev) (p cause : Nat) : Dev :=
  let d := (d.setPstate p mHELD cause).meshLog 0x04 .warn [p, cause, 0, 0, 0]
  ({ d with mesh := { d.mesh with heldAt := SMap.set 0 d.mesh.heldAt p d.slate } }).portGone p

/-- The link goes DOWN (MSH 0x02); the fourth time within a second it is HELD for flapping (R222). -/
def Dev.linkDown (d : Dev) (p cause : Nat) : Dev :=
  if d.pstate p != mUP && d.pstate p != mTRAINING then d else
  let d := ((d.setPstate p mDOWN cause).meshLog 0x02 .warn [p, cause, 0, 0, 0]).portGone p
  let recent := d.slate :: (SMap.at [] d.mesh.downs p).filter (fun t => d.slate < t + ticksPerSec)
  let flap := decide (4 ≤ recent.length)
  let d := { d with mesh := { d.mesh with downs := SMap.set [] d.mesh.downs p (if flap then [] else recent) } }
  if flap then d.portHeld p cFLAP else d

/-- The port enters TRAINING: its lanes are turned ON and it sends its HELLO (R219). -/
def Dev.portTrain (d : Dev) (p : Nat) : Dev :=
  let d := (d.portLanes p).foldl (fun d l =>
    ((d.wf (LNQ_Li_PWR_TX_REQ l) 1).wf (LNQ_Li_PWR_RX_REQ l) 1).laneEffect l) d
  let d := (d.setPstate p mTRAINING 0).setMport p MeshPort.idle
  if d.mstate = mOFF then d
  else d.meshLink p (.hello (d.rf MSH_STAT_NUM) p (d.rd MSH_SERIAL))

/-- A write of MSH_PORTp_CFG (R218). Writing EN = 1 ends a hold. -/
def Dev.portCfgWrite (d : Dev) (p : Nat) (v : Word) : Dev :=
  let same := d.rd (MSH_PORTp_CFG p) == v &&& 0x3F7
  let d' := d.plainWrite (MSH_PORTp_CFG p) v
  if !v.getLsbD 0 then
    let d := d'.linkDown p cDISABLED
    if d.pstate p = mHELD then d.setPstate p mDOWN cDISABLED else d
  else if !d'.portFits p then
    (((d.off (MSH_PORTp_CFG_EN p)).linkDown p cCONFIG).setPstate p mDOWN cCONFIG).meshViolation p 0 cCONFIG
  else if same && (d.pstate p == mUP || d.pstate p == mTRAINING) then d'
  else
    let d := d.linkDown p cDISABLED
    (d.plainWrite (MSH_PORTp_CFG p) v).portTrain p

def execMeshPortEnable (_rq : Requester) (p : Fin 16) (v : Word) (s : State) : Out :=
  s.busWrite (MSH_PORTp_CFG p) (fun d => d.portCfgWrite p (v ||| 1))

/-- The hold of a link that flapped ends (R222). -/
def execHoldEnd (p : Fin 16) (s : State) : Out :=
  s.act (fun d =>
    if d.pstate p == mHELD && d.rf (MSH_PORTp_STAT_CAUSE p) == cFLAP &&
        decide (SMap.at 0 d.mesh.heldAt p + ticksPerSec ≤ d.slate) then d.setPstate p mDOWN cFLAP
    else d)

/-- The mesh port that uses a lane. -/
def Dev.portOfLane (d : Dev) (l : Nat) : Option Nat :=
  (List.range 16).find? (fun p => d.bit (MSH_PORTp_CFG_EN p) && (d.portLanes p).contains l)

/-- A lane of a port has lost block lock (R222). -/
def Dev.meshLaneLost (d : Dev) (l : Nat) : Dev :=
  match d.portOfLane l with
  | some p => d.linkDown p cLANE
  | none => d

/-- 16 invalid headers in 64 (R189), with what the lane's owner makes of the loss (R204, R216, R222). -/
def execBlockLockLoss (l : Fin 512) (s : State) : Out :=
  s.act (fun d =>
    if d.blkLock l && d.headersBad l then
      (((d.blockLockLost l).linkLaneLost l).meshLaneLost l).ethSettle
    else d)

/-- Every tick: links whose lanes sleep or have lost lock go DOWN, and enabled ports that are DOWN train again. -/
def Dev.meshSettle (d : Dev) : Dev :=
  if !d.meshLive then d else
  (List.range 16).foldl (fun d p =>
    if !d.bit (MSH_PORTp_CFG_EN p) then d
    else
      let ls := d.portLanes p
      let awake := ls.all (fun l => (d.txState l == lON || (d.txState l == lWAKING && (d.lane l).txTo == lON)) &&
        (d.rxState l == lON || (d.rxState l == lWAKING && (d.lane l).rxTo == lON)))
      let locked := ls.all (fun l => d.blkLock l)
      if d.pstate p = mUP then (if awake && locked then d else d.linkDown p cLANE)
      else if d.pstate p = mTRAINING then (if awake then d else d.linkDown p cLANE)
      else if d.pstate p == mDOWN && d.portFits p then d.portTrain p
      else d) d

/-! ## Receiving (R220, R221, R238) -/

/-- The checks of a received packet: whether it is taken, with the device after them. `typ`: the TYPE of the command's
packet. What it took of the neighbour's credit is granted anew at once (log entry 190). -/
def Dev.meshTake (d : Dev) (p : Nat) (h : MeshHdr) (typ : Nat) : Bool × Dev :=
  let up := d.pstate p == mUP || (d.pstate p == mTRAINING && decide (typ ≤ 4))
  if !d.meshLive || d.mstate == mOFF || !up then (false, d)
  else
    let m := d.mport p
    let k := vcKey h.vc
    let want := SMap.at 0 m.rxSeq k
    let numbered := h.typ != 3 && h.typ != 4
    if !h.crcOk then
      let d := (d.inc (MSH_PORTp_CNT_CRC p)).meshReply p h.vc (.nak want)
      let c := d.rf (MSH_PORTp_CNT_CRC p)
      let due := match SMap.at none d.mesh.logAt p with | some t => decide (t + ticksPerSec ≤ d.slate) | none => true
      (false, if due then
          { d with mesh := { d.mesh with logAt := SMap.set none d.mesh.logAt p (some d.slate) } }.meshLog 0x03 .note [p, c, c / 256, 0, 0]
        else d)
    else if numbered && h.seq.toNat != want then
      let behind := decide ((want + 4096 - h.seq.toNat) % 4096 < 2048)
      (false, d.meshReply p h.vc (if behind then .ack ((want + 4095) % 4096) else .nak want))
    else
      let d := if numbered then
          (d.setMport p { m with rxSeq := SMap.set 0 m.rxSeq k ((want + 1) % 4096) }).meshReply p h.vc (.ack want)
        else d
      let units := if 6 ≤ h.typ.toNat then (12 + 8 * h.len.toNat + 63) / 64 else 0
      let held := SMap.at 0 (d.mport p).grant k
      if h.typ == 0 || decide (10 < h.typ.toNat) || (h.vc && h.typ != 10) || h.resv != 0 then
        (false, (d.inc MSH_CNT_DISC).meshViolation p h.typ.toNat cPROTOCOL)
      else if held < units then
        (false, ((d.inc MSH_CNT_DISC).meshViolation p h.typ.toNat cPROTOCOL).linkDown p cPROTOCOL)
      else
        let m := d.mport p
        let d := if units = 0 then d
          else (d.setMport p { m with grant := SMap.set 0 m.grant k (held - units) }).creditGrant p h.vc units
        (h.typ.toNat == typ, d)

/-- Take a received packet, or leave the device as the checks leave it. -/
def Dev.meshRx (d : Dev) (p : Nat) (h : MeshHdr) (typ : Nat) (f : Dev → Dev) : Dev :=
  match d.meshTake p h typ with
  | (true, d) => f d
  | (false, d) => d

/-- Resend the kept packets of a VC from a sequence number on (R220): after 16 resends of one, the link goes DOWN. -/
def Dev.meshResend (d : Dev) (p : Nat) (vc : Bool) (seq : Nat) : Dev :=
  let m := d.mport p
  let hit := fun (k : Kept) => k.pkt.vc == vc && decide ((k.seq + 4096 - seq) % 4096 < 2048)
  if m.kept.any (fun k => hit k && decide (16 ≤ k.resends)) then d.linkDown p cRETRY
  else
    let again := m.kept.filter hit
    if again.isEmpty then d else
    let d := d.setMport p { m with kept := m.kept.map (fun k =>
      if hit k then { k with sent := d.slate, resends := k.resends + 1 } else k) }
    let d := d.incBy (MSH_PORTp_CNT_RETRY p) again.length
    let d := again.foldl (fun d k => d.out (.meshTx p k.pkt.vc k.pkt.dst k.pkt.src k.seq k.pkt.body)) d
    let c := d.rf (MSH_PORTp_CNT_RETRY p)
    let due := match SMap.at none d.mesh.logAt p with | some t => decide (t + ticksPerSec ≤ d.slate) | none => true
    if due then
      { d with mesh := { d.mesh with logAt := SMap.set none d.mesh.logAt p (some d.slate) } }.meshLog 0x03 .note [p, c, c / 256, 0, 0]
    else d

/-- An ACK names the last packet received: it and those before it leave the replay buffer. -/
def execAck (p : Fin 16) (h : MeshHdr) (s : State) : Out :=
  s.act (fun d => d.meshRx p h 3 (fun d =>
    let m := d.mport p
    (d.setMport p { m with kept := m.kept.filter (fun k =>
      !(k.pkt.vc == h.vc && decide ((h.seq.toNat + 4096 - k.seq) % 4096 < 2048))) }).meshPump p))

/-- A NAK names the packet wanted. -/
def execNak (p : Fin 16) (h : MeshHdr) (s : State) : Out :=
  s.act (fun d => d.meshRx p h 4 (fun d => d.meshResend p h.vc h.seq.toNat))

/-- 8 µs without acknowledgement (R220). -/
def execReplayTimeout (p : Fin 16) (s : State) : Out :=
  s.act (fun d =>
    match (d.mport p).kept.find? (fun k => elapsed (d.slate - k.sent) 8000) with
    | some k => if d.meshLive then d.meshResend p k.pkt.vc k.seq else d
    | none => d)

/-- Credit granted for a VC, in units of 64 bytes (R221). -/
def execCredit (p : Fin 16) (h : MeshHdr) (vc : Bool) (units : Nat) (s : State) : Out :=
  s.act (fun d => d.meshRx p h 5 (fun d =>
    let m := d.mport p
    (d.setMport p { m with credit := SMap.set 0 m.credit (vcKey vc) (SMap.at 0 m.credit (vcKey vc) + units) }).meshPump p))

/-! ## Training and time (R219, R223) -/

/-- The device's own key (R225). -/
def Dev.ownKey (d : Dev) : RootKey :=
  { num := BitVec.ofNat 10 (d.rf MSH_STAT_NUM), prio := BitVec.ofNat 4 (d.rf MSH_CFG_PRIO), strap := BitVec.ofNat 10 (d.rf MSH_ID_STRAP),
    serial := d.rd MSH_SERIAL }

/-- The better key: the lower PRIO, then strap number, then serial (R225). -/
def keyBetter (a b : RootKey) : Bool :=
  if a.prio != b.prio then a.prio.toNat < b.prio.toNat
  else if a.strap != b.strap then a.strap.toNat < b.strap.toNat
  else a.serial.toNat < b.serial.toNat

/-- A candidate heard in SEEK: a better one than any before it is flooded on. -/
def Dev.candidateHeard (d : Dev) (p : Nat) (k : RootKey) : Dev :=
  let better := match d.mesh.best with | some b => keyBetter k b | none => true
  if d.mstate != mSEEK || !better then d
  else
    let d := { d with mesh := { d.mesh with best := some k, settle := d.slate } }
    (d.upPorts.filter (fun q => q != p)).foldl (fun d q => d.meshLink q (.candidate k)) d

/-- Is a number held, in this device's system or by itself, by a device of another serial (R226)? -/
def Dev.numberHeld (d : Dev) (num : Nat) (serial : Word) : Bool :=
  (num == d.rf MSH_STAT_NUM && serial != d.rd MSH_SERIAL) ||
    (match SMap.at none d.mesh.serials num with | some x => x != serial | none => false)

/-- A HELLO packet. -/
def execHello (p : Fin 16) (h : MeshHdr) (b : HelloBody) (s : State) : Out :=
  s.act (fun d => d.meshRx p h 1 (fun d =>
    match b with
    | .candidate k => if d.pstate p = mUP then d.candidateHeard p k else d
    | .hello num port serial =>
      if d.pstate p != mTRAINING then d
      else if !d.bit MSH_CFG_NUM_MODE && d.numberHeld num.toNat serial then
        (d.meshLog 0x08 .error [p, num.toNat, num.toNat / 256, 0, 0]).portHeld p cDUPLICATE
      else
        let d := (d.wf (MSH_PORTp_STAT_PEER p) num.toNat).wf (MSH_PORTp_STAT_PEER_PORT p) port
        let m := d.mport p
        d.setMport p { m with helloAt := some (m.helloAt.getD d.slate), peerSerial := serial }))

/-- A delay exchange is due: every 2,048 ticks in training, every 245,760 when UP. -/
def execDelayExchangeStart (p : Fin 16) (s : State) : Out :=
  s.act (fun d =>
    if !d.meshLive || d.mstate == mOFF then d else
    let m := d.mport p
    if d.pstate p = mTRAINING then
      match m.helloAt with
      | some t => if (d.slate - t) % 2048 = 0 then d.meshLink p .delay else d
      | none => d
    else if d.pstate p == mUP && decide ((d.slate - m.upAt) % ticksPerMs = 0) then d.meshLink p .delay
    else d)

/-- A DELAY packet completes an exchange (R219, R223): `roundTrip` is the round trip in ps, `diff` its arrival here
less its sending there, by the two devices' own timestamps, and `time` the link time the port measured, in ps. -/
def execDelay (p : Fin 16) (h : MeshHdr) (roundTrip diff : Int) (time : Word) (s : State) : Out :=
  s.act (fun d => d.meshRx p h 2 (fun d =>
    let m := d.mport p
    if d.pstate p == mTRAINING && m.helloAt.isNone then d else
    let d := (d.wr (MSH_PORTp_DLY p) time).setMport p { m with delays := m.delays + 1 }
    if 120000 < time.toNat then d.portHeld p cLONG
    else
      let oneWay := roundFree d.free roundTrip 2 - d.rfs (MSH_PORTp_ASYM_ASYM p)
      let d := { d with free := d.free + 1 }
      if d.pstate p == mUP && d.bit MSH_TOPO_UP_VALID && d.rf MSH_TOPO_UP == (p : Nat) then
        (List.range 8).foldl (fun d n =>
          if d.bit (CTY_REFn_CFG_EN n) && d.rf (CTY_REFn_CFG_KIND n) == 5 then
            d.setSlot n ((d.slot n).take d.slate (some (diff - oneWay)))
          else d) d
      else d))

/-! ## Forming a system (R225 to R227) -/

/-- The device enters SEEK and floods its candidacy. -/
def Dev.meshSeek (d : Dev) : Dev :=
  let d := (d.meshForget.wf MSH_STAT_STATE mSEEK)
  let d := { d with mesh := { d.mesh with settle := d.slate } }
  if d.bit MSH_CFG_ROOT_ELIG then d.upPorts.foldl (fun d p => d.meshLink p (.candidate d.ownKey)) d else d

/-- The losing root starts the step of its part (R230): the STEP goes down and every device enters STEPPING. -/
def Dev.meshStepping (d : Dev) (tick : Nat) (delta : Int) : Dev :=
  let d := d.meshDown (.clapper (.step (BitVec.ofNat 64 tick) delta))
  ({ d with mesh := { d.mesh with step := some (tick, delta) } }).wf MSH_STAT_STATE mSTEPPING

def Dev.meshStepStart (d : Dev) (c dist : Nat) (delta : Int) : Dev :=
  d.meshStepping (c + (dist + d.rf MSH_TOPO_DEPTH) * 38 + 64) delta

/-- Does the neighbour's system win (R229)? -/
def peerWins (own : RootKey) (count : Nat) (peer : PeerRoot) : Bool :=
  let n := peer.count.toNat
  if count + ticksPerSec ≤ n then true
  else if n + ticksPerSec ≤ count then false
  else keyBetter peer.key own

/-- Two systems with different roots meet at a link that enters UP (R229, R230). -/
def Dev.systemsMet (d : Dev) (own : RootKey) (peer : PeerRoot) : Dev :=
  if own.serial = peer.key.serial then d
  else
    let lost := peerWins own d.slate peer
    let (w, l) := if lost then (peer.key.num.toNat, own.num.toNat) else (own.num.toNat, peer.key.num.toNat)
    let d := d.meshLog 0x07 .warn [w, w / 256, l, l / 256, lost.toNat]
    if !lost then d
    else
      let delta : Int := (peer.count.toNat : Int) - (d.slate : Int)
      if d.mstate = mROOT then d.meshStepStart d.slate 0 delta
      else if d.mstate = mMEMBER then
        d.meshRoute false own.num.toNat (d.rf MSH_STAT_NUM)
          (.clapper (.stepAsk (BitVec.ofNat 64 d.slate) (BitVec.ofNat 10 d.mesh.dist) delta))
      else d

/-- Training is over (R219): the link enters UP, and the device leaves ALONE, joins, or meets another system. -/
def execLinkUp (p : Fin 16) (peer : Option PeerRoot) (s : State) : Out :=
  s.act (fun d =>
    let m := d.mport p
    if d.meshLive && d.mstate != mOFF && d.pstate p == mTRAINING &&
        (d.portLanes p).all (fun l => d.blkLock l) && m.helloAt.isSome && decide (16 ≤ m.delays) &&
        decide (d.rf (MSH_PORTp_DLY_TIME p) ≤ 120000) then
      let d := (d.setPstate p mUP 0).setMport p { m with upAt := d.slate }
      let d := (d.creditGrant p false (Config.meshGrant false)).creditGrant p true (Config.meshGrant true)
      let n := d.rf (MSH_PORTp_STAT_PEER p)
      let d := d.meshLog 0x01 .info [p, n, n / 256, d.rf (MSH_PORTp_STAT_PEER_PORT p), 0]
      if d.mstate = mALONE then d.meshSeek
      else if d.mstate = mSEEK then
        match d.mesh.best with
        | some k => d.meshLink p (.candidate (if d.bit MSH_CFG_ROOT_ELIG && keyBetter d.ownKey k then d.ownKey else k))
        | none => if d.bit MSH_CFG_ROOT_ELIG then d.meshLink p (.candidate d.ownKey) else d
      else match d.mesh.root, peer with
        | some own, some pr => d.systemsMet own pr
        | _, _ => d
    else d)

/-- A root is known: MSH 0x06 and ROOT_CHG. -/
def Dev.rootKnown (d : Dev) (k : RootKey) : Dev :=
  let d := { d with mesh := { d.mesh with root := some k } }
  ((d.wf MSH_STAT_ROOT k.num.toNat).on MSH_EVT_ROOT_CHG).meshLog 0x06 .note [k.num.toNat, k.num.toNat / 256, k.prio.toNat, 0, 0]

/-- SETTLE ms have gone by without a better candidate (R225). -/
def execSettleExpiry (s : State) : Out :=
  s.act (fun d =>
    if !d.meshLive || d.mstate != mSEEK || decide (d.slate < d.mesh.settle + max 1 (d.rf MSH_CFG_SETTLE) * ticksPerMs) then d
    else
      let own := d.ownKey
      let win := d.bit MSH_CFG_ROOT_ELIG && (match d.mesh.best with | some b => keyBetter own b | none => true)
      let d' := { d with mesh := { d.mesh with beat := d.slate / ticksPerMs * ticksPerMs } }
      if win then
        let d := if d.bit MSH_CFG_NUM_MODE then d'.wf MSH_STAT_NUM 0 else d'
        (d.wf MSH_STAT_STATE mROOT).rootKnown d.ownKey
      else match d.mesh.best with
        | some b => (d'.wf MSH_STAT_STATE mMEMBER).rootKnown b
        | none => d)

/-! ### The MAP: tree, numbers and routes (R226, R227) -/

/-- The links of a device in the MAP. -/
def MapLinks (m : MeshMap) (serial : Word) : List MeshAdj :=
  match m.devs.find? (fun x => x.serial == serial) with
  | some x => x.links
  | none => []

/-- Put a device found with a label among those found at the same distance; the lower label stays. -/
def spreadAdd (acc : List (Word × Nat)) (w : Word) (label : Nat) : List (Word × Nat) :=
  match acc with
  | [] => [(w, label)]
  | (x, l) :: r => if x = w then (x, min l label) :: r else (x, l) :: spreadAdd r w label

/-- One more hop from a frontier. -/
def spreadStep (m : MeshMap) (seen : List (Word × Nat × Nat)) (front : List (Word × Nat)) : List (Word × Nat) :=
  front.foldl (fun acc (w, l) => (MapLinks m w).foldl (fun acc a =>
    if seen.any (fun s => s.1 == a.peer) then acc else spreadAdd acc a.peer l) acc) []

/-- The devices reached, each with the lowest first port of its shortest paths and its distance. -/
def spreadAll (m : MeshMap) : Nat → Nat → List (Word × Nat × Nat) → List (Word × Nat) → List (Word × Nat × Nat)
  | 0, _, seen, _ => seen
  | n + 1, k, seen, front =>
    match spreadStep m seen front with
    | [] => seen
    | next => spreadAll m n (k + 1) (seen ++ next.map (fun (w, l) => (w, l, k + 1))) next

/-- Everything reached from a device: itself, then its neighbours with their ports, then the rest. -/
def spread (m : MeshMap) (src : Word) : List (Word × Nat × Nat) :=
  let one := (MapLinks m src).foldl (fun acc a => if a.peer = src then acc else spreadAdd acc a.peer a.port) []
  spreadAll m m.devs.length 1 ((src, 0, 0) :: one.map (fun (w, l) => (w, l, 1))) one

/-- A device's parent: the neighbour one hop nearer the root, its own lowest port on a tie; with that port. -/
def mapParent (m : MeshMap) (depths : List (Word × Nat × Nat)) (w : Word) : Option MeshAdj :=
  let depth := fun x => (depths.find? (fun s => s.1 == x)).map (fun s => s.2.2)
  match depth w with
  | some (k + 1) =>
    ((MapLinks m w).filter (fun a => depth a.peer == some k)).foldl (fun b a => match b with
      | none => some a
      | some c => if a.port.val < c.port.val then some a else some c) none
  | _ => none

/-- The lowest number not in a list. -/
def lowestFree (taken : List Nat) : Nat := ((List.range 1024).find? (fun n => !taken.contains n)).getD 0

/-- Put a device in the order of R226: depth, parent's number, parent's port. -/
def orderInsert (x : Word × Nat × Nat × Nat) : List (Word × Nat × Nat × Nat) → List (Word × Nat × Nat × Nat)
  | [] => [x]
  | y :: r =>
    if x.2.1 < y.2.1 || (x.2.1 == y.2.1 && (x.2.2.1 < y.2.2.1 || (x.2.2.1 == y.2.2.1 && x.2.2.2 < y.2.2.2))) then x :: y :: r
    else y :: orderInsert x r

/-- Number the devices at one depth after another (R226): a device keeps a number it holds alone or first, and otherwise
takes the lowest free number. -/
def numberDepths (m : MeshMap) (depths : List (Word × Nat × Nat)) (held : List (Word × Nat)) :
    Nat → Nat → List (Word × Nat) → List (Word × Nat)
  | 0, _, done => done
  | n + 1, k, done =>
    let here := (depths.filter (fun s => s.2.2 == k)).foldl (fun acc s =>
      match mapParent m depths s.1 with
      | some a =>
        let pn := ((done.find? (fun x => x.1 == a.peer)).map (fun x => x.2)).getD 0
        orderInsert (s.1, 0, pn, a.peerPort.val) acc
      | none => orderInsert (s.1, 0, 0, 0) acc) []
    let done := here.foldl (fun done x =>
      match held.find? (fun y => y.1 == x.1) with
      | some y => done ++ [(x.1, y.2)]
      | none => done ++ [(x.1, lowestFree (done.map (fun y => y.2) ++ held.map (fun y => y.2)))]) done
    numberDepths m depths held n (k + 1) done

/-- The numbers devices hold before the numbering: the first in the MAP's order keeps a number held twice. -/
def heldNumbers (m : MeshMap) : List (Word × Nat) :=
  m.devs.foldl (fun acc x => match x.num with
    | some n => if acc.any (fun y => y.2 == n.toNat) then acc else acc ++ [(x.serial, n.toNat)]
    | none => acc) []

/-- The numbers of the devices of a MAP (R226). -/
def mapNumbers (mode : Bool) (m : MeshMap) (depths : List (Word × Nat × Nat)) : List (Word × Nat) :=
  if !mode then m.devs.map (fun x => (x.serial, x.strap.toNat))
  else numberDepths m depths (if m.fresh then [(m.root.serial, 0)] else heldNumbers m) (m.devs.length + 1) 0 []

/-- The routing table (R227). -/
def Dev.routesWrite (d : Dev) (nums : List (Word × Nat)) (reach : List (Word × Nat × Nat)) : Dev :=
  reach.foldl (fun d (w, port, dist) =>
    match nums.find? (fun x => x.1 == w) with
    | some (_, n) =>
      (((d.wf (MSH_RTd_PORT n) port).wb (MSH_RTd_LOCAL n) (dist == 0)).on (MSH_RTd_VALID n)).wf (MSH_RTd_HOPS n) dist
    | none => d) (d.resetRange (MSH_RTd 0) (MSH_RTd 1023))

/-- The tree, the numbers and the routes of a MAP (R226, R227). -/
def Dev.mapApply (d : Dev) (m : MeshMap) : Dev :=
  let self := d.rd MSH_SERIAL
  let depths := spread m m.root.serial
  let reach := spread m self
  let mode := d.bit MSH_CFG_NUM_MODE
  let nums := mapNumbers mode m depths
  let numOf := fun w => ((nums.find? (fun x => x.1 == w)).map (fun x => x.2)).getD 0
  let mine := numOf self
  let had := (m.devs.find? (fun x => x.serial == self)).bind (fun x => x.num)
  let d := match had with
    | some o => if mode && o.toNat != mine then
        d.meshLog 0x0F .note [o.toNat, o.toNat / 256, mine, mine / 256, 0] else d
    | none => d
  let d := (d.wf MSH_STAT_NUM mine).wf MSH_STAT_ROOT (numOf m.root.serial)
  let up := mapParent m depths self
  let kids := ((MapLinks m self).filter (fun a =>
    match mapParent m depths a.peer with
    | some b => b.peer == self && b.port == a.peerPort
    | none => false)).map (fun a => a.port.val)
  let dist := ((depths.find? (fun s => s.1 == self)).map (fun s => s.2.2)).getD 0
  let key := { m.root with num := BitVec.ofNat 10 (numOf m.root.serial) }
  let d := { d with mesh := { d.mesh with root := some key, kids := kids, dist := dist,
                                          serials := nums.foldl (fun t (w, n) => SMap.set none t n (some w)) [] } }
  let d := (d.wf MSH_TOPO_DEPTH (depths.foldl (fun k s => max k s.2.2) 0)).wf MSH_TOPO_COUNT depths.length
  let d := (d.wb MSH_TOPO_UP_VALID up.isSome).wf MSH_TOPO_UP (match up with | some a => a.port.val | none => 0)
  (d.routesWrite nums reach).on MSH_EVT_TOPO

/-- The kind 0x5 slots follow a new upstream port: a reference switch under R60 with the phase difference measured. -/
def Dev.upstreamMoved (d : Dev) (was : Option Nat) (diff : Int) : Dev :=
  let now := if d.bit MSH_TOPO_UP_VALID then some (d.rf MSH_TOPO_UP) else none
  match was, now with
  | some a, some b =>
    if a = b then d else
      match d.timeSel with
      | some n =>
        if d.rf (CTY_REFn_CFG_KIND n) == 5 then
          d.buildOutT n n diff
        else d
      | none => d
  | some _, none => d.meshSlotsLost
  | _, _ => d

/-- A MAP packet from upstream, or, at the root (`source` none), the adjacency of its system after a change: numbers,
tree and routes, the join of a device from ALONE or SEEK, and the packet on to the devices below (R227). -/
def Dev.mapTaken (d : Dev) (m : MeshMap) (diff : Int) : Dev :=
  if !(m.devs.any (fun x => x.serial == d.rd MSH_SERIAL)) then d else
  let was := if d.bit MSH_TOPO_UP_VALID then some (d.rf MSH_TOPO_UP) else none
  let fromOut := d.mstate == mALONE || d.mstate == mSEEK
  let newRoot := match d.mesh.root with | some k => k.serial != m.root.serial | none => true
  let joining := !d.mesh.joined && d.mstate != mROOT
  let d := d.mapApply m
  let d := if d.mstate = mROOT then d else d.wf MSH_STAT_STATE mMEMBER
  let d := if newRoot then d.on MSH_EVT_ROOT_CHG else d
  let delta : Int := (m.count.toNat : Int) - (d.slate : Int)
  let d := { d with mesh := { d.mesh with joined := true, best := none,
                                          beat := if fromOut || newRoot then m.count.toNat / ticksPerMs * ticksPerMs else d.mesh.beat,
                                          step := if joining && delta != 0 then some (d.slate, delta) else d.mesh.step } }
  let d := d.upstreamMoved was diff
  (d.meshDown (.map m)).reportsFlush

def execMap (source : Option (Fin 16 × MeshHdr)) (m : MeshMap) (diff : Int) (s : State) : Out :=
  s.act (fun d =>
    match source with
    | none => if d.meshLive && d.mstate == mROOT && m.root.serial == d.rd MSH_SERIAL then d.mapTaken m diff else d
    | some (p, h) => d.meshRx p h 7 (fun d =>
        if d.mstate == mALONE || d.mstate == mSEEK || d.mstate == mMEMBER then d.mapTaken m diff else d))

/-! ## Beats and the loss of the root (R228) -/

/-- The root's BEAT. -/
def execBeatSend (s : State) : Out :=
  s.act (fun d =>
    if d.meshLive && d.mstate == mROOT && decide (d.slate % ticksPerMs = 0) then
      match d.mesh.root with
      | some k => d.meshDown (.beat k d.slate)
      | none => d
    else d)

/-- A BEAT from upstream. -/
def execBeat (p : Fin 16) (h : MeshHdr) (k : RootKey) (tick : BitVec 64) (s : State) : Out :=
  s.act (fun d => d.meshRx p h 6 (fun d =>
    if d.mstate == mMEMBER || d.mstate == mSTEPPING then
      ({ d with mesh := { d.mesh with beat := max d.mesh.beat tick.toNat } }).meshDown (.beat k tick.toNat)
    else d))

/-- The margin M (R228). -/
def Dev.beatMargin (d : Dev) : Nat := max 20480 (d.rf MSH_TOPO_DEPTH * 38 + 1024)

/-- The BEATs of three consecutive multiples are missing M ticks after the third. -/
def execRootLost (s : State) : Out :=
  s.act (fun d =>
    if d.meshLive && d.mstate == mMEMBER && decide (d.mesh.beat + 3 * ticksPerMs + d.beatMargin ≤ d.slate) then
      let r := d.rf MSH_STAT_ROOT
      let d := (d.meshLog 0x05 .error [r, r / 256, 0, 0, 0]).on MSH_EVT_ROOT_CHG
      let hold := d.mesh.serials
      let d := d.meshSeek
      { d with mesh := { d.mesh with serials := hold, joined := true } }
    else d)

/-! ## The device's mesh state -/

/-- P29 goes off, or EN is cleared: the device is OFF and no port carries packets. -/
def Dev.meshOff (d : Dev) : Dev :=
  let d := (List.range 16).foldl (fun d p => d.linkDown p cDISABLED) d
  let d := if d.bit MSH_TOPO_UP_VALID then d.meshSlotsLost else d
  let d := d.meshForget.wf MSH_STAT_STATE mOFF
  { d with mesh := { Mesh.reset with downs := d.mesh.downs, heldAt := d.mesh.heldAt, logAt := d.mesh.logAt } }

/-- A write of MSH_CFG (R225). -/
def Dev.mshCfgWrite (d : Dev) (v : Word) : Dev :=
  let was := d.bit MSH_CFG_EN
  let d := d.plainWrite MSH_CFG v
  if v.getLsbD 0 then
    if was then d
    else
      let d := d.wf MSH_STAT_STATE mALONE
      let d := if d.bit MSH_CFG_NUM_MODE then d else d.wf MSH_STAT_NUM (d.rf MSH_ID_STRAP)
      (List.range 16).foldl (fun d p =>
        if d.pstate p = mTRAINING then d.meshLink p (.hello (d.rf MSH_STAT_NUM) p (d.rd MSH_SERIAL)) else d) d
  else if was then d.meshOff else d

def execMeshEnable (_rq : Requester) (v : Word) (s : State) : Out := s.busWrite MSH_CFG (fun d => d.mshCfgWrite v)

end Sys2Proof.Machine
end

