-- ==== Sys2Proof/Machine/CutOps.lean ====
section
/-! DEFINITION. The table of Cut slots: requests, confirmations, cancellations and failures (R42 to R44). What a Cut
switches is its arming block's (Machine/Cuts.lean). -/
namespace Sys2Proof.Machine
open Reg

/-- Kind codes (Table SLT-4). -/
def kPOWERON : Nat := 1
def kCONFIG : Nat := 2
def kKEY : Nat := 3
def kSCHEDULE : Nat := 4
def kUSER : Nat := 5
def kPOWEROFF : Nat := 6

def Dev.cut (d : Dev) (i : Nat) : CutSlot := SMap.at CutSlot.free d.hub.cuts i

def Dev.setCut (d : Dev) (i : Nat) (c : CutSlot) : Dev :=
  { d with hub := { d.hub with cuts := SMap.set CutSlot.free d.hub.cuts i c } }

/-- Is the slot ARMED or PREPARED? -/
def CutSlot.live (c : CutSlot) : Bool := c.state == .armed || c.state == .prepared

/-- Has the Slate count come to tick T − 64? -/
def CutSlot.decided (c : CutSlot) (slate : Nat) : Bool := decide (c.tick ≤ slate + 64)

def CutState.code : CutState → Nat
  | .free => 0 | .armed => 1 | .prepared => 2 | .done => 3 | .failed => 4

/-- The slot a request takes: the lowest FREE slot that is not reserved, then the lowest DONE or FAILED slot. -/
def Dev.pickSlot (d : Dev) : Option Nat :=
  match (List.range 32).find? (fun i => (d.cut i).state == .free && !(d.cut i).reserved) with
  | some i => some i
  | none => (List.range 32).find? (fun i => (d.cut i).state == .done || (d.cut i).state == .failed)

/-- A refused Cut request: CUT_FAIL and SLT 0x03 (R42). -/
def Dev.cutRefused (d : Dev) (kind target status : Nat) : Dev :=
  (d.on SLT_STAT_CUT_FAIL).log 0x01 0x03 .warn [kind, target, target / 256, status, 0]

/-- Is T at least 4,096 ticks after the present tick (R42)? -/
def Dev.leadOk (d : Dev) (t : Nat) : Bool := decide (d.slate + 4096 ≤ t)

/-- An armed slot. -/
def armedSlot (kind target t : Nat) : CutSlot :=
  { state := .armed, kind := kind, target := target, status := stDONE, tick := t, reserved := false, confirmed := false }

/-- The checks of R42 on a request for a Cut at `t`, the lead before the slot: the slot it takes, or the status that
refuses it. -/
def Dev.cutSlotFor (d : Dev) (t : Nat) : Nat ⊕ Nat :=
  if !d.leadOk t then .inr stLEAD
  else match d.pickSlot with
    | some i => .inl i
    | none => .inr stFULL

/-- Request a Cut: the slot taken, or the refusing status, with the device after it. -/
def Dev.requestCut (d : Dev) (kind target t : Nat) : (Nat ⊕ Nat) × Dev :=
  match d.cutSlotFor t with
  | .inl i => (.inl i, d.setCut i (armedSlot kind target t))
  | .inr st => (.inr st, d.cutRefused kind target st)

/-- A confirmation of the Cut in a slot: it counts up to tick T − 64 (R43). -/
def Dev.confirmCut (d : Dev) (i : Nat) : Dev :=
  let c := d.cut i
  if c.state = .armed ∧ d.slate + 64 ≤ c.tick then d.setCut i { c with confirmed := true } else d

/-- SLT 0x02 of a Cut that has failed, with the contents its slot had. -/
def Dev.cutFailed (d : Dev) (i : Nat) (c : CutSlot) (status : Nat) : Dev :=
  d.log 0x01 0x02 .error [i, c.kind, c.target, c.target / 256, status]

/-- End a Cut that is ARMED or PREPARED with a failure status; `logs`: whether SLT 0x02 is logged (Table SLT-8 names
a missing confirmation, a Slate step, a reset and the endings of R317 and R324). -/
def Dev.failCut (d : Dev) (i status : Nat) (logs : Bool) : Dev :=
  let c := d.cut i
  let d := (d.setCut i { c with state := .failed, status := status }).on SLT_STAT_CUT_FAIL
  if logs then d.cutFailed i c status else d

/-- Does a cancellation sampled on this tick take effect (R43)? -/
def Dev.cancellable (d : Dev) (i : Nat) : Bool := (d.cut i).state == .armed && !(d.cut i).decided d.slate

/-- The lowest live slot of a kind and target. -/
def Dev.liveCut (d : Dev) (kind target : Nat) : Option Nat :=
  (List.range 32).find? (fun i => (d.cut i).live && (d.cut i).kind == kind && (d.cut i).target == target)

/-- The lowest live slot of a kind. -/
def Dev.liveKind (d : Dev) (kind : Nat) : Option Nat :=
  (List.range 32).find? (fun i => (d.cut i).live && (d.cut i).kind == kind)

/-- A Cut executes: its slot is DONE, CUT_DONE sets and SLT 0x01 is logged (R44). -/
def Dev.cutExecuted (d : Dev) (i : Nat) : Dev :=
  let c := d.cut i
  ((d.setCut i { c with state := .done, status := stDONE }).on SLT_STAT_CUT_DONE).log 0x01 0x01 .info
    [i, c.kind, c.target, c.target / 256, 0]

end Sys2Proof.Machine
end

