-- ==== Sys2Proof/Machine/Flags.lean ====
section
/-! DEFINITION. Narrowing, saturation, exponents and flags of the arithmetic of slices and engines (R113, R116, R136
to R138, R140). -/
namespace Sys2Proof.Machine

/-- A value shifted right by `q`, rounded half up (R116, R137). -/
def narrow (q : Nat) (x : Int) : Int := if q = 0 then x else (x + 2 ^ (q - 1)) / 2 ^ q

/-- Is the value outside the signed `w`-bit range? -/
def outside (w : Nat) (x : Int) : Bool := decide (x < -(2 ^ (w - 1) : Int)) || decide ((2 ^ (w - 1) : Int) - 1 < x)

/-- The low `w` bits of a value, as a signed number. -/
def wrapTo (w : Nat) (x : Int) : Int := signedOf w (lowBits w x)

/-- A narrowed result: clamped where the operation saturates, else its low `w` bits (R116, R137). -/
def clip (w : Nat) (sat : Bool) (x : Int) : Int := if sat then satTo w x else wrapTo w x

/-- Redundant sign bits of a `w`-bit value: the bits from bit w − 1 downward that equal bit w − 1, less one (R138). -/
def rsb (w : Nat) (x : Int) : Nat :=
  let v := lowBits w x
  let s := v.testBit (w - 1)
  ((List.range w).takeWhile (fun i => v.testBit (w - 1 - i) == s)).length - 1

/-- Z of a compare: the difference is zero (Table SE-6). -/
def zFlag (x : Word) : Bool := x == 0

/-- N of a compare: the difference is negative. -/
def nFlag (x : Word) : Bool := x.msb

end Sys2Proof.Machine
end

