-- ==== Sys2Proof/Machine/Operands.lean ====
section
/-! DEFINITION. The operand forms of a signal engine: bundles and their slots (Tables SE-5 to SE-11), scalar, vector
and accumulator registers, and the address generators (R134). -/
namespace Sys2Proof.Machine
open Reg

/-! ## Bundles -/

/-- The two-operand scalar operations. -/
inductive AluFn where
  | add | sub | and | or | xor | shl | shr | sar | mul
  deriving DecidableEq, Repr

inductive SOp where
  | nop
  | alu (f : AluFn) (sd sa sb : Nat)
  | cmp (sa sb : Nat)
  | addi (sd sa : Nat) (imm : Int)
  | cmpi (sa : Nat) (imm : Int)
  | movl (sd imm : Nat)
  | movh (sd imm : Nat)
  | mtag (ag r sa : Nat)
  | mfag (sd ag r : Nat)
  | rdt (sd item : Nat)
  deriving DecidableEq, Repr

inductive XOp where
  | nop
  | ldv (ag r : Nat) (pm : Bool)
  | stv (ag r : Nat) (pm : Bool)
  | ldb (ag r : Nat) (pm : Bool)
  | ldx (ag r : Nat) (pm : Bool)
  | stx (ag r : Nat) (pm : Bool)
  deriving DecidableEq, Repr

inductive YOp where
  | nop
  | ldy (ag r : Nat) (pm : Bool)
  | ldyb (ag r : Nat) (pm : Bool)
  deriving DecidableEq, Repr

/-- What a product does to its accumulator set (R136). -/
inductive MacFn where
  | set | add | sub
  deriving DecidableEq, Repr

inductive VOp where
  | nop
  | mac (f : MacFn) (acc va vb : Nat) (conj : Bool)
  | add (sub : Bool) (vd va vb : Nat) (sat : Bool) (sh : Nat)
  | mov (vd va : Nat)
  | cmul (vd va vb : Nat) (conj sat : Bool) (sh : Nat)
  | bfly (dist vd va vb vc : Nat) (conj sat : Bool) (sh : Nat)
  deriving DecidableEq, Repr

inductive MOp where
  | nop
  | sld (hi : Bool) (d : Nat)
  | sst (hi : Bool) (a : Nat)
  | nar (d acc k : Nat)
  | nars (d acc sk : Nat)
  | expl (d acc : Nat)
  | expb (sd acc : Nat)
  | norm (d a sk : Nat)
  | sat (d a k : Nat)
  deriving DecidableEq, Repr

/-- When a branch is taken. -/
inductive Cond where
  | always | z | nz
  deriving DecidableEq, Repr

inductive COp where
  | nop
  | rep (len cnt : Nat)
  | br (c : Cond) (ofs : Int)
  | jmps (r : Nat)
  | kick
  | send
  | evt (code : Nat)
  | brk
  | done
  deriving DecidableEq, Repr

/-- A decoded bundle: six slots that issue together (Table SE-5). -/
structure Bundle where
  s : SOp
  x : XOp
  y : YOp
  v : VOp
  m : MOp
  c : COp
  deriving DecidableEq, Repr

/-- A bundle of NOPs (R127). -/
def Bundle.nops : Bundle := { s := .nop, x := .nop, y := .nop, v := .nop, m := .nop, c := .nop }

/-- Bits [hi:lo] of a bundle. -/
def bits (x : BitVec 128) (hi lo : Nat) : Nat := (x.extractLsb' lo (hi + 1 - lo)).toNat

/-- The S slot (Table SE-6); `none` for an opcode not listed or a reserved field not zero. -/
def decodeS (b : BitVec 128) : Option SOp :=
  let w := bits b 127 100
  let op := w / 2 ^ 23
  let sd := w / 2 ^ 19 % 16
  let sa := w / 2 ^ 15 % 16
  let sb := w / 2 ^ 11 % 16
  let res := w % 2 ^ 11 == 0
  let imm := signedOf 15 w
  let ag := w / 2 ^ 13 % 4
  let r := w / 2 ^ 11 % 4
  let alu := fun (f : AluFn) => if res then some (SOp.alu f sd sa sb) else none
  match op with
  | 0x00 => if res then some .nop else none
  | 0x01 => alu .add
  | 0x02 => alu .sub
  | 0x03 => alu .and
  | 0x04 => alu .or
  | 0x05 => alu .xor
  | 0x06 => alu .shl
  | 0x07 => alu .shr
  | 0x08 => alu .sar
  | 0x09 => alu .mul
  | 0x0A => if res then some (.cmp sa sb) else none
  | 0x0B => some (.addi sd sa imm)
  | 0x0C => some (.cmpi sa imm)
  | 0x0D => if w / 2 ^ 16 % 8 == 0 then some (.movl sd (w % 2 ^ 16)) else none
  | 0x0E => if w / 2 ^ 16 % 8 == 0 then some (.movh sd (w % 2 ^ 16)) else none
  | 0x0F => if res && r != 3 then some (.mtag ag r sa) else none
  | 0x10 => if res && r != 3 then some (.mfag sd ag r) else none
  | 0x11 => if res && sb ≤ 3 then some (.rdt sd sb) else none
  | _ => none

/-- The X slot (Table SE-7). -/
def decodeX (b : BitVec 128) : Option XOp :=
  let w := bits b 99 80
  let ag := w / 2 ^ 14 % 4
  let r := w / 2 ^ 9 % 32
  let pm := w / 2 ^ 8 % 2 == 1
  if w % 2 ^ 8 ≠ 0 then none else
  match w / 2 ^ 16 with
  | 0 => some .nop
  | 1 => some (.ldv ag r pm)
  | 2 => some (.stv ag r pm)
  | 3 => some (.ldb ag r pm)
  | 4 => if r < 16 then some (.ldx ag r pm) else none
  | 5 => if r < 16 then some (.stx ag r pm) else none
  | _ => none

/-- The Y slot (Table SE-8). -/
def decodeY (b : BitVec 128) : Option YOp :=
  let w := bits b 79 64
  let ag := w / 2 ^ 11 % 4
  let r := w / 2 ^ 6 % 32
  let pm := w / 2 ^ 5 % 2 == 1
  if w % 2 ^ 5 ≠ 0 then none else
  match w / 2 ^ 13 with
  | 0 => some .nop
  | 1 => some (.ldy ag r pm)
  | 2 => some (.ldyb ag r pm)
  | _ => none

/-- The V slot (Table SE-9): fields an operation does not use must be zero. -/
def decodeV (b : BitVec 128) : Option VOp :=
  let w := bits b 63 32
  let vd := w / 2 ^ 21 % 32
  let va := w / 2 ^ 16 % 32
  let vb := w / 2 ^ 11 % 32
  let vc := w / 2 ^ 6 % 32
  let sel := w / 2 ^ 3 % 8
  let conj := w / 4 % 2 == 1
  let sat := w / 2 % 2 == 1
  let sh := w % 2
  let mac := fun (f : MacFn) =>
    if vd = 0 ∧ vc = 0 ∧ sel < 4 ∧ !sat ∧ sh = 0 then some (VOp.mac f sel va vb conj) else none
  match w / 2 ^ 26 with
  | 0x00 => if w % 2 ^ 26 = 0 then some .nop else none
  | 0x01 => mac .set
  | 0x02 => mac .add
  | 0x03 => mac .sub
  | 0x08 => if vc = 0 ∧ sel = 0 ∧ !conj then some (.add false vd va vb sat sh) else none
  | 0x09 => if vc = 0 ∧ sel = 0 ∧ !conj then some (.add true vd va vb sat sh) else none
  | 0x0A => if vb = 0 ∧ vc = 0 ∧ sel = 0 ∧ !conj ∧ !sat ∧ sh = 0 then some (.mov vd va) else none
  | 0x0B => if vc = 0 ∧ sel = 0 then some (.cmul vd va vb conj sat sh) else none
  | 0x10 => if sel < 6 then some (.bfly sel vd va vb vc conj sat sh) else none
  | _ => none

/-- The M slot (Table SE-10). -/
def decodeM (b : BitVec 128) : Option MOp :=
  let w := bits b 31 12
  let d := w / 2 ^ 10 % 32
  let a := w / 2 ^ 5 % 32
  let k := w % 32
  match w / 2 ^ 15 with
  | 0x00 => some .nop
  | 0x01 => some (.sld false d)
  | 0x02 => some (.sld true d)
  | 0x03 => some (.sst false a)
  | 0x04 => some (.sst true a)
  | 0x05 => some (.nar d (a % 4) k)
  | 0x06 => some (.nars d (a % 4) (k % 16))
  | 0x07 => some (.expl d (a % 4))
  | 0x08 => some (.expb (d % 16) (a % 4))
  | 0x09 => some (.norm d a (k % 16))
  | 0x0A => if 1 ≤ k ∧ k ≤ 15 then some (.sat d a k) else none
  | _ => none

/-- The C slot (Table SE-11). -/
def decodeC (b : BitVec 128) : Option COp :=
  let w := bits b 11 0
  let arg := w % 256
  match w / 2 ^ 8 with
  | 0x0 => some .nop
  | 0x1 => some (.rep (arg / 8 + 1) (arg % 8))
  | 0x2 => some (.br .always (signedOf 8 arg))
  | 0x3 => some (.br .z (signedOf 8 arg))
  | 0x4 => some (.br .nz (signedOf 8 arg))
  | 0x5 => if arg < 8 then some (.jmps arg) else none
  | 0x6 => some .kick
  | 0x7 => some .send
  | 0x8 => some (.evt arg)
  | 0x9 => some .brk
  | 0xA => some .done
  | _ => none

/-- A bundle decoded, or the lowest slot that is illegal (R140). -/
def decodeBundle (b : BitVec 128) : Bundle ⊕ Nat :=
  match decodeS b, decodeX b, decodeY b, decodeV b, decodeM b, decodeC b with
  | some s, some x, some y, some v, some m, some c => .inl { s := s, x := x, y := y, v := v, m := m, c := c }
  | none, _, _, _, _, _ => .inr 0
  | _, none, _, _, _, _ => .inr 1
  | _, _, none, _, _, _ => .inr 2
  | _, _, _, none, _, _ => .inr 3
  | _, _, _, _, none, _ => .inr 4
  | _, _, _, _, _, none => .inr 5

/-! ## Engine registers -/

def Dev.engine (d : Dev) (n : Nat) : Engine := SMap.at Engine.idle d.se.eng n

def Dev.setEngine (d : Dev) (n : Nat) (e : Engine) : Dev :=
  { d with se := { d.se with eng := SMap.set Engine.idle d.se.eng n e } }

def Engine.sreg (e : Engine) (r : Nat) : SVal := SMap.at SVal.zero e.s r
def Engine.vreg (e : Engine) (r : Nat) : Vec := SMap.at Vec.zero e.v r
def Engine.accOf (e : Engine) (a : Nat) : AccSet := SMap.at AccSet.zero e.acc a
def Engine.accView (e : Engine) (a : Nat) : AccSet := SMap.at AccSet.zero e.accM a

/-- The 32-bit element in lane `i`. -/
def Vec.elem (v : Vec) (i : Nat) : Word := v.x.extractLsb' (32 * i) 32

/-- The complex value of lane `i`: real part in bits [15:0], imaginary in [31:16] (Table SE-1). -/
def Vec.lane (v : Vec) (i : Nat) : Int × Int :=
  ((v.x.extractLsb' (32 * i) 16).toInt, (v.x.extractLsb' (32 * i + 16) 16).toInt)

/-- 32 elements as a vector. -/
def vecBits (f : Nat → Word) : BitVec 1024 :=
  (List.range 32).foldl (fun x i => x ||| ((f i).setWidth 1024 <<< (32 * i))) 0

/-- A complex value as an element: the low 16 bits of each part. -/
def elemOf (c : Int × Int) : Word := (BitVec.ofInt 16 c.2 ++ BitVec.ofInt 16 c.1).setWidth 32

/-- A vector of complex lanes. -/
def vecOf (f : Nat → Int × Int) (p : BitVec 32) : Vec := { x := vecBits (fun i => elemOf (f i)), p := p }

/-- A lane mask. -/
def laneMask (f : Nat → Bool) : BitVec 32 :=
  (List.range 32).foldl (fun x i => if f i then x ||| ((1 : BitVec 32) <<< i) else x) 0

/-- All lanes, or none. -/
def allLanes (b : Bool) : BitVec 32 := if b then BitVec.allOnes 32 else 0

def AccSet.lane (a : AccSet) (i : Nat) : Int × Int :=
  ((a.re.extractLsb' (48 * i) 48).toInt, (a.im.extractLsb' (48 * i) 48).toInt)

/-- An accumulator set of 48-bit lanes. -/
def accOfLanes (f : Nat → Int × Int) (p : BitVec 32) : AccSet :=
  { re := (List.range 32).foldl (fun x i => x ||| ((BitVec.ofInt 48 (f i).1).setWidth 1536 <<< (48 * i))) 0,
    im := (List.range 32).foldl (fun x i => x ||| ((BitVec.ofInt 48 (f i).2).setWidth 1536 <<< (48 * i))) 0,
    p := p }

/-! ## Address generators (R134, R135) -/

/-- The low `w` bits of `x` reversed, the higher bits kept. -/
def bitReverse (w x : Nat) : Nat :=
  x / 2 ^ w * 2 ^ w + (List.range w).foldl (fun a i => if x.testBit i then a + 2 ^ (w - 1 - i) else a) 0

/-- The element address of an access through AG `k`: (BASE + h(OFS) × u) mod M. -/
def Dev.agAddr (d : Dev) (n k u m : Nat) : Nat :=
  let ofs := d.rf (SE_AGk_OFS_OFS n k)
  let h := if d.rf (SE_AGk_MOD_MODE n k) = 2 then bitReverse (d.rf (SE_AGk_MOD_BRW n k)) ofs else ofs
  (d.rf (SE_AGk_BASE_BASE n k) + h * u) % m

/-- OFS after a post-modification; in circular mode modulo LEN, where LEN 0 means 65,536. -/
def Dev.agPost (d : Dev) (n k : Nat) : Dev :=
  let ofs : Int := (d.rf (SE_AGk_OFS_OFS n k) : Nat)
  let step := d.rfs (SE_AGk_MOD_STEP n k)
  let len := d.rf (SE_AGk_BASE_LEN n k)
  let m : Nat := if d.rf (SE_AGk_MOD_MODE n k) = 1 ∧ len ≠ 0 then len else 65536
  d.wf (SE_AGk_OFS_OFS n k) ((ofs + step) % (m : Int)).toNat

/-- Is a vector access through AG `k` misaligned (R135)? -/
def Dev.agMisaligned (d : Dev) (n k : Nat) : Bool := d.rf (SE_AGk_BASE_BASE n k) % 32 != 0

/-- The register word MFAG reads and MTAG writes: 0 BASE, 1 OFS, 2 MOD (Table SE-6). -/
def agWord (n k r : Nat) : Nat := if r = 0 then SE_AGk_BASE n k else if r = 1 then SE_AGk_OFS n k else SE_AGk_MOD n k

def agCode : AgReg → Nat
  | .base => 0 | .ofs => 1 | .mod => 2

/-! ## Engine memories -/

def Dev.spadElem (d : Dev) (n e : Nat) : Elem := SMap.at Elem.zero d.se.spad (n * 65536 + e % 65536)

def Dev.setSpad (d : Dev) (n e : Nat) (x : Elem) : Dev :=
  { d with se := { d.se with spad := SMap.set Elem.zero d.se.spad (n * 65536 + e % 65536) x } }

def Dev.coefElem (d : Dev) (n e : Nat) : Elem := SMap.at Elem.zero d.se.coef (n * 16384 + e % 16384)

def Dev.setCoef (d : Dev) (n e : Nat) (x : Elem) : Dev :=
  { d with se := { d.se with coef := SMap.set Elem.zero d.se.coef (n * 16384 + e % 16384) x } }

def Dev.progBundle (d : Dev) (n b : Nat) : BitVec 128 := SMap.at 0 d.se.prog (n * 2048 + b % 2048)

def Dev.setProg (d : Dev) (n b : Nat) (x : BitVec 128) : Dev :=
  { d with se := { d.se with prog := SMap.set 0 d.se.prog (n * 2048 + b % 2048) x } }

end Sys2Proof.Machine
end

