-- ==== Sys2Proof/Machine/Engine.lean ====
section
/-! DEFINITION. The signal engines (06_signal_engines): the issue of a bundle, traps, loops and branches, the stream
port, and the engine controls. -/
namespace Sys2Proof.Machine
open Reg

/-! ## Engine state -/

def seIDLE : Nat := 0
def seRUN : Nat := 1
def seHALTED : Nat := 2
def seTRAPPED : Nat := 3

def Dev.seState (d : Dev) (n : Nat) : Nat := d.rf (SE_STAT_STATE n)

def Dev.modEngine (d : Dev) (n : Nat) (f : Engine → Engine) : Dev := d.setEngine n (f (d.engine n))

/-- Engine cycles in `t` Slate ticks, at the 1,250 MHz of R126: one cycle is 0.196 608 ticks. -/
def engCycles (t : Nat) : Nat := t * 15625 / 3072

/-- Slate ticks of `c` engine cycles, rounded up (R167). -/
def engTicks (c : Nat) : Nat := (c * 3072 + 15624) / 15625

/-- Count the cycles since the engine left RUN: every one of them is an idle X cycle (R133), and a cycle of the
operation that a halt holds (Table CSH-10). -/
def Dev.seSettle (d : Dev) (n : Nat) : Dev :=
  if d.seState n = seRUN then d else
  let e := d.engine n
  let c := engCycles d.slate - engCycles e.rest
  (d.incBy (SE_XIDLE_IDLE n) c).setEngine n
    { e with rest := d.slate, cycles := if e.inOp then e.cycles + c else e.cycles }

/-- The engine enters a state. -/
def Dev.seGo (d : Dev) (n st : Nat) : Dev :=
  ((d.seSettle n).wf (SE_STAT_STATE n) st).modEngine n (fun e => { e with rest := d.slate, xrun := 0 })

/-- Is the engine's group powered, out of isolation, and the engine itself not isolated (R166)? -/
def Dev.seUp (d : Dev) (n : Nat) : Bool := d.domainUp (19 + n / 16) && !d.engineIsolated n

/-- The word counts of the stream buffers. -/
def Dev.strmCount (d : Dev) (n : Nat) : Dev :=
  let e := d.engine n
  (d.wf (SE_STRM_IN_WORDS n) (e.inSyms.map List.length).sum).wf (SE_STRM_OUT_WORDS n)
    (e.outOpen.length + (e.outClosed.map List.length).sum)

/-- Log a record of the SE block: byte 0 is the engine (R156). -/
def Dev.seLog (d : Dev) (n code : Nat) (sev : Sev) (det : List Nat) : Dev := d.log 0x18 code sev (n :: det)

/-! ## Writes in flight (R129) -/

/-- Sixteen lanes of a vector replaced by a stream word: the upper half or the lower. -/
def Vec.withHalf (v : Vec) (hi : Bool) (w : StreamWord) : Vec :=
  if hi then { x := (w.x ++ v.x.extractLsb' 0 512).setWidth 1024, p := (w.p ++ v.p.extractLsb' 0 16).setWidth 32 }
  else { x := (v.x.extractLsb' 512 512 ++ w.x).setWidth 1024, p := (v.p.extractLsb' 16 16 ++ w.p).setWidth 32 }

/-- A half of a vector as a stream word. -/
def Vec.half (v : Vec) (hi : Bool) : StreamWord :=
  if hi then { x := v.x.extractLsb' 512 512, p := v.p.extractLsb' 16 16 }
  else { x := v.x.extractLsb' 0 512, p := v.p.extractLsb' 0 16 }

def Engine.setS (e : Engine) (r : Nat) (x : SVal) : Engine := { e with s := SMap.set SVal.zero e.s r x }
def Engine.setV (e : Engine) (r : Nat) (x : Vec) : Engine := { e with v := SMap.set Vec.zero e.v r x }

/-- A write lands. -/
def Engine.land1 (e : Engine) : EngineWrite → Engine
  | .s r x => e.setS r x
  | .v r x => e.setV r x
  | .half r hi x => e.setV r ((e.vreg r).withHalf hi x)
  | .acc a x => { e with accM := SMap.set AccSet.zero e.accM a x }

/-- One engine cycle passes: the writes due land, in the order their bundles issued. -/
def Engine.cycle (e : Engine) : Engine :=
  let due := e.inflight.filter (fun w => w.left ≤ 1)
  let later := (e.inflight.filter (fun w => !(w.left ≤ 1))).map (fun w => { w with left := w.left - 1 })
  (due.map (·.w)).foldl Engine.land1 { e with inflight := later }

/-- Every write in flight lands (R129): the longest latency is four cycles. -/
def Engine.landAll (e : Engine) : Engine := e.cycle.cycle.cycle.cycle

def Engine.later (e : Engine) (left : Nat) (w : EngineWrite) : Engine :=
  { e with inflight := e.inflight ++ [{ left := left, w := w }] }

/-! ## Memory reads (R147) -/

/-- A corrected element or bundle: CE_COUNT, CE and SE 0x03. -/
def Dev.seCe (d : Dev) (n mem addr : Nat) : Dev :=
  ((d.inc (SE_CNT_CE_COUNT n)).on (SE_STAT_CE n)).seLog n 0x03 .info [mem, addr, addr / 256, 0]

/-- An uncorrectable error's flag and place. -/
def Dev.seUeMark (d : Dev) (n mem addr : Nat) : Dev :=
  let d := d.on (SE_STAT_UE n)
  if d.bit (SE_ERRLOC_VALID n) then d
  else ((d.wf (SE_ERRLOC_MEM n) mem).wf (SE_ERRLOC_ADDR n) addr).on (SE_ERRLOC_VALID n)

def Dev.seUe (d : Dev) (n mem addr : Nat) : Dev :=
  (d.seUeMark n mem addr).seLog n 0x04 .error [mem, addr, addr / 256, 0]

/-- The stored element of the scratchpad (memory 0) or the coefficient RAM (memory 1). -/
def Dev.seElem (d : Dev) (n mem addr : Nat) : Elem := if mem = 0 then d.spadElem n addr else d.coefElem n addr

/-- Read `len` elements of a memory from address `a`, lane by lane, with the errors the memory code finds: an
uncorrectable element is delivered poisoned, with data that is free. -/
def Dev.readLanes (d : Dev) (n mem a len : Nat) (errs : LaneErrs) : (Nat → Elem) × Dev :=
  let m := if mem = 0 then 65536 else 16384
  let bad := fun i => errs.ue.getLsbD i
  let f0 := d.free
  let val := fun i =>
    let x := d.seElem n mem ((a + i) % m)
    if bad i then { v := x.v ^^^ Config.freeWord (f0 + i), p := true } else x
  let d := (List.range len).foldl (fun d i =>
    if bad i then d.seUe n mem ((a + i) % m)
    else if errs.ce.getLsbD i then d.seCe n mem ((a + i) % m) else d) d
  (val, if errs.ue = 0 then d else { d with free := f0 + 32 })

def elemsVec (f : Nat → Elem) : Vec := { x := vecBits (fun i => (f i).v), p := laneMask (fun i => (f i).p) }

/-! ## The S slot (Table SE-6) -/

def aluFn (f : AluFn) (a b : Word) : Word :=
  let k := b.toNat % 32
  match f with
  | .add => a + b
  | .sub => a - b
  | .and => a &&& b
  | .or => a ||| b
  | .xor => a ^^^ b
  | .shl => a <<< k
  | .shr => a >>> k
  | .sar => a.sshiftRight k
  | .mul => a * b

/-- The time bus item RDT reads (Tables SE-6 and CTY-13). -/
def Dev.timeBus (d : Dev) (n item : Nat) : Word :=
  match item with
  | 0 => BitVec.ofNat 32 d.slate
  | 1 => (d.engine n).rdtHi
  | 2 => BitVec.ofNat 32 (min 0xFFFF (d.rf CTY_TE_BOUND_BOUND / 1000))
  | _ => BitVec.ofNat 32 (d.rf CTY_STAT_ALARM * 4 + d.rf CTY_STAT_STATE)

/-- The scalar register an S operation writes, and its value. -/
def Dev.sResult (d : Dev) (n : Nat) : SOp → Option (Nat × SVal)
  | .alu f sd sa sb =>
    let a := (d.engine n).sreg sa
    let b := (d.engine n).sreg sb
    some (sd, { v := aluFn f a.v b.v, p := a.p || b.p })
  | .addi sd sa imm =>
    let a := (d.engine n).sreg sa
    some (sd, { v := a.v + BitVec.ofInt 32 imm, p := a.p })
  | .movl sd imm => some (sd, { v := BitVec.ofNat 32 imm, p := false })
  | .movh sd imm =>
    let a := (d.engine n).sreg sd
    some (sd, { v := (BitVec.ofNat 32 imm <<< 16) ||| (a.v &&& 0xFFFF), p := a.p })
  | .mfag sd ag r => some (sd, { v := d.rd (agWord n ag r), p := false })
  | .rdt sd item => some (sd, { v := d.timeBus n item, p := false })
  | .nop | .cmp _ _ | .cmpi _ _ | .mtag _ _ _ => none

/-- The operands of a compare. -/
def Engine.cmpOf (e : Engine) : SOp → Option (SVal × SVal)
  | .cmp sa sb => some (e.sreg sa, e.sreg sb)
  | .cmpi sa imm => some (e.sreg sa, { v := BitVec.ofInt 32 imm, p := false })
  | _ => none

/-- The S slot's effect; operands come from the device before the bundle. -/
def Dev.issueS (d0 : Dev) (n : Nat) (op : SOp) (d : Dev) : Dev :=
  let e0 := d0.engine n
  let d := match d0.sResult n op with
    | some (r, x) => d.modEngine n (fun e => e.setS r x)
    | none => d
  let d := match e0.cmpOf op with
    | some (a, b) => d.modEngine n (fun e => { e with z := zFlag (a.v - b.v), n := nFlag (a.v - b.v), fp := a.p || b.p })
    | none => d
  match op with
  | .mtag ag r sa => d.plainWrite (agWord n ag r) (e0.sreg sa).v
  | .rdt _ 0 => d.modEngine n (fun e => { e with rdtHi := BitVec.ofNat 32 (d0.slate / 2 ^ 32) })
  | _ => d

/-! ## The X and Y slots (Tables SE-7 and SE-8) -/

/-- The AG an X operation names, its PM bit, and whether it accesses a vector. -/
def XOp.ag : XOp → Option (Nat × Bool × Bool)
  | .nop => none
  | .ldv ag _ pm | .stv ag _ pm => some (ag, pm, true)
  | .ldb ag _ pm | .ldx ag _ pm | .stx ag _ pm => some (ag, pm, false)

def YOp.ag : YOp → Option (Nat × Bool × Bool)
  | .nop => none
  | .ldy ag _ pm => some (ag, pm, true)
  | .ldyb ag _ pm => some (ag, pm, false)

/-- OFS as the AG's post-modification leaves it in the device before the bundle. -/
def Dev.postMod (d0 : Dev) (n : Nat) (ag : Option (Nat × Bool × Bool)) (d : Dev) : Dev :=
  match ag with
  | some (k, true, _) => d.wf (SE_AGk_OFS_OFS n k) ((d0.agPost n k).rf (SE_AGk_OFS_OFS n k))
  | _ => d

/-- The X slot's effect. -/
def Dev.issueX (d0 : Dev) (n : Nat) (op : XOp) (errs : LaneErrs) (d : Dev) : Dev :=
  let e0 := d0.engine n
  let d := match op with
    | .nop => d
    | .ldv ag r _ =>
      let (f, d) := d.readLanes n 0 (d0.agAddr n ag 32 65536) 32 errs
      d.modEngine n (fun e => e.later 3 (.v r (elemsVec f)))
    | .stv ag r _ =>
      let a := d0.agAddr n ag 32 65536
      let v := e0.vreg r
      (List.range 32).foldl (fun d i => d.setSpad n (a + i) { v := v.elem i, p := v.p.getLsbD i }) d
    | .ldb ag r _ =>
      let (f, d) := d.readLanes n 0 (d0.agAddr n ag 1 65536) 1 errs
      d.modEngine n (fun e => e.later 3 (.v r { x := vecBits (fun _ => (f 0).v), p := allLanes (f 0).p }))
    | .ldx ag r _ =>
      let (f, d) := d.readLanes n 0 (d0.agAddr n ag 1 65536) 1 errs
      d.modEngine n (fun e => e.later 3 (.s r { v := (f 0).v, p := (f 0).p }))
    | .stx ag r _ =>
      let x := e0.sreg r
      d.setSpad n (d0.agAddr n ag 1 65536) { v := x.v, p := x.p }
  d0.postMod n op.ag d

/-- The Y slot's effect. -/
def Dev.issueY (d0 : Dev) (n : Nat) (op : YOp) (errs : LaneErrs) (d : Dev) : Dev :=
  let d := match op with
    | .nop => d
    | .ldy ag r _ =>
      let (f, d) := d.readLanes n 1 (d0.agAddr n ag 32 16384) 32 errs
      d.modEngine n (fun e => e.later 3 (.v r (elemsVec f)))
    | .ldyb ag r _ =>
      let (f, d) := d.readLanes n 1 (d0.agAddr n ag 1 16384) 1 errs
      d.modEngine n (fun e => e.later 3 (.v r { x := vecBits (fun _ => (f 0).v), p := allLanes (f 0).p }))
  d0.postMod n op.ag d

/-! ## The V slot (Table SE-9) -/

def conjOf (c : Bool) (z : Int × Int) : Int × Int := if c then (z.1, -z.2) else z

/-- The exact complex product. -/
def cmul (a b : Int × Int) : Int × Int := (a.1 * b.1 - a.2 * b.2, a.1 * b.2 + a.2 * b.1)

def both (f : Int → Int) (z : Int × Int) : Int × Int := (f z.1, f z.2)

/-- A lane of VMUL, VMAC or VMSB before wrapping or saturation (R136). -/
def macLane (f : MacFn) (acc p : Int × Int) : Int × Int :=
  match f with
  | .set => p
  | .add => (acc.1 + p.1, acc.2 + p.2)
  | .sub => (acc.1 - p.1, acc.2 - p.2)

/-- Both results of a butterfly (R139). -/
def bflyPair (conj sat : Bool) (sh : Nat) (a b w : Int × Int) : (Int × Int) × (Int × Int) :=
  let t := cmul (conjOf conj w) b
  let out := fun (x : Int) => clip 16 sat (narrow (15 + sh) x)
  ((out (a.1 * 2 ^ 15 + t.1), out (a.2 * 2 ^ 15 + t.2)), (out (a.1 * 2 ^ 15 - t.1), out (a.2 * 2 ^ 15 - t.2)))

/-- Lane `i` of one block of a butterfly with lane distance 2^(n − 1): whether it is a top point, and the lanes of its
top, its bottom and its twiddle. -/
def bflyLanes (dist i : Nat) : Bool × Nat × Nat :=
  let m := 2 ^ (dist - 1)
  if i.testBit (dist - 1) then (false, i - m, i) else (true, i, i + m)

/-- One block of VBFLY with DIST 1 to 5. -/
def bflyBlock (dist : Nat) (conj sat : Bool) (sh : Nat) (v w : Vec) : Vec :=
  vecOf (fun i =>
      let (top, a, b) := bflyLanes dist i
      let r := bflyPair conj sat sh (v.lane a) (v.lane b) (w.lane a)
      if top then r.1 else r.2)
    (laneMask (fun i =>
      let (_, a, b) := bflyLanes dist i
      v.p.getLsbD a || v.p.getLsbD b || w.p.getLsbD a))

/-- A vector of free values. -/
def Dev.drawVec (d : Dev) : Vec × Dev :=
  ({ x := vecBits (fun i => Config.freeWord (d.free + i)), p := (Config.freeWord (d.free + 32)) },
   { d with free := d.free + 33 })

/-- VMUL, VMAC and VMSB: the accumulator set at once for the next V operation, and for the M slot after four cycles
(Table SE-3). -/
def Dev.issueMac (d0 : Dev) (n : Nat) (f : MacFn) (acc va vb : Nat) (conj : Bool) (d : Dev) : Dev :=
  let e0 := d0.engine n
  let a := e0.vreg va
  let b := e0.vreg vb
  let old := e0.accOf acc
  let sat := d0.bit (SE_CTL_ACC_SAT n)
  let raw := fun i => macLane f (old.lane i) (cmul (a.lane i) (conjOf conj (b.lane i)))
  let ovf := (List.range 32).any (fun i => outside 48 (raw i).1 || outside 48 (raw i).2)
  let pois := match f with | .set => a.p ||| b.p | _ => old.p ||| a.p ||| b.p
  let new := accOfLanes (fun i => both (clip 48 sat) (raw i)) pois
  let d := d.modEngine n (fun e => { (e.later 4 (.acc acc new)) with acc := SMap.set AccSet.zero e.acc acc new })
  if ovf then
    let d := d.on (SE_STAT_OVF n)
    if e0.ovfLogged then d else
      let flow := d0.rf (SE_PC_FLOW n)
      (d.modEngine n (fun e => { e with ovfLogged := true })).seLog n 0x06 .note [acc, flow, flow / 256, 0]
  else d

/-- The V slot's effect. An odd vd, which R139 excludes without giving VBFLY a result there, leaves free values in the
two registers. -/
def Dev.issueV (d0 : Dev) (n : Nat) (op : VOp) (d : Dev) : Dev :=
  let e0 := d0.engine n
  match op with
  | .nop => d
  | .mac f acc va vb conj => d0.issueMac n f acc va vb conj d
  | .add sub vd va vb sat sh =>
    let a := e0.vreg va
    let b := e0.vreg vb
    let f := fun (x y : Int) => clip 16 sat (narrow sh (if sub then x - y else x + y))
    d.modEngine n (fun e => e.later 2 (.v vd (vecOf (fun i => (f (a.lane i).1 (b.lane i).1, f (a.lane i).2 (b.lane i).2))
      (a.p ||| b.p))))
  | .mov vd va => d.modEngine n (fun e => e.later 2 (.v vd (e0.vreg va)))
  | .cmul vd va vb conj sat sh =>
    let a := e0.vreg va
    let b := e0.vreg vb
    d.modEngine n (fun e => e.later 4 (.v vd (vecOf
      (fun i => both (fun x => clip 16 sat (narrow (15 + sh) x)) (cmul (a.lane i) (conjOf conj (b.lane i)))) (a.p ||| b.p))))
  | .bfly dist vd va vb vc conj sat sh =>
    let a := e0.vreg va
    let b := e0.vreg vb
    let w := e0.vreg vc
    if vd % 2 = 1 then
      let (x, d) := d.drawVec
      let (y, d) := d.drawVec
      d.modEngine n (fun e => (e.later 4 (.v vd x)).later 4 (.v ((vd + 1) % 32) y))
    else if dist = 0 then
      let p := a.p ||| b.p ||| w.p
      let r := fun i => bflyPair conj sat sh (a.lane i) (b.lane i) (w.lane i)
      d.modEngine n (fun e => (e.later 4 (.v vd (vecOf (fun i => (r i).1) p))).later 4
        (.v (vd + 1) (vecOf (fun i => (r i).2) p)))
    else
      d.modEngine n (fun e => (e.later 4 (.v vd (bflyBlock dist conj sat sh a w))).later 4
        (.v (vd + 1) (bflyBlock dist conj sat sh b w)))

/-! ## The M slot (Table SE-10) -/

/-- VNAR and VNARS: an accumulator set narrowed by `q`, always saturating (R137). -/
def narVec (a : AccSet) (q : Nat) (p : BitVec 32) : Vec := vecOf (fun i => both (fun x => clip 16 true (narrow q x)) (a.lane i)) p

/-- The lane exponent of an accumulator lane (R138). -/
def accExp (z : Int × Int) : Nat := min (rsb 48 z.1) (rsb 48 z.2)

/-- The M slot's effect. -/
def Dev.issueM (d0 : Dev) (n : Nat) (op : MOp) (d : Dev) : Dev :=
  let e0 := d0.engine n
  match op with
  | .nop => d
  | .sld hi r =>
    match e0.inSyms with
    | (w :: ws) :: rest =>
      (d.modEngine n (fun e => { (e.later 2 (.half r hi w)) with inSyms := ws :: rest, inUse := true })).strmCount n
    | _ => d
  | .sst hi r =>
    let w := (e0.vreg r).half hi
    let d := (d.modEngine n (fun e => { e with outOpen := e.outOpen ++ [w] })).strmCount n
    if w.p = 0 then d
    else (d.on (SE_STAT_PSN_USED n)).seLog n 0x02 .error [w.p.toNat, w.p.toNat / 256, hi.toNat, 0]
  | .nar r acc k =>
    let a := e0.accView acc
    d.modEngine n (fun e => e.later 2 (.v r (narVec a k a.p)))
  | .nars r acc sk =>
    let a := e0.accView acc
    let s := e0.sreg sk
    let q := (max 0 (min 47 s.v.toInt)).toNat
    d.modEngine n (fun e => e.later 2 (.v r (narVec a q (a.p ||| allLanes s.p))))
  | .expl r acc =>
    let a := e0.accView acc
    d.modEngine n (fun e => e.later 2 (.v r (vecOf (fun i => ((accExp (a.lane i) : Nat), 0)) a.p)))
  | .expb r acc =>
    let a := e0.accView acc
    let m := (List.range 32).foldl (fun m i => min m (accExp (a.lane i))) 47
    d.modEngine n (fun e => e.later 2 (.s r { v := BitVec.ofNat 32 m, p := a.p != 0 }))
  | .norm r va sk =>
    let v := e0.vreg va
    let m := (List.range 32).foldl (fun m i => min m (min (rsb 16 (v.lane i).1) (rsb 16 (v.lane i).2))) 15
    let bad := v.p != 0
    d.modEngine n (fun e => (e.later 2 (.v r (vecOf (fun i => both (fun x => x * 2 ^ m) (v.lane i)) (allLanes bad)))).later 2
      (.s sk { v := BitVec.ofNat 32 m, p := bad }))
  | .sat r va k =>
    let v := e0.vreg va
    d.modEngine n (fun e => e.later 2 (.v r (vecOf (fun i => both (satTo (k + 1)) (v.lane i)) v.p)))

/-! ## Conflicts and traps (R140, R150) -/

/-- The registers each slot writes: scalars from 0, vectors from 32, accumulator sets from 64, AG registers from 100. -/
def Bundle.writes (b : Bundle) : List (List Nat) :=
  let agOfs := fun (x : Option (Nat × Bool × Bool)) => match x with | some (k, true, _) => [100 + k * 3 + 1] | _ => []
  [ (match b.s with
      | .alu _ sd _ _ | .addi sd _ _ | .movl sd _ | .movh sd _ | .mfag sd _ _ | .rdt sd _ => [sd]
      | .mtag ag r _ => [100 + ag * 3 + r]
      | .nop | .cmp _ _ | .cmpi _ _ => []),
    (match b.x with | .ldv _ r _ | .ldb _ r _ => [32 + r] | .ldx _ r _ => [r] | _ => []) ++ agOfs b.x.ag,
    (match b.y with | .ldy _ r _ | .ldyb _ r _ => [32 + r] | .nop => []) ++ agOfs b.y.ag,
    (match b.v with
      | .mac _ acc _ _ _ => [64 + acc]
      | .add _ vd _ _ _ _ | .mov vd _ | .cmul vd _ _ _ _ _ => [32 + vd]
      | .bfly _ vd _ _ _ _ _ _ => [32 + vd, 32 + (vd + 1) % 32]
      | .nop => []),
    (match b.m with
      | .sld _ r | .nar r _ _ | .nars r _ _ | .expl r _ | .sat r _ _ => [32 + r]
      | .expb r _ => [r]
      | .norm r _ sk => [32 + r, sk]
      | .nop | .sst _ _ => []) ]

/-- The lowest slot of a CONFLICT, if the bundle has one. -/
def Bundle.conflict (b : Bundle) : Option Nat :=
  let w := b.writes
  let clash := fun i => (w.getD i []).any (fun r => (List.range 5).any (fun j => j != i && (w.getD j []).contains r))
  let sameAg := match b.x.ag, b.y.ag with | some (i, _, _), some (j, _, _) => i == j | _, _ => false
  (List.range 5).find? (fun i => clash i || (sameAg && i == 1))

/-- Where a branch goes if it is taken; `none` where the bundle branches not. -/
def Engine.target (e : Engine) (pc : Nat) : COp → Option Int
  | .br .always o => some ((pc : Int) + o)
  | .br .z o => if e.z then some ((pc : Int) + o) else none
  | .br .nz o => if e.z then none else some ((pc : Int) + o)
  | .jmps r => some (((e.sreg r).v.toNat % 2048 : Nat) : Int)
  | _ => none

def COp.isBranch : COp → Bool
  | .br _ _ | .jmps _ => true
  | _ => false

/-- Is a REP, or a branch in a body, a REPEAT trap (R142)? -/
def Engine.repeatBad (e : Engine) (pc : Nat) : COp → Bool
  | .rep len _ =>
    decide (2048 ≤ pc + len) ||
      (match e.loops with
       | [] => false
       | [f] => decide (f.start + f.len ≤ pc + len)
       | _ => true)
  | c => c.isBranch && !e.loops.isEmpty

/-- Does poison decide control here (R149)? The slot that holds it. -/
def Engine.poisonBad (e : Engine) (b : Bundle) : Option Nat :=
  let s := match b.s with | .mtag _ _ sa => (e.sreg sa).p | _ => false
  let c := match b.c with
    | .rep _ cnt => (e.sreg cnt).p
    | .br .z _ | .br .nz _ => e.fp
    | .jmps r => (e.sreg r).p
    | _ => false
  if s then some 0 else if c then some 5 else none

/-- The trap of a legal bundle: the lowest cause of Table SE-12 that applies, and its slot. -/
def Dev.trapOf (d : Dev) (n : Nat) (b : Bundle) : Option (Nat × Nat) :=
  let e := d.engine n
  let pc := d.rf (SE_PC_PC n)
  let align := fun (x : Option (Nat × Bool × Bool)) => match x with | some (k, _, true) => d.agMisaligned n k | _ => false
  let sld := match b.m, e.inSyms with | .sld _ _, (_ :: _) :: _ => false | .sld _ _, _ => true | _, _ => false
  let sst := match b.m with
    | .sst _ _ => decide (512 ≤ e.outOpen.length + (e.outClosed.map List.length).sum)
    | _ => false
  match b.conflict with
  | some i => some (3, i)
  | none =>
    if align b.x.ag then some (4, 1)
    else if align b.y.ag then some (4, 2)
    else if e.repeatBad pc b.c then some (5, 5)
    else if sld || sst then some (6, 4)
    else if (match e.target pc b.c with | some t => decide (t < 0) || decide (2047 < t) | none => false) then some (7, 5)
    else (e.poisonBad b).map (fun i => (8, i))

/-- Report the end of the operation in service to the scheduler, which takes it at tick t + 5 + ⌈0.196 608 × n⌉ for n
engine cycles (R167). -/
def Dev.seReport (d : Dev) (n status : Nat) : Dev :=
  match SMap.at none d.csh.ops n with
  | some op =>
    let due := op.issue + 5 + engTicks (d.engine n).cycles
    { d with csh := { d.csh with ops := SMap.set none d.csh.ops n (some { op with rep := some (due, status) }) } }
  | none => d

/-- What the engine gives up when an operation ends: loops, writes in flight (which land), and an input symbol read to
its end. -/
def Engine.endOp (e : Engine) (dropSym : Bool) : Engine :=
  let e := e.landAll
  { e with
    inOp := false, loops := [], cache := [], pastEnd := false, inUse := false,
    inSyms := match e.inSyms with
      | sym :: rest => if sym.isEmpty || (dropSym && e.inUse) then rest else sym :: rest
      | [] => [] }

/-- A trap (R150). One with cause POISON has consumed a poisoned word (R149). -/
def Dev.seTrap (d : Dev) (n cause slot pc : Nat) : Dev :=
  let d := if cause = 8 then d.on (SE_STAT_PSN_USED n) else d
  let d := ((d.seReport n stABORT).modEngine n (fun e => e.endOp false)).strmCount n
  let d := (d.seGo n seTRAPPED).on (SE_STAT_TRAP n)
  let d := (((d.wf (SE_TRAP_CAUSE n) cause).wf (SE_TRAP_SLOT n) slot).wf (SE_TRAP_PC n) pc).on (SE_TRAP_VALID n)
  (d.inc (SE_CNT_TRAP_COUNT n)).seLog n 0x01 .error [cause, slot, pc, pc / 256]

/-! ## Control: loops, branches, the end of the operation -/

/-- The next bundle after bundle `p`, through the ends of the loop bodies that end there (R142). -/
def nextPc (p : Nat) : List LoopFrame → Nat × List LoopFrame
  | [] => (p + 1, [])
  | f :: fs =>
    if p + 1 = f.start + f.len then
      if 1 < f.left then (f.start, { f with left := f.left - 1 } :: fs) else nextPc p fs
    else (p + 1, f :: fs)

/-- Set the address of the next bundle; past bundle 2,047 the field cannot hold it, and its value is free. -/
def Dev.seSetPc (d : Dev) (n pc : Nat) : Dev :=
  if pc < 2048 then (d.wf (SE_PC_PC n) pc).modEngine n (fun e => { e with pastEnd := false })
  else
    let (w, d) := d.draw
    (d.wf (SE_PC_PC n) w.toNat).modEngine n (fun e => { e with pastEnd := true })

/-- Go on after bundle `p` with these loops. -/
def Dev.seAdvance (d : Dev) (n p : Nat) (loops : List LoopFrame) : Dev :=
  let (q, ls) := nextPc p loops
  (d.modEngine n (fun e => { e with loops := ls, cache := if ls.isEmpty then [] else e.cache })).seSetPc n q

/-- The bundles of a loop body, as they stand in program RAM. -/
def Dev.bodyCache (d : Dev) (n start len : Nat) : SMap (BitVec 128) :=
  (List.range len).foldl (fun m i => SMap.set 0 m (start + i) (d.progBundle n (start + i))) []

/-- Close the open output symbol, if a word is in it. -/
def Engine.send (e : Engine) : Engine :=
  if e.outOpen.isEmpty then e else { e with outClosed := e.outClosed ++ [e.outOpen], outOpen := [] }

/-- KICK: the mover's TAIL advances by one, or the KICK is refused on a full ring (R154). -/
def Dev.kick (d : Dev) (n : Nat) : Dev :=
  let head := d.rf (DLM_STAT_HEAD n)
  let tail := d.rf (DLM_TAIL_TAIL n)
  if (tail + 1) % 16 = head then (d.on (DLM_STAT_FULL n)).log 0x19 0x03 .warn [n, head, tail, 0, 0]
  else d.wf (DLM_TAIL_TAIL n) ((tail + 1) % 16)

/-- The end of an operation by DONE: the open output symbol closes, the unread words of the input symbol go, every
write lands, and the engine is IDLE, or HALTED while SE_CTL.HALT is set (R143). -/
def Dev.seDone (d : Dev) (n : Nat) : Dev :=
  let d := ((d.seReport n stDONE).modEngine n (fun e => e.send.endOp true)).strmCount n
  d.seGo n (if d.bit (SE_CTL_HALT n) then seHALTED else seIDLE)

/-- The C slot's effect and the next bundle's address; `d0`: the device before the bundle. -/
def Dev.issueC (d0 : Dev) (n : Nat) (op : COp) (d : Dev) : Dev :=
  let e0 := d0.engine n
  let pc := d0.rf (SE_PC_PC n)
  match e0.target pc op with
  | some t =>
    -- a taken branch: two cycles without issue (R141)
    ((d.modEngine n (fun e => { e.cycle.cycle with cycles := e.cycles + 2, xrun := 0, stall := 2 })).incBy (SE_XIDLE_IDLE n) 2).seSetPc
      n t.toNat
  | none =>
    match op with
    | .rep len cnt =>
      let c := (e0.sreg cnt).v.toNat
      if c = 0 then d.seAdvance n (pc + len) e0.loops
      else
        let cache := if e0.loops.isEmpty then d0.bodyCache n (pc + 1) len else e0.cache
        (d.modEngine n (fun e => { e with cache := cache })).seAdvance n pc
          ({ start := pc + 1, len := len, left := c } :: e0.loops)
    | .kick => (d.kick n).seAdvance n pc e0.loops
    | .send => ((d.modEngine n Engine.send).strmCount n).seAdvance n pc e0.loops
    | .evt code => ((d.on (SE_STAT_EVT n)).wf (SE_EVT_CODE n) code).seAdvance n pc e0.loops
    | .brk => ((d.seAdvance n pc e0.loops).modEngine n Engine.landAll).seGo n seHALTED
    | .done => (d.seAdvance n pc e0.loops).seDone n
    | .nop | .br _ _ | .jmps _ => d.seAdvance n pc e0.loops

/-- Count the X cycle of an issued bundle (R133). -/
def Dev.countX (d : Dev) (n : Nat) (used : Bool) : Dev :=
  if used then
    let r := (d.engine n).xrun + 1
    (d.modEngine n (fun e => { e with xrun := r })).wf (SE_XRUN_MAXRUN n) (satU 32 (max r (d.rf (SE_XRUN_MAXRUN n))))
  else (d.modEngine n (fun e => { e with xrun := 0 })).inc (SE_XIDLE_IDLE n)

/-- Is the scratchpad word of the bundle's X access in the window that a preserving march run tests (R121)? A word is
32 elements, a window 8 words. -/
def Dev.xHeld (d : Dev) (n : Nat) (b : Bundle) : Bool :=
  match b.x.ag, SMap.at none d.fab.march (n / 32) with
  | some (k, _, vec), some m =>
    m.preserve && m.kinds.testBit 2 && m.engines.testBit (n % 32) &&
      d.agAddr n k (if vec then 32 else 1) 65536 / 256 == m.window
  | _, _ => false

/-- Issue a bundle at the engine's PC: writes due land, the six slots read their operands and act together, and a
bundle that traps has no effect in any slot (R128, R140). A cycle that a march run holds issues nothing (R121). -/
def Dev.issueBundle (d : Dev) (n : Nat) (b : Bundle) (x y : LaneErrs) : Dev :=
  let d := d.modEngine n (fun e => { e.cycle with cycles := e.cycles + 1 })
  if (d.engine n).pastEnd then
    let (w, d) := d.draw
    d.seTrap n 7 7 (w.toNat % 2048)
  else
    match d.trapOf n b with
    | some (cause, slot) => d.seTrap n cause slot (d.rf (SE_PC_PC n))
    | none =>
      if d.xHeld n b then d else
      let d1 := d0Issue d
      d.issueC n b.c (d1.countX n (b.x != .nop))
where
  d0Issue (d0 : Dev) : Dev := d0.issueM n b.m (d0.issueV n b.v (d0.issueS n b.s (d0.issueY n b.y y (d0.issueX n b.x x d0))))

/-- The bundle at PC: from the repeat cache while a body runs, unless its check fails there (R142). -/
def Dev.fetched (d : Dev) (n : Nat) (cacheBad : Bool) : BitVec 128 :=
  let pc := d.rf (SE_PC_PC n)
  if (d.engine n).loops.isEmpty || cacheBad then d.progBundle n pc else SMap.at 0 (d.engine n).cache pc

/-- Fetch and issue the bundle at PC (R140, R142, R147). -/
def Dev.fetchIssue (d : Dev) (n : Nat) (env : IssueEnv) : Dev :=
  let pc := d.rf (SE_PC_PC n)
  if (d.engine n).pastEnd then d.issueBundle n Bundle.nops env.x env.y else
  let d := if env.cacheBad && !(d.engine n).loops.isEmpty then d.seLog n 0x09 .info [pc, pc / 256, 0, 0] else d
  match env.fetch with
  | .uncorrectable => (d.seUeMark n 2 pc).seTrap n 1 7 pc
  | e =>
    let d := if e = .corrected then d.seCe n 2 pc else d
    match decodeBundle (d.fetched n env.cacheBad) with
    | .inl b => d.issueBundle n b env.x env.y
    | .inr slot => d.seTrap n 2 slot pc

/-! ## Operations and controls -/

/-- The scheduler issues an operation (R143). -/
def Dev.seIssue (d : Dev) (n prog flow early inH outH : Nat) : Dev :=
  let d := d.seSettle n
  let sv := fun (v : Nat) => ({ v := BitVec.ofNat 32 v, p := false } : SVal)
  let d := d.modEngine n (fun e =>
    { (((e.setS 12 (sv flow)).setS 13 (sv early)).setS 14 (sv inH)).setS 15 (sv outH) with
      inOp := true, cycles := 0, ovfLogged := false, pastEnd := false, loops := [], cache := [], start := d.slate + 2, stall := 0,
      inUse := inH.testBit 11 })
  ((d.wf (SE_PC_PC n) prog).wf (SE_PC_FLOW n) flow).seGo n seRUN

/-- An operation in service ends with ABORT on this tick, by power or isolation, whatever report the hub holds of it (R155, Table
CSH-10). -/
def Dev.seAbort (d : Dev) (n : Nat) : Dev :=
  let d := match SMap.at none d.csh.ops n with
    | some op =>
      { d with csh := { d.csh with ops := SMap.set none d.csh.ops n (some { op with rep := some (d.slate, stABORT) }) } }
    | none => d
  if (d.engine n).inOp then
    ((d.modEngine n (fun e => e.endOp false)).strmCount n).seGo n (if d.bit (SE_CTL_HALT n) then seHALTED else seIDLE)
  else d

/-- The level of SE_CTL.HALT acts (R155): a running engine halts once its writes have landed, an idle one shows
HALTED; clearing it releases a halted engine. -/
def Dev.seHaltLevel (d : Dev) (n : Nat) (halt : Bool) : Dev :=
  let s := d.seState n
  if halt then
    if s = seRUN then (d.modEngine n Engine.landAll).seGo n seHALTED
    else if s = seIDLE then d.seGo n seHALTED else d
  else if s = seHALTED then
    let d := d.seSettle n
    d.seGo n (if (d.engine n).inOp then seRUN else seIDLE)
  else d

/-- A step of a halted engine: one bundle, its writes landed, and HALTED again unless the bundle ended the operation
or trapped (R365). -/
def Dev.seStep (d : Dev) (n : Nat) (env : IssueEnv) : Dev :=
  let d := (d.seSettle n).wf (SE_STAT_STATE n) seRUN
  let d := d.fetchIssue n env
  if d.seState n = seRUN then (d.modEngine n Engine.landAll).seGo n seHALTED else d

/-- A write of SE_CTL: HALT, STEP and RESUME act in the order of their bits. -/
def Dev.seCtlWrite (d : Dev) (n : Nat) (v : Word) (env : IssueEnv) : Dev :=
  let d := d.plainWrite (SE_CTL n) v
  let d := d.seHaltLevel n (d.bit (SE_CTL_HALT n))
  let d := if v.getLsbD 1 && d.seState n == seHALTED then d.seStep n env else d
  if v.getLsbD 2 && d.seState n == seTRAPPED then
    (d.off (SE_TRAP_VALID n)).seGo n (if d.bit (SE_CTL_HALT n) then seHALTED else seIDLE)
  else d

/-- A memory access that meets no error. -/
def LaneErrs.none : LaneErrs := { ce := 0, ue := 0 }

def IssueEnv.clean : IssueEnv := { fetch := .clean, cacheBad := false, x := LaneErrs.none, y := LaneErrs.none }

/-- A control-bus write of an AG register: ignored while the engine runs (R155). -/
def Dev.agWrite (d : Dev) (n ag r : Nat) (v : Word) : Dev :=
  if d.seState n = seRUN then d.seLog n 0x08 .warn [ag, r, 0, 0] else d.plainWrite (agWord n ag r) v

/-- May the engine issue: it runs, its group is up, and the tick from which its operation's bundles issue has come (R167)? -/
def Dev.seIssues (d : Dev) (n : Nat) : Bool :=
  d.seState n == seRUN && d.seUp n && decide ((d.engine n).start ≤ d.slate)

/-- A cycle of the present tick is over, and with it those that a taken branch leaves without issue. -/
def Dev.seRan (d : Dev) (n : Nat) : Dev := d.modEngine n (fun e => { e with ran := e.ran + e.stall + 1, stall := 0 })

/-- A running engine issues a bundle that holds one operation, in a cycle of the present tick (log entry 177). -/
def State.seOp (s : State) (n : Fin 64) (b : Bundle) (x y : LaneErrs) : Out :=
  s.act (fun d => if d.seIssues n then (d.seRan n).issueBundle n b x y else d)

/-- One cycle of a running engine: none of its own while a taken branch leaves it without issue, else the bundle at PC (R128). -/
def Dev.seCycle (d : Dev) (n : Nat) (env : IssueEnv) : Dev :=
  if !d.seIssues n then d
  else if 0 < (d.engine n).stall then d.modEngine n (fun e => { e with stall := e.stall - 1 })
  else d.fetchIssue n env

/-- The engine cycles of a Slate tick, those whose edges lie in it (R126). -/
def tickEngineCycles (t : Nat) : Nat := (((t + 1) * 15625 + 3071) / 3072) - ((t * 15625 + 3071) / 3072)

/-- The tick ends: every running engine has issued from its program in the cycles of it that were left. -/
def Dev.engineTick (d : Dev) (issues : List (Fin 64 × Nat × IssueEnv)) : Dev :=
  (List.range 64).foldl (fun d n =>
    if d.seState n != seRUN && (d.engine n).ran == 0 then d
    else
      let done := (d.engine n).ran
      let d := (List.range (tickEngineCycles d.slate - done)).foldl (fun d i =>
        d.seCycle n (match issues.find? (fun x => x.1.val == n && x.2.1 == done + i) with
          | some x => x.2.2
          | none => IssueEnv.clean)) d
      d.modEngine n (fun e => { e with ran := 0 })) d

def sOnly (op : SOp) : Bundle := { Bundle.nops with s := op }
def xOnly (op : XOp) : Bundle := { Bundle.nops with x := op }
def yOnly (op : YOp) : Bundle := { Bundle.nops with y := op }
def vOnly (op : VOp) : Bundle := { Bundle.nops with v := op }
def mOnly (op : MOp) : Bundle := { Bundle.nops with m := op }
def cOnly (op : COp) : Bundle := { Bundle.nops with c := op }

def State.seS (s : State) (n : Fin 64) (op : SOp) : Out := s.seOp n (sOnly op) LaneErrs.none LaneErrs.none
def State.seX (s : State) (n : Fin 64) (op : XOp) (errs : LaneErrs) : Out := s.seOp n (xOnly op) errs LaneErrs.none
def State.seY (s : State) (n : Fin 64) (op : YOp) (errs : LaneErrs) : Out := s.seOp n (yOnly op) LaneErrs.none errs
def State.seV (s : State) (n : Fin 64) (op : VOp) : Out := s.seOp n (vOnly op) LaneErrs.none LaneErrs.none
def State.seM (s : State) (n : Fin 64) (op : MOp) : Out := s.seOp n (mOnly op) LaneErrs.none LaneErrs.none
def State.seC (s : State) (n : Fin 64) (op : COp) : Out := s.seOp n (cOnly op) LaneErrs.none LaneErrs.none

/-! ### Scalar operations (Table SE-6) -/

def execSeNop (n : Fin 64) (s : State) : Out := s.seOp n Bundle.nops LaneErrs.none LaneErrs.none
def execSeAdd (n : Fin 64) (sd sa sb : Fin 16) (s : State) : Out := s.seS n (.alu .add sd sa sb)
def execSeSub (n : Fin 64) (sd sa sb : Fin 16) (s : State) : Out := s.seS n (.alu .sub sd sa sb)
def execSeAnd (n : Fin 64) (sd sa sb : Fin 16) (s : State) : Out := s.seS n (.alu .and sd sa sb)
def execSeOr (n : Fin 64) (sd sa sb : Fin 16) (s : State) : Out := s.seS n (.alu .or sd sa sb)
def execSeXor (n : Fin 64) (sd sa sb : Fin 16) (s : State) : Out := s.seS n (.alu .xor sd sa sb)
def execSeShl (n : Fin 64) (sd sa sb : Fin 16) (s : State) : Out := s.seS n (.alu .shl sd sa sb)
def execSeShr (n : Fin 64) (sd sa sb : Fin 16) (s : State) : Out := s.seS n (.alu .shr sd sa sb)
def execSeSar (n : Fin 64) (sd sa sb : Fin 16) (s : State) : Out := s.seS n (.alu .sar sd sa sb)
def execSeMul (n : Fin 64) (sd sa sb : Fin 16) (s : State) : Out := s.seS n (.alu .mul sd sa sb)
def execSeCmp (n : Fin 64) (sa sb : Fin 16) (s : State) : Out := s.seS n (.cmp sa sb)
def execSeAddi (n : Fin 64) (sd sa : Fin 16) (imm : BitVec 15) (s : State) : Out := s.seS n (.addi sd sa imm.toInt)
def execSeCmpi (n : Fin 64) (sa : Fin 16) (imm : BitVec 15) (s : State) : Out := s.seS n (.cmpi sa imm.toInt)
def execSeMovl (n : Fin 64) (sd : Fin 16) (imm : BitVec 16) (s : State) : Out := s.seS n (.movl sd imm.toNat)
def execSeMovh (n : Fin 64) (sd : Fin 16) (imm : BitVec 16) (s : State) : Out := s.seS n (.movh sd imm.toNat)
def execSeMtag (n : Fin 64) (ag : Fin 4) (r : AgReg) (sa : Fin 16) (s : State) : Out := s.seS n (.mtag ag (agCode r) sa)
def execSeMfag (n : Fin 64) (sd : Fin 16) (ag : Fin 4) (r : AgReg) (s : State) : Out := s.seS n (.mfag sd ag (agCode r))
def execSeRdt (n : Fin 64) (sd : Fin 16) (item : Fin 4) (s : State) : Out := s.seS n (.rdt sd item)

/-! ### Scratchpad and coefficient accesses (Tables SE-7 and SE-8) -/

def execSeLdv (n : Fin 64) (ag : Fin 4) (vd : Fin 32) (pm : Bool) (errs : LaneErrs) (s : State) : Out := s.seX n (.ldv ag vd pm) errs
def execSeStv (n : Fin 64) (ag : Fin 4) (vs : Fin 32) (pm : Bool) (s : State) : Out := s.seX n (.stv ag vs pm) LaneErrs.none
def execSeLdb (n : Fin 64) (ag : Fin 4) (vd : Fin 32) (pm : Bool) (errs : LaneErrs) (s : State) : Out := s.seX n (.ldb ag vd pm) errs
def execSeLdx (n : Fin 64) (ag : Fin 4) (sd : Fin 16) (pm : Bool) (errs : LaneErrs) (s : State) : Out := s.seX n (.ldx ag sd pm) errs
def execSeStx (n : Fin 64) (ag : Fin 4) (sr : Fin 16) (pm : Bool) (s : State) : Out := s.seX n (.stx ag sr pm) LaneErrs.none
def execSeLdy (n : Fin 64) (ag : Fin 4) (vd : Fin 32) (pm : Bool) (errs : LaneErrs) (s : State) : Out := s.seY n (.ldy ag vd pm) errs
def execSeLdyb (n : Fin 64) (ag : Fin 4) (vd : Fin 32) (pm : Bool) (errs : LaneErrs) (s : State) : Out := s.seY n (.ldyb ag vd pm) errs

/-! ### Vector operations (Table SE-9) -/

def execSeVmul (n : Fin 64) (acc : Fin 4) (va vb : Fin 32) (conj : Bool) (s : State) : Out := s.seV n (.mac .set acc va vb conj)
def execSeVmac (n : Fin 64) (acc : Fin 4) (va vb : Fin 32) (conj : Bool) (s : State) : Out := s.seV n (.mac .add acc va vb conj)
def execSeVmsb (n : Fin 64) (acc : Fin 4) (va vb : Fin 32) (conj : Bool) (s : State) : Out := s.seV n (.mac .sub acc va vb conj)
def execSeVadd (n : Fin 64) (vd va vb : Fin 32) (sat sh : Bool) (s : State) : Out := s.seV n (.add false vd va vb sat sh.toNat)
def execSeVsub (n : Fin 64) (vd va vb : Fin 32) (sat sh : Bool) (s : State) : Out := s.seV n (.add true vd va vb sat sh.toNat)
def execSeVmov (n : Fin 64) (vd va : Fin 32) (s : State) : Out := s.seV n (.mov vd va)
def execSeVcmul (n : Fin 64) (vd va vb : Fin 32) (conj sat sh : Bool) (s : State) : Out := s.seV n (.cmul vd va vb conj sat sh.toNat)
def execSeVbfly (n : Fin 64) (vd va vb vc : Fin 32) (dist : Fin 6) (conj sat sh : Bool) (s : State) : Out :=
  s.seV n (.bfly dist vd va vb vc conj sat sh.toNat)

/-! ### Stream and special operations (Table SE-10) -/

def execSeSldLo (n : Fin 64) (vd : Fin 32) (s : State) : Out := s.seM n (.sld false vd)
def execSeSldHi (n : Fin 64) (vd : Fin 32) (s : State) : Out := s.seM n (.sld true vd)
def execSeSstLo (n : Fin 64) (va : Fin 32) (s : State) : Out := s.seM n (.sst false va)
def execSeSstHi (n : Fin 64) (va : Fin 32) (s : State) : Out := s.seM n (.sst true va)
def execSeVnar (n : Fin 64) (vd : Fin 32) (acc : Fin 4) (k : Fin 32) (s : State) : Out := s.seM n (.nar vd acc k)
def execSeVnars (n : Fin 64) (vd : Fin 32) (acc : Fin 4) (sk : Fin 16) (s : State) : Out := s.seM n (.nars vd acc sk)
def execSeVexpl (n : Fin 64) (vd : Fin 32) (acc : Fin 4) (s : State) : Out := s.seM n (.expl vd acc)
def execSeVexpb (n : Fin 64) (sd : Fin 16) (acc : Fin 4) (s : State) : Out := s.seM n (.expb sd acc)
def execSeVnorm (n : Fin 64) (vd va : Fin 32) (sk : Fin 16) (s : State) : Out := s.seM n (.norm vd va sk)

/-- VSAT; its K outside 1 to 15 is illegal (Table SE-10) and traps. -/
def execSeVsat (n : Fin 64) (vd va : Fin 32) (k : Fin 32) (s : State) : Out :=
  if 1 ≤ k.val ∧ k.val ≤ 15 then s.seM n (.sat vd va k)
  else s.act (fun d => if d.seState n = seRUN && d.seUp n then d.seTrap n 2 4 (d.rf (SE_PC_PC n)) else d)

/-! ### Control operations (Table SE-11) -/

def execSeRep (n : Fin 64) (len : Fin 32) (cnt : Fin 8) (s : State) : Out := s.seC n (.rep (len + 1) cnt)
def execSeBr (n : Fin 64) (ofs : BitVec 8) (s : State) : Out := s.seC n (.br .always ofs.toInt)
def execSeBrz (n : Fin 64) (ofs : BitVec 8) (s : State) : Out := s.seC n (.br .z ofs.toInt)
def execSeBrnz (n : Fin 64) (ofs : BitVec 8) (s : State) : Out := s.seC n (.br .nz ofs.toInt)
def execSeJmps (n : Fin 64) (sr : Fin 8) (s : State) : Out := s.seC n (.jmps sr)
def execSeKick (n : Fin 64) (s : State) : Out := s.seC n .kick
def execSeSend (n : Fin 64) (s : State) : Out := s.seC n .send
def execSeEvt (n : Fin 64) (code : BitVec 8) (s : State) : Out := s.seC n (.evt code.toNat)
def execSeBrk (n : Fin 64) (s : State) : Out := s.seC n .brk
def execSeDone (n : Fin 64) (s : State) : Out := s.seC n .done

/-! ### Engine controls -/

/-- A write of SE_CTL with HALT set (R155). -/
def execEngineHalt (_rq : Requester) (n : Fin 64) (v : Word) (s : State) : Out :=
  s.busWrite (SE_CTL n) (fun d => d.seCtlWrite n (v ||| 1) IssueEnv.clean)

/-- A write of SE_CTL with HALT clear. -/
def execEngineHaltRelease (_rq : Requester) (n : Fin 64) (v : Word) (s : State) : Out :=
  s.busWrite (SE_CTL n) (fun d => d.seCtlWrite n (v &&& ~~~(1 : Word)) IssueEnv.clean)

/-- A write of SE_CTL with STEP set (R365). -/
def execEngineStep (_rq : Requester) (n : Fin 64) (v : Word) (env : IssueEnv) (s : State) : Out :=
  s.busWrite (SE_CTL n) (fun d => d.seCtlWrite n (v ||| 2) env)

/-- A write of SE_CTL with RESUME set (R150). -/
def execEngineResume (_rq : Requester) (n : Fin 64) (v : Word) (s : State) : Out :=
  s.busWrite (SE_CTL n) (fun d => d.seCtlWrite n (v ||| 4) IssueEnv.clean)

/-- Is the engine's input its neighbour's output (R146)? -/
def Dev.fromNeighbour (d : Dev) (n : Nat) : Bool := n % 16 != 0 && d.bit (SE_CTL_STRM_SRC n)

/-- Are the words of a symbol free in the input buffer (R144)? -/
def Dev.symbolFits (d : Dev) (n : Nat) (words : List StreamWord) : Bool :=
  d.seUp n && decide (d.rf (SE_STRM_IN_WORDS n) + words.length ≤ 512)

def Dev.symbolStore (d : Dev) (n : Nat) (words : List StreamWord) : Dev :=
  (d.modEngine n (fun e => { e with inSyms := e.inSyms ++ [words] })).strmCount n

/-- A symbol offered by the fabric to the input buffer (R144): stored whole when its words are free, refused above 512
words; otherwise its sender holds it. An engine that is off, isolated or fed by its neighbour takes none. -/
def execStreamSymbolIn (n : Fin 64) (words : List StreamWord) (s : State) : Out :=
  s.act (fun d =>
    let l := words.length
    if !d.seUp n || d.fromNeighbour n || l = 0 then d
    else if 512 < l then
      ((d.out (.streamReject n stLENGTH)).on (SE_STAT_STRM_REJ n)).seLog n 0x05 .warn [l, l / 256, 0, 0]
    else if d.symbolFits n words then d.symbolStore n words
    else d)

/-- The words of closed symbols that the fabric takes, at most `k`; a symbol that it has taken whole is gone. -/
def takeWords : Nat → List (List StreamWord) → List StreamWord × List (List StreamWord)
  | _, [] => ([], [])
  | k, w :: ws =>
    if k < w.length then (w.take k, w.drop k :: ws)
    else let (l, r) := takeWords (k - w.length) ws; (w ++ l, r)

/-- The closed symbols of an engine leave in a tick (R145, R146): for the fabric word by word, `k` words being taken; for the next
engine each whole, when its words are free there. -/
def Dev.symbolsPass (d : Dev) (n k : Nat) : Dev :=
  let l := (d.engine n).outClosed
  if n % 16 ≠ 15 ∧ d.fromNeighbour (n + 1) then
    l.foldl (fun d w =>
      if d.symbolFits (n + 1) w && (d.engine n).outClosed.head? == some w then
        ((d.symbolStore (n + 1) w).modEngine n (fun e => { e with outClosed := e.outClosed.drop 1 })).strmCount n
      else d) d
  else
    let (ws, rest) := takeWords k l
    if ws.isEmpty then d
    else ((d.modEngine n (fun e => { e with outClosed := rest })).strmCount n).out (.streamOut n ws)

/-- In a Slate tick: what the closed symbols of every engine that is not isolated come to. -/
def Dev.streamTick (d : Dev) (takes : List (Fin 64 × Nat)) : Dev :=
  (List.range 64).foldl (fun d n =>
    if (d.engine n).outClosed.isEmpty || !d.seUp n then d
    else d.symbolsPass n (match takes.find? (fun x => x.1.val == n) with | some x => x.2 | none => 0)) d

/-- The control-bus address of a scratchpad element (Table SE-2). -/
def spadAddr (n : Nat) (elem : BitVec 16) : Nat := 0x40000000 + n * 0x40000 + elem.toNat * 4

/-- An access to a memory window: the bars of `barred`, then the window's own answer. -/
def Dev.window (d : Dev) (a : Nat) (f : Dev → Dev) : Dev :=
  match d.barred a with
  | some d' => d'
  | none => f d.ok

/-- A control-bus access to a scratchpad that an idle X cycle serves (R130, R131, R147). -/
def Dev.spadAccess (d : Dev) (n : Nat) (elem : BitVec 16) (write : Bool) (data : Word) (ecc : Ecc) : Dev :=
  let a := elem.toNat
  if write then d.setSpad n a { v := data, p := false } else
  let x := d.spadElem n a
  match ecc with
  | .uncorrectable =>
    let (w, d) := d.draw
    { d with resp := .dataError (x.v ^^^ w) }
  | e =>
    let d := if e = .corrected then d.seCe n 0 a else d
    if x.p then { (d.seLog n 0x0A .error [a, a / 256, 0, 0]) with resp := .dataError x.v }
    else { d with resp := .data x.v }

/-- The engine base in the control-bus map. -/
def engineBase (n : Nat) : Nat := SE_CTL n

/-- A word written through the external write port of the coefficient RAM or the program RAM (R132, R6). -/
def Dev.ramExtWrite (d : Dev) (n : Nat) (ram : EngineRam) (word : Nat) (data : Word) : Dev :=
  match ram with
  | .coefficient => d.setCoef n word { v := data, p := false }
  | .program =>
    let b := word / 4
    let k := 32 * (word % 4)
    let old := d.progBundle n b
    let mask : BitVec 128 := (0xFFFFFFFF : BitVec 128) <<< k
    d.setProg n b ((old &&& ~~~mask) ||| (data.setWidth 128 <<< k))

/-- A write to coefficient or program RAM through the external write port. The program RAM ends at word 8,191. -/
def execEngineRamExtWrite (_rq : Requester) (n : Fin 64) (ram : EngineRam) (word : BitVec 14) (data : Word) (s : State) : Out :=
  let base := engineBase n + (match ram with | .coefficient => 0x10000 | .program => 0x8000)
  s.busAct (fun d => d.window (base + word.toNat * 4) (fun d =>
    if ram = .program && 8192 ≤ word.toNat then d.err else d.ramExtWrite n ram word.toNat data))

/-- A control-bus write of an address generator's register. -/
def execAddressGeneratorWrite (_rq : Requester) (n : Fin 64) (ag : Fin 4) (r : AgReg) (v : Word) (s : State) : Out :=
  s.busWrite (agWord n ag (agCode r)) (fun d => d.agWrite n ag (agCode r) v)

end Sys2Proof.Machine
end

