-- ==== Sys2Proof/Machine/CallSheet.lean ====
section
/-! DEFINITION. The Call Sheet and its scheduler (07_call_sheet_and_scheduler): entries, staging and the SCHEDULE Cut,
periods, fetch, issue, lateness, completion and release. -/
namespace Sys2Proof.Machine
open Reg

/-! ## Entries (Tables CSH-1 to CSH-4) -/

/-- Bits [lo + w − 1 : lo] of an entry. -/
def entryBits (e : BitVec 128) (lo w : Nat) : Nat := (e.extractLsb' lo w).toNat

def entType (e : BitVec 128) : Nat := entryBits e 0 2
def opEngine (e : BitVec 128) : Nat := entryBits e 2 6
def opProg (e : BitVec 128) : Nat := entryBits e 8 11
def opFlow (e : BitVec 128) : Nat := entryBits e 19 16
def opEarly (e : BitVec 128) : Nat := entryBits e 35 22
def opSlack (e : BitVec 128) : Nat := entryBits e 57 16
def opLate (e : BitVec 128) : Nat := entryBits e 73 2
def opIn (e : BitVec 128) : Nat := entryBits e 75 12
def opOut (e : BitVec 128) : Nat := entryBits e 87 12
def opNpred (e : BitVec 128) : Nat := entryBits e 99 3
def opWaitMv (e : BitVec 128) : Nat := entryBits e 102 5
def opSucc (e : BitVec 128) : Nat := entryBits e 107 18
def opSuccKind (e : BitVec 128) : Nat := entryBits e 125 2
def opEvt (e : BitVec 128) : Bool := entryBits e 127 1 == 1
def linkCount (e : BitVec 128) : Nat := entryBits e 2 3
def linkChain (e : BitVec 128) : Bool := entryBits e 5 1 == 1
def linkSlot (e : BitVec 128) (i : Nat) : Nat := entryBits e (8 + 18 * i) 18

/-- The slots a LINK uses, and those of them that name OPs. -/
def linkSlots (e : BitVec 128) : List Nat := (List.range (min 6 (linkCount e))).map (linkSlot e)
def linkOps (e : BitVec 128) : List Nat := if linkChain e then (linkSlots e).dropLast else linkSlots e
def linkNext (e : BitVec 128) : Option Nat := if linkChain e then (linkSlots e).getLast? else none

def bankSize : Nat := 262144

def Dev.entry (d : Dev) (bank i : Nat) : BitVec 128 := SMap.at 0 d.csh.entries (bank * bankSize + i)

/-- The three detail bytes that name an entry (R176). -/
def entDetail (bank i : Nat) : List Nat := [i, i / 256, i / 65536 % 4 + bank * 128]

/-- The bank's place in the store is refused to writes: it is STAGED or ACTIVE (R158). -/
def Dev.bankActive (d : Dev) (b : Nat) : Bool := d.rf CSH_STAT_STATE == 1 && d.rf CSH_STAT_ACTIVE == b
def Dev.bankStaged (d : Dev) (b : Nat) : Bool := match d.csh.staged with | some (x, _) => x == b | none => false
def Dev.bankFree (d : Dev) (b : Nat) : Bool := !d.bankActive b && !d.bankStaged b

def Dev.bankLen (d : Dev) (b : Nat) : Nat := d.rf (CSH_BANKb_LEN_LEN b)
def Dev.bankPer (d : Dev) (b : Nat) : Nat := d.rf (CSH_BANKb_PER_PER b)

/-- A word of an entry replaced. -/
def setEntryWord (e : BitVec 128) (k : Nat) (v : Word) : BitVec 128 :=
  (e &&& ~~~((0xFFFFFFFF : BitVec 128) <<< (32 * k))) ||| (v.setWidth 128 <<< (32 * k))

/-- A control-bus write of a word of the store (R158). -/
def Dev.entryWrite (d : Dev) (rq : Requester) (entry k : Nat) (v : Word) : Dev :=
  let b := entry / bankSize
  let i := entry % bankSize
  if d.bankFree b then
    { d with csh := { d.csh with entries := SMap.set 0 d.csh.entries entry (setEntryWord (d.entry b i) k v),
                                 poison := SMap.set false d.csh.poison entry false } }
  else (d.on CSH_STAT_REFUSED).err.log 0x06 0x09 .warn (entDetail b i ++ [rqCode rq, 0])

def execCallSheetEntryWrite (rq : Requester) (entry : BitVec 19) (word : Fin 4) (v : Word) (s : State) : Out :=
  s.busAct (fun d => d.window (0x04000000 + entry.toNat * 16 + word * 4) (fun d => d.entryWrite rq entry.toNat word v))

/-! ## Staging (R160, R161) -/

/-- The entries of a bank below its length that are not all zero, by index. -/
def Dev.bankEntries (d : Dev) (b : Nat) : List (Nat × BitVec 128) :=
  (d.csh.entries.filter (fun p => b * bankSize ≤ p.1 && p.1 < b * bankSize + d.bankLen b)).map
    (fun p => (p.1 - b * bankSize, p.2))

/-- The entries that an entry names: with each, whether it names it as a LINK. -/
def entryRefs (e : BitVec 128) : List (Nat × Bool) :=
  if entType e = 1 then
    if opSuccKind e = 1 then [(opSucc e, false)] else if opSuccKind e = 2 then [(opSucc e, true)] else []
  else if entType e = 2 then
    (linkOps e).map (fun t => (t, false)) ++ (match linkNext e with | some m => [(m, true)] | none => [])
  else []

/-- The references of a bank, those of a LINK that no OP reaches included. -/
def bankRefs (es : List (Nat × BitVec 128)) : List (Nat × Bool) := es.flatMap (fun p => entryRefs p.2)

/-- The LINKs that follow from an OP, from the LINK at `l` on: (OP, LINK). -/
def chainOwners (get : Nat → BitVec 128) (op : Nat) : Nat → Nat → List (Nat × Nat)
  | 0, _ => []
  | fuel + 1, l =>
    (op, l) :: (match (if entType (get l) = 2 then linkNext (get l) else none) with
      | some m => chainOwners get op fuel m
      | none => [])

/-- For each LINK of a bank, the OPs that refer to it, directly or through other LINKs. -/
def bankOwners (es : List (Nat × BitVec 128)) (get : Nat → BitVec 128) : List (Nat × Nat) :=
  es.flatMap (fun p =>
    if entType p.2 = 1 ∧ opSuccKind p.2 = 2 then chainOwners get p.1 (es.length + 1) (opSucc p.2) else [])

/-- The lowest REASON of Table CSH-5 that an entry meets; reason 8 aside. -/
def entryReason (get : Nat → BitVec 128) (refs : List (Nat × Bool)) (links : List (Nat × Nat)) (per len i : Nat) (e : BitVec 128) :
    Option Nat :=
  let t := entType e
  let kinds := fun (want : Nat) (l : List Nat) => l.any (fun j => entType (get j) != want)
  let conds : List (Nat × Bool) :=
    if t = 3 then [(1, true)]
    else if t = 1 then
      [ (1, opSuccKind e == 3),
        (3, decide (per ≤ opEarly e)),
        (4, opSuccKind e != 0 && (decide (opSucc e ≤ i) || decide (len ≤ opSucc e))),
        (5, opSuccKind e == 1 && kinds 1 [opSucc e] || opSuccKind e == 2 && kinds 2 [opSucc e]),
        (7, opNpred e != (refs.filter (fun r => r.1 == i && !r.2)).length) ]
    else if t = 2 then
      let owners := (links.filter (fun r => r.2 == i)).map (·.1)
      let first := owners.foldl (fun m o => match m with | none => some o | some x => some (min x o)) none
      let low := fun j => match first with | some o => decide (j ≤ o) | none => false
      let unused := (List.range 6).filter (fun k => linkCount e ≤ k)
      [ (2, entryBits e 6 2 != 0 || entryBits e 116 12 != 0 || unused.any (fun k => linkSlot e k != 0)),
        (4, (linkSlots e).any (fun j => low j || decide (len ≤ j))),
        (5, kinds 1 (linkOps e) || (match linkNext e with | some m => kinds 2 [m] | none => false)),
        (6, linkCount e == 0 || decide (6 < linkCount e) ||
          decide (1 < (refs.filter (fun r => r.1 == i && r.2)).length)) ]
    else []
  (conds.find? (fun c => c.2)).map (·.1)

/-- The first invalid entry of a bank, with its REASON; `ue`: an entry staging finds uncorrectable. -/
def Dev.bankInvalid (d : Dev) (b : Nat) (ue : Option Nat) : Option (Nat × Nat) :=
  let es := d.bankEntries b
  let get := d.entry b
  let refs := bankRefs es
  let links := bankOwners es get
  let bad := es.findSome? (fun p => (entryReason get refs links (d.bankPer b) (d.bankLen b) p.1 p.2).map (fun r => (p.1, r)))
  match ue, bad with
  | some u, some (i, r) => if u < i then some (u, 8) else some (i, r)
  | some u, none => if u < d.bankLen b then some (u, 8) else none
  | none, x => x

/-- Capture an entry in CSH_ERR, if it holds none. -/
def Dev.cshCapture (d : Dev) (b i reason : Nat) : Dev :=
  if d.bit CSH_ERR_VALID then d
  else (((d.wf CSH_ERR_INDEX i).wf CSH_ERR_BANK b).wf CSH_ERR_REASON reason).on CSH_ERR_VALID

/-- A SCHEDULE Cut ends without executing: its bank is FREE (R43, R161). -/
def Dev.cshCutEnded (d : Dev) : Dev := { d with csh := { d.csh with staged := none, checkAt := none } }

/-- The check of a request for a SCHEDULE Cut that comes before R42 (R161). -/
def Dev.scheduleBar (d : Dev) (b : Nat) : Option Nat :=
  if d.bankActive b || (d.liveKind kSCHEDULE).isSome || d.csh.loadHeld.contains b then some stACCESS
  else if bankSize < d.bankLen b then some stLENGTH
  else none

/-- Request a SCHEDULE Cut to bank `b` on tick `t` (R161): the slot taken, or the refusing status. -/
def Dev.armScheduleAt (d : Dev) (b t : Nat) : (Nat ⊕ Nat) × Dev :=
  match d.scheduleBar b with
  | some st => (.inr st, d.cutRefused kSCHEDULE b st)
  | none =>
    match d.requestCut kSCHEDULE b t with
    | (.inr st, d) => (.inr st, d)
    | (.inl i, d) => (.inl i, { d with csh := { d.csh with staged := some (b, i), checkAt := some d.slate } })

/-- ARM of CSH_CUT_CTL. -/
def Dev.armSchedule (d : Dev) : Dev :=
  match d.armScheduleAt (d.rf CSH_CUT_CTL_BANK) (d.rd64 CSH_CUT_TICK_LO CSH_CUT_TICK_HI) with
  | (.inr st, d) => d.wf CSH_CUT_CTL_STATUS st
  | (.inl i, d) => (d.wf CSH_CUT_CTL_SLOT i).wf CSH_CUT_CTL_STATUS stDONE

/-- Cancel the armed SCHEDULE Cut. -/
def Dev.cancelSchedule (d : Dev) : Dev :=
  match d.csh.staged with
  | some (_, i) => if d.cancellable i then (d.failCut i stABORT false).cshCutEnded else d
  | none => d

/-- A write of CSH_CUT_CTL. -/
def Dev.cshCutWrite (d : Dev) (v : Word) : Dev :=
  let d := d.plainWrite CSH_CUT_CTL v
  let d := if v.getLsbD 0 then d.armSchedule else d
  if v.getLsbD 1 then d.cancelSchedule else d

def execScheduleCutArm (_rq : Requester) (v : Word) (s : State) : Out :=
  s.timedWrite CSH_CUT_CTL (fun d => d.cshCutWrite (v ||| 1))

def execScheduleCutCancel (_rq : Requester) (v : Word) (s : State) : Out :=
  s.timedWrite CSH_CUT_CTL (fun d => d.cshCutWrite (v ||| 2))

/-- The end of the staging check: a valid bank after ⌈LEN ÷ 16⌉ ticks, an invalid one once its entry is read. -/
def execBankStagingCheckEnd (ue : Option (BitVec 18)) (s : State) : Out :=
  s.timed (fun d =>
    match d.csh.staged, d.csh.checkAt with
    | some (b, i), some t =>
      match d.bankInvalid b (ue.map BitVec.toNat) with
      | some (x, r) =>
        if t + x / 16 + 1 ≤ d.slate then
          let d := { d with csh := { d.csh with checkAt := none } }
          ((d.cshCapture b x r).on CSH_STAT_INVALID).log 0x06 0x07 .error (entDetail b x ++ [r, 0])
        else d
      | none =>
        if t + (d.bankLen b + 15) / 16 ≤ d.slate then
          ({ d with csh := { d.csh with checkAt := none } }).confirmCut i
        else d
    | _, _ => d)

/-! ## Ready lists -/

def Dev.readyList (d : Dev) (n : Nat) : List CshItem := SMap.at [] d.csh.lists n

/-- Engine `n`'s list becomes `l`; DEPTH and MAXDEPTH follow (Table CSH-9). -/
def Dev.setList (d : Dev) (n : Nat) (l : List CshItem) : Dev :=
  let d := { d with csh := { d.csh with lists := SMap.set [] d.csh.lists n l } }
  (d.wf (CSH_ENGn_STAT_DEPTH n) l.length).wf (CSH_ENGn_STAT_MAXDEPTH n) (max l.length (d.rf (CSH_ENGn_STAT_MAXDEPTH n)))

/-- Every list empty. -/
def Dev.emptyLists (d : Dev) : Dev :=
  let d := (d.csh.lists.map (·.1)).foldl (fun d n => d.setList n []) d
  { d with csh := { d.csh with rels := [], released := [], skipFlow := [], skipEng := [] } }

/-- Change every operation in service. -/
def mapOps (f : CshOp → CshOp) (m : SMap (Option CshOp)) : SMap (Option CshOp) := m.map (fun p => (p.1, p.2.map f))

/-- Operations in service release no successors any more (R162). -/
def Dev.oldOps (d : Dev) : Dev := { d with csh := { d.csh with ops := mapOps (fun o => { o with old := true }) d.csh.ops } }

def Dev.inService (d : Dev) : Bool := d.csh.ops.any (fun p => p.2.isSome)

/-- STOP, by a write or by a Cut to a bank whose period is zero (R162, R174). -/
def Dev.cshStop (d : Dev) (cause : Nat) : Dev :=
  let d := d.emptyLists.oldOps
  (d.wf CSH_STAT_STATE (if d.inService then 2 else 0)).log 0x06 0x0A .info [cause, 0, 0, 0, 0]

/-- A write of CSH_CTL. -/
def Dev.cshCtlWrite (d : Dev) (v : Word) : Dev :=
  let d := d.plainWrite CSH_CTL v
  if v.getLsbD 0 then d.cshStop 0 else d

def execSchedulerStop (_rq : Requester) (v : Word) (s : State) : Out :=
  s.busWrite CSH_CTL (fun d => d.cshCtlWrite (v ||| 1))

/-- The mover counts of the period restart (R163). -/
def Dev.mvRestart (d : Dev) : Dev :=
  (List.range 64).foldl (fun d n => d.off (CSH_ENGn_MVDONE_COUNT n)) d

/-- A period of the running bank begins at tick `t`. -/
def Dev.periodStart (d : Dev) (t : Nat) : Dev := (d.wr64 CSH_PSTART_LO CSH_PSTART_HI t).inc CSH_PCOUNT_COUNT

/-- A SCHEDULE Cut executes: the ready lists empty and the new bank runs (R162). -/
def Dev.cshSwitch (d : Dev) (b : Nat) : Dev :=
  let d := d.cshCutEnded
  if d.bankPer b = 0 then d.cshStop 1
  else
    let d := d.mvRestart
    let d := (d.emptyLists.oldOps.wf CSH_STAT_STATE 1).wf CSH_STAT_ACTIVE b
    let d := { d with csh := { d.csh with
      origin := d.slate, period := 0, fetchK := 0, fetchIdx := 0,
      fetchAt := d.slate + 2, stalled := false, busy := [],
      ops := mapOps (fun o => { o with since := d.slate }) d.csh.ops } }
    (d.off CSH_PCOUNT_COUNT).periodStart d.slate

/-! ## Periods (R163) -/

/-- The running bank, its period, and the start of a period. -/
def Dev.runBank (d : Dev) : Nat := d.rf CSH_STAT_ACTIVE
def Dev.runPer (d : Dev) : Nat := d.bankPer d.runBank
def Dev.periodTick (d : Dev) (k : Nat) : Nat := d.csh.origin + k * d.runPer

/-- The entries of the ending period that fetch has not reached. -/
def Dev.unfetched (d : Dev) (n : Nat) : Nat :=
  if d.csh.fetchK = d.csh.period then
    ((d.bankEntries d.runBank).filter (fun p => d.csh.fetchIdx ≤ p.1 && entType p.2 == 1 && opEngine p.2 == n)).length
  else 0

/-- Engine `n` at the boundary that ends period `k` on tick `t`: its entries expire, its busy ticks are taken. -/
def Dev.endPeriodEngine (d : Dev) (k t n : Nat) : Dev :=
  let l := d.readyList n
  let c := (l.filter (fun i => i.period ≤ k)).length + d.unfetched n
  let d := if l.any (fun i => i.period ≤ k) then d.setList n (l.filter (fun i => !(i.period ≤ k))) else d
  let run := match SMap.at none d.csh.ops n with | some o => t - o.since | none => 0
  let d := d.wf (CSH_ENGn_BUSY_BUSY n) (satU 22 (SMap.at 0 d.csh.busy n + run))
  if c = 0 then d
  else
    let d := ((d.incBy (CSH_ENGn_EXP_EXPIRED n) c).on CSH_STAT_EXPIRE).log 0x06 0x03 .warn [n, c, c / 256, 0, 0]
    if d.bit CSH_CTL_LATE_EVT then d.evPulse 13 else d

/-- A period boundary (R163). -/
def Dev.endPeriod (d : Dev) : Dev :=
  let k := d.csh.period
  let t := d.periodTick (k + 1)
  let d := (List.range 64).foldl (fun d n => d.endPeriodEngine k t n) d
  let c := d.csh
  let c := { c with
    period := k + 1, stalled := false, busy := [], released := [],
    rels := c.rels.filter (fun r => k < r.period),
    skipFlow := c.skipFlow.filter (fun r => k < r.1),
    skipEng := c.skipEng.filter (fun r => k < r.1),
    fetchK := max c.fetchK (k + 1), fetchIdx := if c.fetchK ≤ k then 0 else c.fetchIdx,
    fetchAt := if c.fetchK ≤ k ∨ c.fetchK = k + 2 then d.slate + 2 else c.fetchAt,
    ops := mapOps (fun o => { o with since := max o.since t }) c.ops }
  (({ d with csh := c }).mvRestart).periodStart t

/-- Is a SCHEDULE Cut to execute on this tick (step 1 of Table CSH-6)? -/
def Dev.switchDue (d : Dev) : Bool :=
  match d.csh.staged with
  | some (_, i) => (d.cut i).state == .prepared && (d.cut i).tick == d.slate
  | none => false

/-- Is a period boundary at this tick, or one that a Slate step has passed (step 2)? -/
def Dev.boundaryDue (d : Dev) : Bool := d.rf CSH_STAT_STATE == 1 && decide (d.periodTick (d.csh.period + 1) ≤ d.slate)

/-- The boundary, after a Cut of the same tick (Table CSH-10). -/
def execPeriodBoundary (s : State) : Out :=
  s.timed (fun d => if d.boundaryDue && !d.switchDue then d.endPeriod else d)

/-! ## Fetch (R164, R165, R173) -/

/-- A corrected entry. -/
def Dev.cshCe (d : Dev) (i : Nat) : Dev :=
  ((d.inc CSH_CNT_CE_COUNT).on CSH_STAT_CE).log 0x06 0x05 .info (entDetail d.runBank i ++ [0, 0])

/-- An uncorrectable entry, found by fetch (0) or by a successor read (1). -/
def Dev.cshUe (d : Dev) (i how : Nat) : Dev :=
  (((d.inc CSH_CNT_UE_COUNT).on CSH_STAT_UE).cshCapture d.runBank i 9).log 0x06 0x06 .error
    (entDetail d.runBank i ++ [how, 0])

/-- Fetch stops at entry `i` for engine `n`'s full list. -/
def Dev.fetchStall (d : Dev) (n i : Nat) : Dev :=
  if d.csh.stalled then d
  else (({ d with csh := { d.csh with stalled := true } }).on CSH_STAT_FSTALL).log 0x06 0x08 .note
    (n :: entDetail d.runBank i ++ [0])

/-- What the check of an entry comes to: one stored with its poison bit set is as one that cannot be corrected (log entry 174). -/
def Dev.entryEcc (d : Dev) (bank i : Nat) (ecc : Ecc) : Ecc :=
  if SMap.at false d.csh.poison (bank * bankSize + i) then .uncorrectable else ecc

/-- Is an entry of the store in the window that a preserving march run tests (R121)? Its bank of 65,536 entries is tested
in windows of 8. -/
def Dev.storeHeld (d : Dev) (i : Nat) : Bool :=
  match SMap.at none d.fab.march 2 with
  | some m => m.preserve && m.kinds.testBit 0 && i % 65536 / 8 == m.window
  | none => false

/-- Past the last entry fetch goes on at index 0 for the next period. -/
def Dev.fetchWrap (d : Dev) : Dev :=
  if d.bankLen d.runBank ≤ d.csh.fetchIdx then
    { d with csh := { d.csh with fetchK := d.csh.fetchK + 1, fetchIdx := 0 } }
  else d

/-- Fetch up to `fuel` entries; `ecc`: what the check bits of each say. It waits at an entry that a march run holds. -/
def Dev.fetchEntries (d : Dev) : Nat → List Ecc → Dev
  | 0, _ => d.fetchWrap
  | fuel + 1, ecc =>
    let k := d.csh.fetchK
    if d.csh.period + 1 < k then d
    else if d.bankLen d.runBank ≤ d.csh.fetchIdx then d.fetchWrap
    else if d.storeHeld d.csh.fetchIdx then d
    else
      let i := d.csh.fetchIdx
      let e := d.entry d.runBank i
      let n := opEngine e
      let c := d.entryEcc d.runBank i (ecc.headD .clean)
      let past := fun (d : Dev) => { d with csh := { d.csh with fetchIdx := i + 1 } }
      if c = .uncorrectable then ((past d).cshUe i 0).fetchEntries fuel ecc.tail
      else if entType e = 1 ∧ 256 ≤ (d.readyList n).length then
        (if c = .corrected then d.cshCe i else d).fetchStall n i
      else
        let d := if c = .corrected then d.cshCe i else d
        let d := past d
        let d := if entType e = 1 then
            d.setList n (d.readyList n ++
              [{ bank := d.runBank, index := i, period := k, early := d.periodTick k + opEarly e, entry := e }])
          else d
        d.fetchEntries fuel ecc.tail

def Dev.didAct (d : Dev) (n : Nat) : Dev := { d with csh := { d.csh with acted := n :: d.csh.acted } }

/-- One tick's fetch: four entries, which reach their lists two ticks after their fetch (R164). -/
def execEntryFetch (ecc : List Ecc) (s : State) : Out :=
  s.timed (fun d =>
    if d.rf CSH_STAT_STATE = 1 ∧ d.csh.fetchAt ≤ d.slate ∧ !d.csh.acted.contains 64 then (d.fetchEntries 4 ecc).didAct 64 else d)

/-! ## Issue, lateness, completion, release -/

/-- Is a flow in service on any engine? -/
def Dev.flowBusy (d : Dev) (f : Nat) : Bool :=
  d.csh.ops.any (fun p => match p.2 with | some o => opFlow o.item.entry == f | none => false)

/-- The first condition of R166 that holds a head, in the order of Table CSH-11; 0 when it may issue. -/
def Dev.waitCode (d : Dev) (n : Nat) (i : CshItem) : Nat :=
  let e := i.entry
  if d.slate < i.early then 1
  else if opNpred e ≠ 0 ∧ (i.period ≠ d.csh.period ∨ SMap.at 0 d.csh.released i.index < opNpred e) then 2
  else if opWaitMv e ≠ 0 ∧ (i.period ≠ d.csh.period ∨ d.rf (CSH_ENGn_MVDONE_COUNT n) < opWaitMv e) then 3
  else if (opIn e).testBit 11 && (d.engine n).inSyms.isEmpty then 4
  else if (opOut e).testBit 11 && d.rf (SE_STRM_OUT_WORDS n) != 0 then 5
  else if d.flowBusy (opFlow e) then 6
  else if (SMap.at none d.csh.ops n).isSome then 7
  else if d.seState n != seIDLE || d.bit (SE_CTL_HALT n) || !d.seUp n then 8
  else 0

/-- Is an entry late (R170)? -/
def CshItem.late (i : CshItem) (slate : Nat) : Bool := decide (i.early + opSlack i.entry < slate)

/-- The mode under which a head of engine `n`'s list is skipped at this tick, if it is: in its turn under an earlier
entry's SKIP_FLOW or SKIP_ENGINE, or late under its own mode (Table CSH-7). -/
def Dev.skipMode (d : Dev) (n : Nat) (i : CshItem) : Option Nat :=
  if d.csh.skipFlow.any (fun r => r.1 == i.period && r.2.1 == opFlow i.entry && r.2.2 < i.index) then some 2
  else if d.csh.skipEng.any (fun r => r.1 == i.period && r.2 == n) then some 3
  else if i.late d.slate && opLate i.entry != 0 then some (opLate i.entry) else none

/-- SKIP_FLOW and SKIP_ENGINE abandon what follows. -/
def Dev.markSkips (d : Dev) (n mode : Nat) (i : CshItem) : Dev :=
  if mode = 2 then { d with csh := { d.csh with skipFlow := (i.period, opFlow i.entry, i.index) :: d.csh.skipFlow } }
  else if mode = 3 then { d with csh := { d.csh with skipEng := (i.period, n) :: d.csh.skipEng } }
  else d

/-- The releases of an entry that completes or is skipped on this tick are due on the next (R168, R170). -/
def Dev.releaseSucc (d : Dev) (i : CshItem) : Dev :=
  let k := opSuccKind i.entry
  if i.period = d.csh.period ∧ (k = 1 ∨ k = 2) then
    { d with csh := { d.csh with rels := d.csh.rels ++
      [{ due := d.slate + 1, period := i.period, link := k == 2, index := opSucc i.entry }] } }
  else d

/-- The scheduler event of a late issue, skip, expiry or abort. -/
def Dev.lateEvt (d : Dev) : Dev := if d.bit CSH_CTL_LATE_EVT then d.evPulse 13 else d

/-- The bin of the waiting-time histogram (Table CSH-9). -/
def histBin (w : Nat) : Nat := if w = 0 then 0 else if 16384 ≤ w then 15 else Nat.log2 w + 1

/-- The head of engine `n`'s list issues (R166, R167). -/
def Dev.issueOp (d : Dev) (n : Nat) (i : CshItem) (rest : List CshItem) : Dev :=
  let d := (d.setList n rest).didAct n
  let op : CshOp := { item := i, issue := d.slate, since := d.slate, rep := none, old := false }
  let d := { d with csh := { d.csh with ops := SMap.set none d.csh.ops n (some op) } }
  let d := (d.inc (CSH_ENGn_ISSUE_COUNT n)).inc (CSH_ENGn_HISTk_COUNT n (histBin (d.slate - i.early)))
  let d := if i.late d.slate then
      let by_ := d.slate - (i.early + opSlack i.entry)
      ((d.inc (CSH_ENGn_LATE_LATE n)).on CSH_STAT_LATE).lateEvt.log 0x06 0x01 .warn
        (n :: entDetail i.bank i.index ++ [min 255 by_])
    else d
  d.seIssue n (opProg i.entry) (opFlow i.entry) i.early (opIn i.entry) (opOut i.entry)

/-- The head of engine `n`'s list is skipped (R170). -/
def Dev.skipOp (d : Dev) (n mode : Nat) (i : CshItem) (rest : List CshItem) : Dev :=
  let d := (((d.setList n rest).didAct n).markSkips n mode i).releaseSucc i
  ((d.inc (CSH_ENGn_LATE_SKIP n)).on CSH_STAT_SKIP).lateEvt.log 0x06 0x02 .warn (n :: entDetail i.bank i.index ++ [mode])

/-- The engine's operation is over: the engine and the flow are free, and its busy ticks are counted (R168, R172). -/
def Dev.freeOp (d : Dev) (n : Nat) (o : CshOp) : Dev :=
  let d := { d with csh := { d.csh with
    ops := SMap.set none d.csh.ops n none,
    busy := SMap.set 0 d.csh.busy n (SMap.at 0 d.csh.busy n + (d.slate - o.since)) } }
  if d.rf CSH_STAT_STATE = 2 ∧ !d.inService then d.wf CSH_STAT_STATE 0 else d

/-- An operation that ends with ABORT: a skip under its own mode, RUN acting as SKIP (R171). -/
def Dev.abortOp (d : Dev) (n : Nat) (o : CshOp) : Dev :=
  let mode := max 1 (opLate o.item.entry)
  let d := if o.old then d else (d.markSkips n mode o.item).releaseSucc o.item
  (d.inc (CSH_ENGn_EXP_ABORTED n)).lateEvt.log 0x06 0x04 .error (n :: entDetail o.item.bank o.item.index ++ [mode])

/-- An operation's completion is taken (R167, R168): `st` is its status. -/
def Dev.completeOp (d : Dev) (n : Nat) (o : CshOp) (st : Nat) : Dev :=
  let d := d.freeOp n o
  if st = stDONE then
    let d := if opEvt o.item.entry && d.bit CSH_CTL_EVT_EN then d.evPulse 13 else d
    if o.old then d else d.releaseSucc o.item
  else d.abortOp n o

/-- The report that the hub takes of engine `n`'s operation at this tick: its status. -/
def Dev.reportDue (d : Dev) (n : Nat) : Option (CshOp × Nat) :=
  match SMap.at none d.csh.ops n with
  | some o => match o.rep with
    | some (due, st) => if due ≤ d.slate then some (o, st) else none
    | none => none
  | none => none

/-- Is a completion to be taken at this tick (step 3)? -/
def Dev.completionDue (d : Dev) : Bool := d.csh.ops.any (fun p => (d.reportDue p.1).isSome)

/-- Is a release due at this tick (step 4)? -/
def Dev.releaseDue (d : Dev) : Bool := d.csh.rels.any (fun r => decide (r.due ≤ d.slate))

/-- The steps of Table CSH-6 before the skips and issues are over. -/
def Dev.listsReady (d : Dev) : Bool := !d.switchDue && !d.boundaryDue && !d.completionDue && !d.releaseDue

/-- An operation's completion is taken at its tick, after a Cut or a boundary of the tick (Table CSH-6). -/
def execOperationCompletion (n : Fin 64) (s : State) : Out :=
  s.timed (fun d =>
    if d.switchDue || d.boundaryDue then d
    else match d.reportDue n with
      | some (o, st) => d.completeOp n o st
      | none => d)

/-- Step 6: the head of a list issues, once the steps before are over. -/
def execOperationIssue (n : Fin 64) (s : State) : Out :=
  s.timed (fun d =>
    match d.readyList n with
    | [] => d
    | i :: rest =>
      if !d.listsReady || d.csh.acted.contains n.val || (d.skipMode n i).isSome || d.waitCode n i != 0 then d else d.issueOp n i rest)

/-- Step 5: a head is skipped. -/
def execEntrySkip (n : Fin 64) (s : State) : Out :=
  s.timed (fun d =>
    match d.readyList n with
    | [] => d
    | i :: rest =>
      if !d.listsReady || d.csh.acted.contains n.val then d
      else match d.skipMode n i with
        | some mode => d.skipOp n mode i rest
        | none => d)

/-- A release of one entry of the current period. -/
def Dev.release1 (d : Dev) (i : Nat) : Dev :=
  { d with csh := { d.csh with released := SMap.set 0 d.csh.released i (SMap.at 0 d.csh.released i + 1) } }

/-- The slots of a LINK are released, and a further LINK of the chain one tick later (R168). -/
def Dev.releaseLink (d : Dev) (r : CshRelease) (ecc : Ecc) : Dev :=
  if ecc = .uncorrectable then d.cshUe r.index 1
  else
    let d := if ecc = .corrected then d.cshCe r.index else d
    let e := d.entry d.runBank r.index
    if entType e ≠ 2 then d
    else
      let d := (linkOps e).foldl Dev.release1 d
      match linkNext e with
      | some m => { d with csh := { d.csh with rels := d.csh.rels ++ [{ r with due := r.due + 1, index := m }] } }
      | none => d

/-- Take the releases of a list; each LINK read takes the next check result. A LINK that a march run holds is read once
its window is restored. -/
def Dev.takeReleases (d : Dev) : List CshRelease → List Ecc → Dev
  | [], _ => d
  | r :: rs, ecc =>
    if r.period ≠ d.csh.period then d.takeReleases rs ecc
    else if r.link && d.storeHeld r.index then
      { d with csh := { d.csh with rels := d.csh.rels ++ [r] } }.takeReleases rs ecc
    else if r.link then (d.releaseLink r (d.entryEcc d.runBank r.index (ecc.headD .clean))).takeReleases rs ecc.tail
    else (d.release1 r.index).takeReleases rs ecc

/-- The releases due at this tick decrement their successors' counts (R168). -/
def Dev.releasesTaken (d : Dev) (ecc : List Ecc) : Dev :=
  let due := d.csh.rels.filter (fun r => r.due ≤ d.slate)
  let later := d.csh.rels.filter (fun r => !(r.due ≤ d.slate))
  ({ d with csh := { d.csh with rels := later } }).takeReleases due ecc

def execSuccessorRelease (ecc : List Ecc) (s : State) : Out :=
  s.timed (fun d => if d.switchDue || d.boundaryDue || d.completionDue then d else d.releasesTaken ecc)

/-- Steps 2 to 4 of Table CSH-6, as far as no command of the tick has taken them: they fall at their tick exactly (R163, R167,
R168). -/
def Dev.cshSettle (d : Dev) : Dev :=
  let d := if d.boundaryDue then d.endPeriod else d
  let d := (d.csh.ops.map (·.1)).foldl (fun d n =>
    match d.reportDue n with
    | some (o, st) => d.completeOp n o st
    | none => d) d
  if d.releaseDue then d.releasesTaken [] else d

/-- The end of a tick: what was due in it has been taken, and the waiting condition of every engine shows (Tables CSH-9 and
CSH-11). -/
def Dev.cshTickEnd (d : Dev) : Dev :=
  let d := if d.slate = slateMax then d else d.cshSettle
  let d := (List.range 64).foldl (fun d n =>
    let w := if d.csh.acted.contains n then 9
      else match d.readyList n with
        | [] => 0
        | i :: _ => let c := d.waitCode n i; if c = 0 then d.rf (CSH_ENGn_STAT_WAIT n) else c
    if d.rf (CSH_ENGn_STAT_WAIT n) = w then d else d.wf (CSH_ENGn_STAT_WAIT n) w) d
  { d with csh := { d.csh with acted := [] } }

end Sys2Proof.Machine
end

