-- ==== Sys2Proof/Machine/FabMem.lean ====
section
/-! DEFINITION. The fabric memories, the arithmetic slices and the march test engines
(05_fabric_memory_and_arithmetic). -/
namespace Sys2Proof.Machine
open Reg

/-! ## Sites (R102, R416) -/

/-- Host tile of tile RAM `i` (R416). -/
def tileHost (i : Nat) : Nat × Nat :=
  let r := i / 320
  let j := i % 320
  (15 * r + 3 + 8 * (j / 160), 10 + j % 160 / 4)

/-- Host tile of deep RAM `i` (R416). -/
def deepHost (i : Nat) : Nat × Nat := (15 * (i / 16) + 7, 10 + 2 * (i % 16))

def memCode : MemKind → Nat
  | .tile => 0 | .deep => 1 | .scratchpad => 2 | .callSheet => 3

/-- Host tile of a RAM. -/
def ramHost (k : MemKind) (i : Nat) : Nat × Nat := match k with | .deep => deepHost i | _ => tileHost i

/-- Is the RAM's site powered and out of isolation? -/
def Dev.ramLive (d : Dev) (k : MemKind) (die i : Nat) : Bool :=
  (d.tileDead die (ramHost k i).1 (ramHost k i).2).isNone

/-- Words and width of a shape (Table MEM-2). -/
def shapeWords : RamShape → Nat
  | .w40 | .e32 => 1024 | .w20 => 2048 | .w10 => 4096
def shapeWidth : RamShape → Nat
  | .w40 => 40 | .w20 => 20 | .w10 => 10 | .e32 => 32

/-- Cycles from the launching register to the output register of a tile RAM read (Table MEM-1). -/
def tileCycles (shape : RamShape) (oreg : Bool) : Nat := 2 + (if shape = .e32 then 1 else 0) + oreg.toNat

/-- Words of a shape in one 40-bit word of the array. -/
def shapeParts (shape : RamShape) : Nat := shapeWords shape / 1024

/-- The 40-bit test word that holds word `a` of a shape. -/
def testWord (shape : RamShape) (a : Nat) : Nat := a % shapeWords shape / shapeParts shape

def lowN (w : Nat) (x : BitVec 40) : BitVec 40 := x &&& BitVec.ofNat 40 (2 ^ w - 1)

def tileKey (die ram w : Nat) : Nat := (die * 2560 + ram) * 1024 + w
def deepKey (die ram a : Nat) : Nat := (die * 128 + ram) * 65536 + a

/-- A 40-bit word of the array, as W40 numbers them. -/
def Dev.tileWord (d : Dev) (die ram w : Nat) : BitVec 40 := SMap.at 0 d.fab.tile (tileKey die ram w)
def Dev.tilePsn (d : Dev) (die ram w : Nat) : Bool := SMap.at false d.fab.tilePsn (tileKey die ram w)
def Dev.setTile (d : Dev) (die ram w : Nat) (x : BitVec 40) (psn : Bool) : Dev :=
  { d with fab := { d.fab with tile := SMap.set 0 d.fab.tile (tileKey die ram w) x,
                               tilePsn := SMap.set false d.fab.tilePsn (tileKey die ram w) psn } }

/-- Word `a` of a shape: the words of W20 and W10 that share a 40-bit word stand in it from its low bits up (log entry 170). -/
def Dev.tileGet (d : Dev) (die ram : Nat) (shape : RamShape) (a : Nat) : BitVec 40 :=
  lowN (shapeWidth shape)
    (d.tileWord die ram (testWord shape a) >>> (shapeWidth shape * (a % shapeParts shape)))

def Dev.tilePut (d : Dev) (die ram : Nat) (shape : RamShape) (a : Nat) (x : BitVec 40) (psn : Bool) : Dev :=
  let sh := shapeWidth shape * (a % shapeParts shape)
  let w := testWord shape a
  let keep := d.tileWord die ram w &&& ~~~(BitVec.ofNat 40 (2 ^ shapeWidth shape - 1) <<< sh)
  d.setTile die ram w (keep ||| (lowN (shapeWidth shape) x <<< sh)) psn

def Dev.deepWord (d : Dev) (die ram a : Nat) : Word := SMap.at 0 d.fab.deep (deepKey die ram a)
def Dev.setDeep (d : Dev) (die ram a : Nat) (x : Word) (psn : Bool) : Dev :=
  { d with fab := { d.fab with deep := SMap.set 0 d.fab.deep (deepKey die ram a) x,
                               deepPsn := SMap.set false d.fab.deepPsn (deepKey die ram a) psn } }

/-! ## Errors (R110) -/

/-- A corrected word: CE_COUNT, CE and FAB 0x0A. -/
def Dev.memCe (d : Dev) (die kind i : Nat) : Dev :=
  ((d.inc (FAB_MEM_CNT_CE_COUNT die)).on (FAB_MEM_STAT_CE die)).log 0x1A 0x0A .info [die, kind, i, i / 256, 0]

/-- An uncorrectable word: UE, FAB_MEM_ERRLOC if it holds no error, and FAB 0x0B. -/
def Dev.memUe (d : Dev) (die kind i a : Nat) : Dev :=
  let d := d.on (FAB_MEM_STAT_UE die)
  let d := if d.bit (FAB_MEM_ERRLOC_VALID die) then d
    else (((d.wf (FAB_MEM_ERRLOC_KIND die) kind).wf (FAB_MEM_ERRLOC_INDEX die) i).wf (FAB_MEM_ERRLOC_ADDR die) a).on
      (FAB_MEM_ERRLOC_VALID die)
  d.log 0x1A 0x0B .error [die, kind, i, i / 256, 0]

/-- What a protected read delivers: word, PSN, and the device after its error records. -/
def Dev.eccRead (d : Dev) (die kind i a : Nat) (x : BitVec 40) (psn : Bool) (acc : PortAccess) : BitVec 40 × Bool × Dev :=
  match acc.ecc with
  | .clean => (x, psn, d)
  | .corrected => (x, psn, d.memCe die kind i)
  | .uncorrectable => (x ^^^ acc.flip, true, d.memUe die kind i a)

/-! ## Preserving runs hold accesses (R121) -/

def Dev.marchOf (d : Dev) (e : Nat) : Option March := SMap.at none d.fab.march e
def Dev.setMarch (d : Dev) (e : Nat) (m : Option March) : Dev :=
  { d with fab := { d.fab with march := SMap.set none d.fab.march e m } }

def Dev.pulse (d : Dev) (die : Nat) (k : MemKind) (ram : Nat) (p : RamPulse) : Dev := d.out (.pulse die k ram p)

/-- Does the run test the RAM? -/
def March.tests (m : March) (k : MemKind) (i : Nat) : Bool :=
  match k with
  | .tile => m.kinds.testBit 0 && m.regions.testBit (i / 320)
  | .deep => m.kinds.testBit 1 && m.regions.testBit (i / 16)
  | .scratchpad => m.kinds.testBit 2 && m.engines.testBit i
  | .callSheet => m.kinds.testBit 0

/-- Is the test word of a RAM in the window under test of a preserving run on the die? -/
def Dev.underTest (d : Dev) (die : Nat) (k : MemKind) (i w : Nat) : Bool :=
  match d.marchOf die with
  | some m => m.preserve && m.tests k i && w / 8 == m.window
  | none => false

/-- The ports that a held access keeps HOLD high on: a queue pushes on port A and pops on port B. -/
def HeldOp.onPort (o : HeldOp) (port : Nat) : Bool :=
  match o with
  | .ports a b => if port = 0 then a.isSome else b.isSome
  | .push _ => port == 0
  | .pop _ => port == 1

/-- Does the port hold an access already? -/
def Dev.portHolds (d : Dev) (die : Nat) (k : MemKind) (i port : Nat) : Bool :=
  match d.marchOf die with
  | some m => m.held.any (fun h => h.kind == k && h.index == i && h.op.onPort port)
  | none => false

/-- An access presented while HOLD is high (R121): a read, or a pop, returns zero with DV low; a write is discarded. -/
def Dev.refuseAccess (d : Dev) (die : Nat) (k : MemKind) (i port : Nat) (read : Bool) : Dev :=
  let d := if read then d.out (.ramRead die k i port 0 false false 0) else d
  ((d.pulse die k i .refused).on (FAB_MEM_STAT_REFUSED die)).log 0x1A 0x10 .warn [die, memCode k, i, i / 256, port]

/-- HOLD of the ports of an access. -/
def Dev.holdOut (d : Dev) (die : Nat) (h : HeldAccess) (high : Bool) : Dev :=
  [0, 1].foldl (fun d port => if h.op.onPort port then d.out (.ramHold die h.kind h.index port high) else d) d

/-- Hold an access until its window is restored. -/
def Dev.holdAccess (d : Dev) (die : Nat) (h : HeldAccess) : Dev :=
  match d.marchOf die with
  | some m => (d.setMarch die (some { m with held := m.held ++ [h] })).holdOut die h true
  | none => d

/-- An access that its port refuses is none. -/
def Dev.portGate (d : Dev) (die : Nat) (k : MemKind) (i port : Nat) (acc : Option PortAccess) : Dev × Option PortAccess :=
  match acc with
  | some a => if d.portHolds die k i port then (d.refuseAccess die k i port a.write.isNone, none) else (d, some a)
  | none => (d, none)

/-- The accesses of one edge before the array: those refused are gone, those in the window under test are held together, and the
others go on. -/
def Dev.edgeGate (d : Dev) (die : Nat) (k : MemKind) (i : Nat) (shape : RamShape) (a b : Option PortAccess) :
    Dev × Option PortAccess × Option PortAccess :=
  let (d, a) := d.portGate die k i 0 a
  let (d, b) := d.portGate die k i 1 b
  let held := fun (x : Option PortAccess) =>
    x.filter (fun x => d.underTest die k i (if k = .deep then x.addr.toNat else testWord shape x.addr.toNat))
  let go := fun (x : Option PortAccess) => if (held x).isSome then none else x
  let d := if (held a).isSome || (held b).isSome then
    d.holdAccess die { kind := k, index := i, shape := shape, op := .ports (held a) (held b) } else d
  (d, go a, go b)

/-! ## Tile RAMs (R105, R106, R110) -/

/-- One port's read of the array: the old word at the edge. -/
def Dev.tileRead (d : Dev) (die ram port : Nat) (shape : RamShape) (acc : PortAccess) : Dev :=
  let a := acc.addr.toNat % shapeWords shape
  let x := d.tileGet die ram shape a
  let cyc := tileCycles shape acc.oreg
  if shape = .e32 then
    let (x, p, d) := d.eccRead die 0 ram a x (d.tilePsn die ram a) acc
    d.out (.ramRead die .tile ram port (lowN 32 x) true p cyc)
  else d.out (.ramRead die .tile ram port x true false cyc)

def Dev.tileWrite (d : Dev) (die ram : Nat) (shape : RamShape) (acc : PortAccess) : Dev :=
  match acc.write with
  | some v => d.tilePut die ram shape (acc.addr.toNat % shapeWords shape) v (shape == .e32 && acc.psn)
  | none => d

/-- A two-write collision (R106). -/
def Dev.collision (d : Dev) (die ram : Nat) : Dev :=
  let d := ((d.pulse die .tile ram .coll).on (FAB_MEM_STAT_COLL die)).inc (FAB_MEM_CNT_COLL_COUNT die)
  if SMap.at false d.fab.collSeen (die * 2560 + ram) then d
  else
    ({ d with fab := { d.fab with collSeen := SMap.set false d.fab.collSeen (die * 2560 + ram) true } }).log 0x1A 0x0C
      .note [die, ram, ram / 256, 0, 0]

/-- The accesses both ports capture at one edge (Table MEM-3): reads take the old word, port A's write wins. -/
def Dev.tileEdge (d : Dev) (die ram : Nat) (shape : RamShape) (a b : Option PortAccess) : Dev :=
  let rd := fun (p : Nat) (x : Option PortAccess) (d : Dev) =>
    match x with | some c => if c.write.isNone then d.tileRead die ram p shape c else d | none => d
  let wr := fun (x : Option PortAccess) (d : Dev) => match x with | some c => d.tileWrite die ram shape c | none => d
  let d := rd 1 b (rd 0 a d)
  let clash := match a, b with
    | some x, some y => x.write.isSome && y.write.isSome &&
        x.addr.toNat % shapeWords shape == y.addr.toNat % shapeWords shape
    | _, _ => false
  let d := wr a (wr b d)
  if clash then d.collision die ram else d

/-- A tile RAM's ports capture an access each at one edge. -/
def execTileRamAccess (die : Fin 2) (ram : Fin 2560) (shape : RamShape) (portA portB : Option PortAccess) (s : State) : Out :=
  s.act (fun d =>
    if !d.ramLive .tile die ram then d else
    let (d, a, b) := d.edgeGate die .tile ram shape portA portB
    d.tileEdge die ram shape a b)

/-! ### QUEUE shape (R107) -/

def Dev.queueOf (d : Dev) (die ram : Nat) : List (BitVec 40) := SMap.at [] d.fab.queue (die * 2560 + ram)
def Dev.queueAt (d : Dev) (die ram : Nat) : Nat := SMap.at 0 d.fab.queueAt (die * 2560 + ram)
def Dev.setQueue (d : Dev) (die ram : Nat) (q : List (BitVec 40)) (at_ : Nat) : Dev :=
  { d with fab := { d.fab with queue := SMap.set [] d.fab.queue (die * 2560 + ram) q,
                               queueAt := SMap.set 0 d.fab.queueAt (die * 2560 + ram) at_ } }

/-- A queue overflow (0) or underflow (1). -/
def Dev.queueErr (d : Dev) (die ram which : Nat) : Dev :=
  ((d.pulse die .tile ram (if which = 0 then .ovf else .unf)).on (FAB_MEM_STAT_QERR die)).log 0x1A 0x0D .warn
    [die, ram, ram / 256, which, 0]

/-- The operations of the other side that this side does not see yet, of those captured `ages` of its cycles ago: a flag falls
three or four cycles after the edge that captured the operation, and which of the two is free. -/
def Dev.unseen (d : Dev) (ages : List Nat) : Nat × Dev :=
  ages.foldl (fun p a =>
    if a < 3 then (p.1 + 1, p.2)
    else if a = 3 then let (w, d) := p.2.draw; (p.1 + (w.getLsbD 0).toNat, d)
    else p) (0, d)

/-- A push captured with FULL low stores its word. -/
def Dev.queueStore (d : Dev) (die ram : Nat) (shape : RamShape) (data : BitVec 40) : Dev :=
  d.setQueue die ram (d.queueOf die ram ++ [lowN (shapeWidth shape) data]) (d.queueAt die ram)

/-- A pop captured with EMPTY low delivers the oldest word, on the schedule of a tile RAM read. -/
def Dev.queueTake (d : Dev) (die ram : Nat) (shape : RamShape) (oreg : Bool) : Dev :=
  let q := d.queueOf die ram
  (d.out (.ramRead die .tile ram 1 (q.headD 0) true false (tileCycles shape oreg))).setQueue die ram q.tail
    ((d.queueAt die ram + 1) % shapeWords shape)

/-- A push. `pops`: how many write-clock cycles ago each of the last pops was captured. -/
def execQueuePush (die : Fin 2) (ram : Fin 2560) (shape : RamShape) (data : BitVec 40) (pops : List Nat) (s : State) : Out :=
  s.act (fun d =>
    if !d.ramLive .tile die ram || shape == .e32 then d
    else if d.portHolds die .tile ram 0 then d.refuseAccess die .tile ram 0 false
    else
      let (lag, d) := d.unseen pops
      let n := (d.queueOf die ram).length
      if shapeWords shape ≤ n + lag then d.queueErr die ram 0
      else if d.underTest die .tile ram (testWord shape (d.queueAt die ram + n)) then
        d.holdAccess die { kind := .tile, index := ram, shape := shape, op := .push data }
      else d.queueStore die ram shape data)

/-- A pop. `pushes`: how many read-clock cycles ago each of the last pushes was captured. -/
def execQueuePop (die : Fin 2) (ram : Fin 2560) (shape : RamShape) (oreg : Bool) (pushes : List Nat) (s : State) : Out :=
  s.act (fun d =>
    if !d.ramLive .tile die ram || shape == .e32 then d
    else if d.portHolds die .tile ram 1 then d.refuseAccess die .tile ram 1 true
    else
      let (lag, d) := d.unseen pushes
      if (d.queueOf die ram).length ≤ lag then
        (d.out (.ramRead die .tile ram 1 0 false false (tileCycles shape oreg))).queueErr die ram 1
      else if d.underTest die .tile ram (testWord shape (d.queueAt die ram)) then
        d.holdAccess die { kind := .tile, index := ram, shape := shape, op := .pop oreg }
      else d.queueTake die ram shape oreg)

/-! ## Deep RAMs (R109, R110) -/

def Dev.deepEdge (d : Dev) (die ram : Nat) (acc : PortAccess) : Dev :=
  let a := acc.addr.toNat
  match acc.write with
  | some v => d.setDeep die ram a (v.setWidth 32) acc.psn
  | none =>
    let (x, p, d) := d.eccRead die 1 ram a ((d.deepWord die ram a).setWidth 40) (SMap.at false d.fab.deepPsn (deepKey die ram a)) acc
    d.out (.ramRead die .deep ram 0 (lowN 32 x) true p 5)

/-- A deep RAM's port captures an access. -/
def execDeepRamAccess (die : Fin 2) (ram : Fin 128) (port : PortAccess) (s : State) : Out :=
  s.act (fun d =>
    if !d.ramLive .deep die ram then d else
    let (d, a, _) := d.edgeGate die .deep ram .e32 (some port) none
    match a with
    | some acc => d.deepEdge die ram acc
    | none => d)

/-! ## Arithmetic slices (R111 to R117) -/

/-- Low `w` bits of a value, signed. -/
def sgn {n : Nat} (w : Nat) (x : BitVec n) : Int := signedOf w x.toNat

/-- The multiplicand (R112). -/
def preAdder (cfg : SliceConfig) (i : SliceInput) : Int :=
  if cfg.preAdd ∧ cfg.mode = .single then
    satTo 27 (if i.preSub then i.d.toInt - i.a.toInt else i.d.toInt + i.a.toInt)
  else i.a.toInt

/-- The product, and in dual 8-bit mode the second one (R111, R114, R115). In complex mode the slice of even number forms
ac − bd of x = a + jb on the even slice and y = c + jd on the odd one, the odd slice ad + bc, each with d negated when its CONJ
is high. `odd`: the slice's number is odd; `other`: what the other slice of the pair holds in the same register. -/
def sliceProducts (cfg : SliceConfig) (odd : Bool) (i other : SliceInput) (pre : Int) : Int × Int :=
  let x := if odd then other else i
  let y := if odd then i else other
  let a := sgn 18 x.a
  let b := sgn 18 x.b
  let c := sgn 18 y.a
  let e := sgn 18 y.b
  match cfg.mode with
  | .single => (pre * i.b.toInt, 0)
  | .complex =>
    if odd then (if i.conj then b * c - a * e else a * e + b * c, 0)
    else (if i.conj then a * c + b * e else a * c - b * e, 0)
  | .dual8 => (sgn 8 i.a * sgn 8 i.b, sgn 8 (i.a.extractLsb' 8 8) * sgn 8 (i.b.extractLsb' 8 8))

/-- The sum of stage 4 (R111). -/
def sliceSum (load sub : Bool) (acc p c casc : Int) : Int := (if load then 0 else acc) + (if sub then -p else p) + c + casc

/-- A narrowed output (R116): the W-bit result of the stage-4 sum and whether it was clamped. -/
def sliceNarrow (cfg : SliceConfig) (w : Nat) (s : Int) : Nat × Bool :=
  let x := narrow cfg.shift s
  (lowBits w (clip w cfg.outSat x), cfg.outSat && outside w x)

/-- The inputs of a slice to which nothing has been launched. -/
def SliceInput.zero : SliceInput :=
  { a := 0, d := 0, b := 0, c := 0, load := false, sub := false, preSub := false, conj := false, psn := false }

/-- One edge of a slice: the operands in the product register enter the accumulator, the others move on (R111). The accumulator
takes the sum wrapped or saturated (R113), and OUT, SAT and PSN come from the sum itself. `other`: what the other slice of its
pair holds in its pre-adder register. -/
def Slice.edge (x : Slice) (c : SliceCycle) (odd : Bool) (other : SliceInput) : Slice :=
  let cfg := c.cfg
  let s3 := x.s2.map (fun q =>
    let (p, pHi) := sliceProducts cfg odd q.1 other q.2
    ({ p := p, pHi := pHi, c := q.1.c, load := q.1.load, sub := q.1.sub, psn := q.1.psn } : SliceProduct))
  let s2 := x.s1.map (fun i => (i, preAdder cfg i))
  let y := { x with host := cfg.host.val, s1 := some c.inp, s2 := s2, s3 := s3 }
  match x.s3 with
  | none => y
  | some q =>
    let cIn : BitVec 58 := if cfg.cEn then q.c else 0
    let kIn : BitVec 58 := if cfg.casc then c.pcin else 0
    let psn := (x.psn && !q.load) || q.psn || (cfg.casc && c.pcinPsn)
    if cfg.mode = .dual8 then
      let lo := sliceSum q.load q.sub (sgn 29 x.acc) q.p (sgn 29 cIn) (sgn 29 kIn)
      let hi := sliceSum q.load q.sub (sgn 29 (x.acc.extractLsb' 29 29)) q.pHi (sgn 29 (cIn.extractLsb' 29 29))
        (sgn 29 (kIn.extractLsb' 29 29))
      let w := min 24 (cfg.width + 1)
      let (n1, t1) := sliceNarrow cfg w lo
      let (n2, t2) := sliceNarrow cfg w hi
      { y with
        acc := BitVec.ofNat 58 (lowBits 29 (clip 29 cfg.accSat lo) + lowBits 29 (clip 29 cfg.accSat hi) * 2 ^ 29),
        out := BitVec.ofNat 48 (n1 + n2 * 2 ^ 24),
        ovf := outside 29 lo || outside 29 hi || (x.ovf && !q.load), sat := t1 || t2, psn := psn }
    else
      let s := sliceSum q.load q.sub x.acc.toInt q.p cIn.toInt kIn.toInt
      let (n, t) := sliceNarrow cfg (cfg.width + 1) s
      { y with
        acc := BitVec.ofInt 58 (clip 58 cfg.accSat s), out := BitVec.ofNat 48 n, ovf := outside 58 s || (x.ovf && !q.load),
        sat := t, psn := psn }

def Dev.slice (d : Dev) (die n : Nat) : Slice := SMap.at Slice.idle d.fab.slices (die * 6144 + n)

/-- What a slice holds in its pre-adder register. -/
def Slice.stage2 (x : Slice) : SliceInput := match x.s2 with | some q => q.1 | none => SliceInput.zero

/-- A slice after an edge, and its outputs: zero from a tile that is isolated or off, whose slices take nothing in (R17, R102). -/
def Dev.sliceStep (d : Dev) (die n : Nat) (x : Slice) (c : SliceCycle) (other : SliceInput) : Dev :=
  let t := c.cfg.host.val
  if (d.tileDead die (t % 120) (t / 120)).isSome then d.out (.sliceOut die n 0 false false false)
  else
    let y := x.edge c (n % 2 == 1) other
    ({ d with fab := { d.fab with slices := SMap.set Slice.idle d.fab.slices (die * 6144 + n) y } }).out
      (.sliceOut die n y.out y.ovf y.sat y.psn)

/-- The other slice of a slice's complex pair (R114). -/
def mateOf (n : Nat) : Nat := if n % 2 = 0 then n + 1 else n - 1

/-- One cycle of a slice; of both slices of a complex pair, `mate` being the other's cycle. -/
def execSliceOperation (die : Fin 2) (n : Fin 6144) (c mate : SliceCycle) (s : State) : Out :=
  s.act (fun d =>
    let x := d.slice die n
    if c.cfg.mode ≠ .complex then d.sliceStep die n x c SliceInput.zero
    else
      let y := d.slice die (mateOf n)
      (d.sliceStep die n x c y.stage2).sliceStep die (mateOf n) y mate x.stage2)

/-! ## March test engines (R118 to R123) -/

/-- The RAMs of the selected kinds and regions of a die. -/
def selectedRams (kinds regions : Nat) : List (MemKind × Nat) :=
  (List.range 8).flatMap (fun r =>
    if regions.testBit r then
      (if kinds.testBit 0 then (List.range 320).map (fun j => (MemKind.tile, r * 320 + j)) else []) ++
      (if kinds.testBit 1 then (List.range 16).map (fun j => (MemKind.deep, r * 16 + j)) else [])
    else [])

def selectedEngines (kinds engines : Nat) : List Nat :=
  if kinds.testBit 2 then (List.range 32).filter (fun k => engines.testBit k) else []

/-- Is a RAM held for a destructive run: its region, of power or of Splice, isolated or unloaded (R120)? -/
def Dev.ramHeld (d : Dev) (die : Nat) (m : MemKind × Nat) : Bool :=
  let h := ramHost m.1 m.2
  (d.tileDead die h.1 h.2).isSome ||
  match d.regionOf die h.1 h.2 with
  | some r => d.rf (SPL_REGr_STAT_STATE r) != 2
  | none => true

/-- Is a RAM's region in a Splice? -/
def Dev.ramStaging (d : Dev) (die : Nat) (m : MemKind × Nat) : Bool :=
  let h := ramHost m.1 m.2
  match d.regionOf die h.1 h.2 with
  | some r => d.bit (SPL_REGr_STAT_STAGING r)
  | none => false

/-- The selection of a march engine: kinds, regions, engines. The hub engine selects the Call Sheet store. -/
def Dev.marchSel (d : Dev) (e : Nat) : Nat × Nat × Nat :=
  if e = 2 then (d.rf (FAB_MT_CTL_KINDS 2), 0, 0)
  else (d.rf (FAB_MT_CTL_KINDS e), d.rf (FAB_MT_SEL_REGIONS e), d.rf (FAB_MT_ENG_ENGINES e))

/-- What refuses a run with ACCESS (R120). -/
def Dev.marchBarred (d : Dev) (e : Nat) (preserve : Bool) : Bool :=
  let (kinds, regions, engines) := d.marchSel e
  if e = 2 then !preserve && d.rf CSH_STAT_STATE != 0
  else
    let rams := selectedRams kinds regions
    rams.any (d.ramStaging e) ||
      (!preserve && (rams.any (fun m => !d.ramHeld e m) ||
        (selectedEngines kinds engines).any (fun k => d.seState (e * 32 + k) != seHALTED)))

/-- A run ends: STATE, STATUS, DONE and FAB 0x0E (R122). -/
def Dev.marchEnd (d : Dev) (e status : Nat) (preserve : Bool) : Dev :=
  let d := ((d.wf (FAB_MT_STAT_STATE e) (if status = stDONE then 2 else 3)).wf (FAB_MT_STAT_STATUS e) status).on
    (FAB_MT_STAT_DONE e)
  let f := d.rf (FAB_MT_STAT_FAILS e)
  (d.setMarch e none).log 0x1A 0x0E .info [e, status, f, f / 256, preserve.toNat]

/-- Every memory a destructive run selected holds zero (R120). -/
def Dev.marchZero (d : Dev) (e : Nat) (m : March) : Dev :=
  if e = 2 then (if m.kinds.testBit 0 then { d with csh := { d.csh with entries := [], poison := [] } } else d)
  else
    let tile := fun (k : Nat) => m.tests .tile (k / 1024 % 2560) && k / 1024 / 2560 == e
    let deep := fun (k : Nat) => m.tests .deep (k / 65536 % 128) && k / 65536 / 128 == e
    let q := fun (k : Nat) => m.tests .tile (k % 2560) && k / 2560 == e
    let sp := fun (k : Nat) => k / 65536 / 32 == e && m.tests .scratchpad (k / 65536 % 32)
    { d with
      fab := { d.fab with tile := SMap.clear tile d.fab.tile, tilePsn := SMap.clear tile d.fab.tilePsn,
                          queue := SMap.clear q d.fab.queue, queueAt := SMap.clear q d.fab.queueAt,
                          deep := SMap.clear deep d.fab.deep, deepPsn := SMap.clear deep d.fab.deepPsn },
      se := { d.se with spad := SMap.clear sp d.se.spad } }

/-! ### The March C− sequence (R118) -/

/-- An element: its order, and the pattern it reads and the one it writes, the background (false) or its complement (true). -/
structure MarchElement where
  down  : Bool
  read  : Option Bool
  write : Option Bool
  deriving DecidableEq, Repr

def marchElements : List MarchElement :=
  [{ down := false, read := none, write := some false }, { down := false, read := some false, write := some true },
   { down := false, read := some true, write := some false }, { down := true, read := some false, write := some true },
   { down := true, read := some true, write := some false }, { down := false, read := some false, write := none }]

/-- Bits of a test word, and test words tested in sequence (Table MEM-6). -/
def testWidth : MemKind → Nat
  | .tile | .deep => 40 | .scratchpad => 1024 | .callSheet => 128
def testWords : MemKind → Nat
  | .tile => 1024 | .deep | .callSheet => 65536 | .scratchpad => 2048

/-- A background, or its complement, in a word of `w` bits: all zeros, or 0b0101…0101. -/
def marchPattern (w : Nat) (alt comp : Bool) : Nat :=
  let b := if alt then (4 ^ (w / 2) - 1) / 3 else 0
  if comp then 2 ^ w - 1 - b else b

/-- Has a read returned other bits than the element expects? -/
def marchBad (x : MarchRead) : Bool :=
  match (marchElements[x.elem.val]?).bind (·.read) with
  | some comp => x.got.toNat % 2 ^ testWidth x.kind != marchPattern (testWidth x.kind) x.bg comp
  | none => false

/-- D5 cycles, of 1 ns, of one word's 20 operations, and of a window of 8 words saved, tested and restored. -/
def marchNs (preserve : Bool) (k : MemKind) : Nat := if preserve then testWords k / 8 * 1280 else testWords k * 20

/-- The kinds a run tests, on engine `e`. -/
def March.kindList (m : March) (e : Nat) : List MemKind :=
  if e = 2 then (if m.kinds.testBit 0 then [.callSheet] else [])
  else (if m.kinds.testBit 0 then [.tile] else []) ++ (if m.kinds.testBit 1 then [.deep] else []) ++
    (if m.kinds.testBit 2 then [.scratchpad] else [])

/-- A run lasts as long as its longest kind (R119), and so do its windows. -/
def March.lasts (m : March) (e : Nat) : Nat := (m.kindList e).foldl (fun n k => max n (marchNs m.preserve k)) 0
def March.windows (m : March) (e : Nat) : Nat := (m.kindList e).foldl (fun n k => max n (testWords k / 8)) 0

/-- A memory whose read has failed (R122): once in a run it is counted and logged, and the first is captured. -/
def Dev.marchFailed (d : Dev) (e : Nat) (x : MarchRead) : Dev :=
  let i := x.index.toNat
  let d := (d.inc (FAB_MT_STAT_FAILS e)).on (FAB_MT_STAT_FAIL e)
  let d := if d.bit (FAB_MT_FAIL_VALID e) then d
    else (((d.wf (FAB_MT_FAIL_KIND e) (memCode x.kind)).wf (FAB_MT_FAIL_INDEX e) i).wf (FAB_MT_FAIL_ADDR e) x.addr.toNat).on
      (FAB_MT_FAIL_VALID e)
  d.log 0x1A 0x0F .error [e, memCode x.kind, i, i / 256, x.bg.toNat]

/-- What the reads of a run have found: `m` is the run, with the memories that have failed. -/
def Dev.marchReads (d : Dev) (e : Nat) (reads : List MarchRead) : Dev :=
  reads.foldl (fun d x =>
    match d.marchOf e with
    | some m =>
      let k := (memCode x.kind, x.index.toNat)
      if !marchBad x || !(m.kindList e).contains x.kind || !(x.kind == .callSheet || m.tests x.kind x.index.toNat) || m.failed.contains k then d
      else (d.setMarch e (some { m with failed := k :: m.failed })).marchFailed e x
    | none => d) d

/-- A START (R120, R122): ignored while RUNNING. -/
def Dev.marchStart (d : Dev) (e : Nat) : Dev :=
  if d.rf (FAB_MT_STAT_STATE e) = 1 then d else
  let d := (d.wr (FAB_MT_FAIL e) 0).off (FAB_MT_STAT_FAILS e)
  let preserve := d.bit (FAB_MT_CTL_PRESERVE e)
  let (kinds, regions, engines) := d.marchSel e
  if kinds = 0 then d.marchEnd e stDONE preserve
  else if d.marchBarred e preserve then d.marchEnd e stACCESS preserve
  else
    ((d.wf (FAB_MT_STAT_STATE e) 1).wf (FAB_MT_STAT_STATUS e) stDONE).setMarch e
      (some { preserve := preserve, kinds := kinds, regions := regions, engines := engines, since := d.slate, window := 0,
              abort := false, failed := [], held := [] })

/-- A held access completes once its window is restored (R121): HOLD falls, and the accesses of one edge act together. -/
def Dev.completeHeld (d : Dev) (die : Nat) (h : HeldAccess) : Dev :=
  let d := d.holdOut die h false
  match h.op with
  | .ports a b =>
    if h.kind = .deep then (match a with | some x => d.deepEdge die h.index x | none => d)
    else d.tileEdge die h.index h.shape a b
  | .push v => d.queueStore die h.index h.shape v
  | .pop o => d.queueTake die h.index h.shape o

/-- An error found in a word that the run saves and restores (Table MEM-7). -/
def Dev.savedError (d : Dev) (e : Nat) (x : SavedError) : Dev :=
  let i := x.index.toNat
  let a := x.addr.toNat
  match x.ecc with
  | .clean => d
  | .corrected =>
    if e = 2 then ((d.inc CSH_CNT_CE_COUNT).on CSH_STAT_CE).log 0x1A 0x0A .info [2, memCode x.kind, i, i / 256, 0]
    else d.memCe e (memCode x.kind) i
  | .uncorrectable =>
    let d := match x.kind with
      | .tile => d.setTile e i a (d.tileWord e i a) true
      | .deep => d.setDeep e i a (d.deepWord e i a) true
      | .scratchpad => d.setSpad (e * 32 + i) a { d.spadElem (e * 32 + i) a with p := true }
      | .callSheet => { d with csh := { d.csh with poison := SMap.set false d.csh.poison (i * 65536 + a) true } }
    if e = 2 then d.log 0x1A 0x0B .error [2, memCode x.kind, i, i / 256, 0] else d.memUe e (memCode x.kind) i a

/-- The accesses that a run holds complete. -/
def Dev.marchLetGo (d : Dev) (e : Nat) (m : March) : Dev := m.held.foldl (fun d h => d.completeHeld e h) d

/-- The window in progress is restored: its errors are recorded and its held accesses complete. -/
def Dev.marchRestore (d : Dev) (e : Nat) (errs : List SavedError) : Dev :=
  let d := errs.foldl (fun d x => d.savedError e x) d
  match d.marchOf e with
  | some m => (d.setMarch e (some { m with window := m.window + 1, held := [] })).marchLetGo e m
  | none => d

/-- An ABORT (R122): a destructive run ends, a preserving one ends once its window is restored. `reads`: what the run has found. -/
def Dev.marchAbort (d : Dev) (e : Nat) (reads : List MarchRead) : Dev :=
  match (d.marchReads e reads).marchOf e with
  | none => d
  | some m =>
    let d := d.marchReads e reads
    if m.preserve then d.setMarch e (some { m with abort := true }) else (d.marchZero e m).marchEnd e stABORT false

/-- A write of FAB_MT_CTL: PRESERVE and KINDS are ignored while RUNNING; then START, then ABORT. The hub engine has
KINDS bit 4 only. -/
def Dev.marchCtlWrite (d : Dev) (e : Nat) (v : Word) (reads : List MarchRead) : Dev :=
  let w := if e = 2 then v &&& ~~~(0x60 : Word) else v
  let d := if d.rf (FAB_MT_STAT_STATE e) = 1 then d else d.plainWrite (FAB_MT_CTL e) w
  let d := if v.getLsbD 0 then d.marchStart e else d
  if v.getLsbD 1 then d.marchAbort e reads else d

/-- A write of FAB_MT_CTL with START. -/
def execMarchStart (_rq : Requester) (eng : Fin 3) (v : Word) (s : State) : Out :=
  s.busWrite (FAB_MT_CTL eng) (fun d => d.marchCtlWrite eng (v ||| 1) [])

/-- A write of FAB_MT_CTL with ABORT. -/
def execMarchAbort (_rq : Requester) (eng : Fin 3) (v : Word) (reads : List MarchRead) (s : State) : Out :=
  s.busWrite (FAB_MT_CTL eng) (fun d => d.marchCtlWrite eng (v ||| 2) reads)

/-- The window under test of a preserving run is restored; an aborted run ends then. -/
def execMarchWindowEnd (eng : Fin 3) (errs : List SavedError) (reads : List MarchRead) (s : State) : Out :=
  s.act (fun d =>
    match d.marchOf eng with
    | some m =>
      if m.preserve then
        let d := (d.marchReads eng reads).marchRestore eng errs
        if m.abort then d.marchEnd eng stABORT true else d
      else d
    | none => d)

/-- Has the run had the time it lasts (R119), and a preserving one come to its last window without an ABORT? -/
def Dev.marchOver (d : Dev) (e : Nat) (m : March) : Bool :=
  !m.abort && elapsed (d.slate - m.since) (m.lasts e) && (!m.preserve || decide (m.windows e ≤ m.window + 1))

/-- Every selected word has been tested (R122): the last window of a preserving run is restored, and after a destructive run every
memory holds zero. -/
def execMarchDone (eng : Fin 3) (errs : List SavedError) (reads : List MarchRead) (s : State) : Out :=
  s.act (fun d =>
    match d.marchOf eng with
    | some m =>
      if !d.marchOver eng m then d
      else
        let d := d.marchReads eng reads
        let d := if m.preserve then d.marchRestore eng errs else d.marchZero eng m
        d.marchEnd eng stDONE m.preserve
    | none => d)

/-- A POWER_OFF of a domain under test aborts its die's run (Table MEM-7): the other memories of a destructive run hold zero, and
what a preserving run holds completes. -/
def Dev.marchPowerOff (d : Dev) (p : Nat) : Dev :=
  [0, 1].foldl (fun d e =>
    match d.marchOf e with
    | some m =>
      let fab := (List.range 8).any (fun r => m.regions.testBit r && (m.kinds.testBit 0 || m.kinds.testBit 1) &&
        (if e = 0 then 3 else 11) + r == p)
      let se := (List.range 32).any (fun k => m.tests .scratchpad k && 19 + (e * 32 + k) / 16 == p)
      if fab || se then
        (if m.preserve then (d.setMarch e none).marchLetGo e m else d.marchZero e m).marchEnd e stABORT m.preserve
      else d
    | none => d) d

/-- The fabric memories of a power region come up holding zero, and its slices empty (R102). -/
def Dev.regionRamsZero (d : Dev) (die r : Nat) : Dev :=
  let tile := fun (k : Nat) => k / 1024 / 320 == die * 8 + r
  let deep := fun (k : Nat) => k / 65536 / 16 == die * 8 + r
  let q := fun (k : Nat) => k / 320 == die * 8 + r
  let own := d.fab.slices.filter (fun e => e.1 / 6144 == die && e.2.host % 120 / 15 == r)
  { d with fab := { d.fab with tile := SMap.clear tile d.fab.tile, tilePsn := SMap.clear tile d.fab.tilePsn,
                               queue := SMap.clear q d.fab.queue, queueAt := SMap.clear q d.fab.queueAt,
                               collSeen := SMap.clear q d.fab.collSeen,
                               slices := SMap.clear (fun k => own.any (fun e => e.1 == k)) d.fab.slices,
                               deep := SMap.clear deep d.fab.deep, deepPsn := SMap.clear deep d.fab.deepPsn } }

end Sys2Proof.Machine
end

