-- ==== Sys2Proof/Machine/Nvs.lean ====
section
/-! DEFINITION. The Reel store (13_configuration_store_and_loading): pages and their code, the read window, program,
clear and boot record operations with their pulses, suspension, brown-out, and the header scan. -/
namespace Sys2Proof.Machine
open Reg

/-- Store states and statuses (NVS_STAT, Table NVS-3). -/
def nIDLE : Nat := 0
def nRUNNING : Nat := 1
def nSUSPENDING : Nat := 2
def nSUSPENDED : Nat := 3
def stNOTCLEAN : Nat := 8
def stINTERRUPTED : Nat := 9
def stREADONLY : Nat := 0xA
def stBROWNOUT : Nat := 0xB

def Dev.nstate (d : Dev) : Nat := d.rf NVS_STAT_STATE

def Dev.nvsLog (d : Dev) (code : Nat) (sev : Sev) (det : List Nat) : Dev := d.log 0x04 code sev det

def Dev.setNvs (d : Dev) (x : Nvs) : Dev := { d with nvs := x }
def Dev.setOp (d : Dev) (o : Option StoreOp) : Dev := d.setNvs { d.nvs with op := o }

/-! ## Layout (R283) -/

def pageSize : Nat := 2048
def blockSize : Nat := 0x40000
def sysBase : Nat := 0x30000000
def sysEnd : Nat := 0x300017FF

/-- The bank of a store offset; 24 stands for the system area. -/
def storeBank (ofs : Nat) : Nat := if ofs < sysBase then ofs / 0x2000000 else 24

/-- The pages of the system rows: calibration, boot record A and B. -/
def rowPage (r : Nat) : Nat := sysBase / pageSize + r

def Dev.page (d : Dev) (p : Nat) : StorePage := SMap.at StorePage.blank d.nvs.pages p
def Dev.setPage (d : Dev) (p : Nat) (x : StorePage) : Dev :=
  d.setNvs { d.nvs with pages := SMap.set StorePage.blank d.nvs.pages p x }

/-- Is the block interrupted: its first word CLEARING and its second not CLEAN (R288)? -/
def Dev.interrupted (d : Dev) (b : Nat) : Bool :=
  let h := SMap.at factoryHead d.nvs.heads b
  h.1 == 0xC1EA71A6 && h.2 != 0x0C1EA200

/-- Every interrupted block, lowest first. -/
def Dev.interruptedBlocks (d : Dev) : List Nat := (d.nvs.heads.map (·.1)).filter (fun b => d.interrupted b)

/-- NVS_INTR follows the block headers. -/
def Dev.intrCount (d : Dev) : Dev :=
  let l := d.interruptedBlocks
  ((d.wf NVS_INTR_COUNT (satU 12 l.length)).wf NVS_INTR_FIRST (l.headD 0)).wb NVS_INTR_VALID (!l.isEmpty)

/-- The bytes a page reads as: zero while its commit marker is clear (R285); the calibration row is the factory's. -/
def Dev.pageData (d : Dev) (p : Nat) : BitVec 16384 :=
  if p = rowPage 0 then Config.calibrationRow else if (d.page p).commit then (d.page p).data else 0

/-- `n` bytes at offset `o` of a page. -/
def pageBytes (x : BitVec 16384) (o n : Nat) : List Byte := (List.range n).map (fun i => (x >>> (8 * (o + i))).setWidth 8)

/-- `n` bytes of the store as they are held. -/
def Dev.storeBytes (d : Dev) (ofs n : Nat) : List Byte :=
  if n = 0 then [] else
  (List.range ((ofs + n - 1) / pageSize + 1 - ofs / pageSize)).flatMap (fun k =>
    let p := ofs / pageSize + k
    let lo := if k = 0 then ofs % pageSize else 0
    let hi := if p = (ofs + n - 1) / pageSize then (ofs + n - 1) % pageSize + 1 else pageSize
    pageBytes (d.pageData p) lo (hi - lo))

/-! ## Reading (R285, R286) -/

def pageDetail (p : Nat) : List Nat := [p, p / 2 ^ 8, p / 2 ^ 16 % 8]

/-- WEAR_THR as it acts. -/
def Dev.wearThr (d : Dev) : Nat := max 1 (d.rf NVS_CFG_WEAR_THR)

/-- A page read that corrected `c` bits. -/
def Dev.pageCorrected (d : Dev) (p c : Nat) : Dev :=
  let d := (d.inc NVS_CNT_CE_COUNT).on NVS_STAT_CE
  let d := if (match d.nvs.lastCe with | some t => decide (d.slate < t + ticksPerSec) | none => false) then d
    else (d.setNvs { d.nvs with lastCe := some d.slate }).nvsLog 0x04 .info (pageDetail p ++ [c])
  if d.wearThr ≤ c then
    let d := (d.inc NVS_CNT_WEAR_COUNT).on NVS_STAT_WEAR
    if d.nvs.worn.contains p then d
    else (d.setNvs { d.nvs with worn := p :: d.nvs.worn }).nvsLog 0x05 .warn (pageDetail p ++ [c, (d.page p).t])
  else d

/-- A page read that could not correct. -/
def Dev.pageLost (d : Dev) (p : Nat) : Dev :=
  let d := d.on NVS_STAT_UE
  let d := if d.bit NVS_ERR_VALID then d else (d.wf NVS_ERR_PAGE p).on NVS_ERR_VALID
  d.nvsLog 0x06 .error (pageDetail p ++ [(d.page p).t])

/-- Decode a page that is read: whether it reads, and the device after its records. A page without its commit marker
is not decoded; the calibration row is the factory's and always has one. -/
def Dev.pageDecode (d : Dev) (p : Nat) (b : Bch) : Bool × Dev :=
  if !(d.page p).commit && p != rowPage 0 then (true, d) else
  match b with
  | .clean => (true, d)
  | .corrected c => (true, if c = 0 then d else d.pageCorrected p c.toNat)
  | .uncorrectable => (false, d.pageLost p)

/-- Read the pages of a range for a load, a Splice or a repair: the status that ends it, if a block is interrupted
(ACCESS) or a page is uncorrectable (POISON), page by page (R303). -/
def Dev.pagesRead (d : Dev) (ofs n : Nat) (errs : List PageErr) : Option Nat × Dev :=
  if n = 0 then (none, d) else
  (List.range ((ofs + n - 1) / pageSize + 1 - ofs / pageSize)).foldl (fun (acc : Option Nat × Dev) k =>
    let p := ofs / pageSize + k
    match acc with
    | (some st, d) => (some st, d)
    | (none, d) =>
      if decide (p < sysBase / pageSize) && d.interrupted (p / 128) then (some stACCESS, d)
      else match errs.find? (fun e => e.page.toNat == p) with
        | some e => let (ok, d) := d.pageDecode p e.bch; (if ok then none else some stPOISON, d)
        | none => (none, d)) (none, d)

/-- Is the bank busy: an operation of it that is not suspended (R284, R287)? -/
def Dev.bankBusy (d : Dev) (b : Nat) : Bool :=
  (d.nstate == nRUNNING || d.nstate == nSUSPENDING) && d.rf NVS_STAT_BANK == b

/-- A read through the window (R284). -/
def Dev.nvsWindow (d : Dev) (w : Nat) (b : Bch) : Dev :=
  let ofs := d.rf NVS_WIN_BASE * 0x8000 + w
  let bank := storeBank ofs
  if sysEnd < ofs || w % 4 != 0 then d.err
  else if d.bankBusy bank then ((d.on NVS_STAT_BUSY_READ).nvsLog 0x03 .error [bank, w, w / 256, 0, 0]).err
  else
    let (ok, d) := d.pageDecode (ofs / pageSize) b
    if ok then { d with resp := .data (BitVec.ofNat 32 (leNat (d.storeBytes ofs 4))) } else d.err

/-- The window of the store at NVS base + 0x8000, which is no register: the bars of its block, then `f`. -/
def Dev.nvsAccess (d : Dev) (f : Dev → Dev) : Dev :=
  match d.barred NVS_CFG with
  | some d' => d'
  | none => f d.ok

/-- A read of the window, or an instruction fetch from it, which only the supervisor makes. -/
def execNvsWindowRead (rq : Requester) (w : BitVec 15) (fetch : Bool) (bch : Bch) (s : State) : Out :=
  s.busAct (fun d => d.nvsAccess (fun d => if fetch && rq != .supervisor then d.err else d.nvsWindow w.toNat bch))

/-! ## Starting an operation (R287, R288, R292) -/

/-- The bytes of `n` pages of supervisor SRAM from address `a` on. -/
def Dev.sramPages (d : Dev) (a n : Nat) : List (BitVec 16384) :=
  (List.range n).map (fun k =>
    BitVec.ofNat 16384 ((List.range 512).foldr
      (fun i x => x * 2 ^ 32 + (SMap.at 0 d.sup.sram ((a - 0x100000) / 4 + 512 * k + i)).toNat) 0))

/-- An operation refused: STATUS, REFUSED and NVS 0x02; BANK stays that of an operation under way. -/
def Dev.nvsRefuse (d : Dev) (op st bank : Nat) : Dev :=
  let d := (d.wf NVS_STAT_STATUS st).on NVS_STAT_REFUSED
  let d := if d.nstate = nIDLE then d.wf NVS_STAT_BANK bank else d
  d.nvsLog 0x02 .warn [op, st, bank, 0, 0]

/-- An operation on the system area (R291). -/
def Dev.nvsReadOnly (d : Dev) (op ofs : Nat) : Dev :=
  let d := (((d.wf NVS_STAT_STATUS stREADONLY).on NVS_STAT_REFUSED).on NVS_STAT_RO_WRITE).wf NVS_STAT_BANK 24
  d.nvsLog 0x09 .warn [op, (ofs - sysBase) / 0x800, 0, 0, 0]

/-- The valid boot record rows, by their pages: their words SEQ and CUR with PREV (R292). -/
def Dev.bootRow (d : Dev) (r : Nat) : Option (Nat × Nat) :=
  let p := d.page (rowPage r)
  let b := pageBytes p.data 0 16
  if p.commit && leNat (b.drop 12) == (crc32c (b.take 12)).toNat then some (leNat (b.take 4), leNat ((b.drop 4).take 4)) else none

/-- The boot record: its row, SEQ and second word. -/
def Dev.bootRecord (d : Dev) : Option (Nat × Nat × Nat) :=
  match d.bootRow 1, d.bootRow 2 with
  | some a, some b => if a.1 < b.1 then some (2, b.1, b.2) else some (1, a.1, a.2)
  | some a, none => some (1, a.1, a.2)
  | none, some b => some (2, b.1, b.2)
  | none, none => none

/-- NVS_BOOT_STAT shows the boot record. -/
def Dev.bootShow (d : Dev) : Dev :=
  match d.bootRecord with
  | some (_, seq, w) =>
    (((d.wf NVS_BOOT_STAT_CUR w).wf NVS_BOOT_STAT_PREV (w / 4)).on NVS_BOOT_STAT_VALID).wf NVS_BOOT_STAT_SEQ seq
  | none => d.wr NVS_BOOT_STAT 0

/-- The page a boot record operation writes, and where (R292). -/
def Dev.bootPage (d : Dev) : Nat × BitVec 16384 :=
  let (row, seq) := match d.bootRecord with
    | some (r, q, _) => (3 - r, (q + 1) % 2 ^ 32)
    | none => (1, 1)
  let w := leBytes 4 seq ++ leBytes 4 (d.rf NVS_BOOT_CUR + 4 * d.rf NVS_BOOT_PREV) ++ leBytes 4 0
  (rowPage row, BitVec.ofNat 16384 (leNat (w ++ leBytes 4 (crc32c w).toNat)))

/-- An accepted operation. -/
def Dev.nvsBegin (d : Dev) (bank : Nat) (o : StoreOp) : Dev :=
  ((d.wf NVS_STAT_STATE nRUNNING).wf NVS_STAT_BANK bank).setOp (some o)

/-- GO (Table NVS-2, in order). -/
def Dev.nvsGo (d : Dev) : Dev :=
  let op := if d.rf NVS_CMD_OP = 3 then 0 else d.rf NVS_CMD_OP
  let count := d.rf NVS_CMD_COUNT
  let ofs := d.rf NVS_ADDR_OFFSET
  let src := d.rf NVS_SRC_ADDR
  let bank := if op = 2 then 24 else storeBank ofs
  let new : StoreOp := { op := op, count := count, page := ofs / pageSize, data := [], pulses := 0, since := d.slate,
                         ran := 0, swSusp := false, holds := [], brown := false }
  if d.nstate ≠ nIDLE then d.nvsRefuse op stFULL bank
  else if op = 2 then
    let (p, x) := d.bootPage
    d.nvsBegin 24 { new with count := 1, page := p, data := [x] }
  else if op = 0 ∧ count = 0 then
    (((d.wf NVS_STAT_STATUS stDONE).wf NVS_STAT_BANK bank).on NVS_STAT_DONE).nvsLog 0x01 .info [op, count, bank, 0, 0]
  else if op = 0 ∧ 64 < count then d.nvsRefuse op stLENGTH bank
  else if sysBase ≤ ofs ∧ ofs ≤ sysEnd then d.nvsReadOnly op ofs
  else if sysEnd < ofs then d.nvsRefuse op stACCESS bank
  else if op = 1 then
    if ofs % blockSize ≠ 0 then d.nvsRefuse op stACCESS bank else d.nvsBegin bank new
  else if ofs % pageSize ≠ 0 ∨ blockSize < ofs % blockSize + count * pageSize ∨ src % 4 ≠ 0 ∨ src < 0x100000
      ∨ 0x180000 < src + count * pageSize then d.nvsRefuse op stACCESS bank
  else if d.interrupted (ofs / blockSize) then d.nvsRefuse op stINTERRUPTED bank
  else if (List.range count).any (fun k => (d.page (ofs / pageSize + k)).commit || (d.page (ofs / pageSize + k)).torn) then
    d.nvsRefuse op stNOTCLEAN bank
  else d.nvsBegin bank { new with data := d.sramPages src count }

/-! ## Suspension (R289, R303) -/

/-- SUSPEND: RUNNING becomes SUSPENDING; while a load, a Splice or a repair holds the operation it is recorded. -/
def Dev.nvsSuspend (d : Dev) : Dev :=
  match d.nvs.op with
  | none => d
  | some o =>
    if !o.holds.isEmpty then d.setOp (some { o with swSusp := true })
    else if d.nstate = nRUNNING then (d.wf NVS_STAT_STATE nSUSPENDING).setOp (some { o with swSusp := true })
    else d

/-- The operation runs on from its next pulse. -/
def Dev.nvsContinue (d : Dev) (o : StoreOp) : Dev :=
  (d.wf NVS_STAT_STATE nRUNNING).setOp (some { o with swSusp := false, since := d.slate, ran := 0 })

/-- RESUME. -/
def Dev.nvsResume (d : Dev) : Dev :=
  match d.nvs.op with
  | none => d
  | some o =>
    if !o.holds.isEmpty then d.setOp (some { o with swSusp := false })
    else if d.nstate = nSUSPENDED then d.nvsContinue o
    else d

/-- A load (0), a Splice (1) or a repair (2) that meets the busy bank asks for the operation's suspension. -/
def Dev.nvsHold (d : Dev) (who : Nat) : Dev :=
  match d.nvs.op with
  | none => d
  | some o =>
    let d := d.setOp (some { o with holds := if o.holds.contains who then o.holds else o.holds ++ [who] })
    if d.nstate = nRUNNING then d.wf NVS_STAT_STATE nSUSPENDING else d

/-- The hold ends: the operation runs on, unless software wants it suspended. -/
def Dev.nvsUnhold (d : Dev) (who : Nat) : Dev :=
  match d.nvs.op with
  | none => d
  | some o =>
    if !o.holds.contains who then d else
    let o := { o with holds := o.holds.filter (· != who) }
    if o.holds.isEmpty && !o.swSusp then
      if d.nstate = nSUSPENDED then d.nvsContinue o else (d.wf NVS_STAT_STATE nRUNNING).setOp (some o)
    else d.setOp (some o)

/-- Does a range of the store lie in a busy bank? -/
def Dev.rangeBusy (d : Dev) (ofs n : Nat) : Bool :=
  n != 0 && ((List.range 25).any (fun b => d.bankBusy b && decide (storeBank ofs ≤ b) && decide (b ≤ storeBank (ofs + n - 1))))

/-! ## NVS_CMD -/

def Dev.nvsCmdWrite (d : Dev) (v : Word) : Dev :=
  let d := d.plainWrite NVS_CMD v
  let d := if v.getLsbD 0 then d.nvsGo else d
  let d := if v.getLsbD 1 then d.nvsSuspend else d
  if v.getLsbD 2 then d.nvsResume else d

/-- A write of NVS_CMD with GO and OP 0. -/
def execNvsProgram (_rq : Requester) (v : Word) (s : State) : Out :=
  s.busWrite NVS_CMD (fun d => d.nvsCmdWrite (fieldSet 4 2 0 v ||| 1))

/-- A write of NVS_CMD with GO and OP 1. -/
def execNvsClear (_rq : Requester) (v : Word) (s : State) : Out :=
  s.busWrite NVS_CMD (fun d => d.nvsCmdWrite (fieldSet 4 2 1 v ||| 1))

/-- A write of NVS_CMD with GO and OP 2. -/
def execBootRecordWrite (_rq : Requester) (v : Word) (s : State) : Out :=
  s.busWrite NVS_CMD (fun d => d.nvsCmdWrite (fieldSet 4 2 2 v ||| 1))

/-- A write of NVS_CMD with SUSPEND. -/
def execNvsSuspend (_rq : Requester) (v : Word) (s : State) : Out :=
  s.busWrite NVS_CMD (fun d => d.nvsCmdWrite (v ||| 2))

/-- A write of NVS_CMD with RESUME. -/
def execNvsResume (_rq : Requester) (v : Word) (s : State) : Out :=
  s.busWrite NVS_CMD (fun d => d.nvsCmdWrite (v ||| 4))

/-! ## Pulses -/

/-- The pulses an operation takes. -/
def StoreOp.total (o : StoreOp) : Nat := if o.op = 0 then 4 * o.count + 1 else if o.op = 1 then 34 else 2

/-- Nanoseconds of the pulse in progress (R287, R288, R292). -/
def StoreOp.pulseNs (o : StoreOp) : Nat := if o.op = 1 ∧ 1 ≤ o.pulses ∧ o.pulses ≤ 32 then 12500 else 1280

/-- Has the pulse in progress come to its end? -/
def Dev.pulseOver (d : Dev) (o : StoreOp) : Bool := elapsed (d.slate - o.since) (o.ran + o.pulseNs)

/-- The last pulse of a program or a boot record write commits every target page at once (R287, R292). -/
def Dev.commitPages (d : Dev) (o : StoreOp) : Dev :=
  let t := max 8 (min 48 (d.rf NVS_CFG_ECC_T))
  o.data.zipIdx.foldl (fun d (x, k) => d.setPage (o.page + k) { data := x, commit := true, torn := false, t := t }) d

/-- Pages `q` of a block cleared. -/
def Dev.clearPages (d : Dev) (first : Nat) (q : Nat → Bool) : Dev :=
  (List.range 128).foldl (fun d k => if q k then d.setPage (first + k) StorePage.blank else d) d

/-- A clear pulse (R288). The spec does not say which pages each of the 32 pulses clears: before the last of them, a
free bit says it of each page. -/
def Dev.clearPulse (d : Dev) (o : StoreOp) (k : Nat) : Dev :=
  let b := o.page / 128
  let head := fun (d : Dev) (h : Word × Word) => d.setNvs { d.nvs with heads := SMap.set factoryHead d.nvs.heads b h }
  if k = 1 then head d (0xC1EA71A6, 0)
  else if k ≤ 32 then
    let n := d.free
    ({ d with free := n + 128 }).clearPages o.page (fun i => Config.freeBit (n + i))
  else if k = 33 then d.clearPages o.page (fun _ => true)
  else head d factoryHead

/-- What pulse `k` of an operation leaves in the store. -/
def Dev.pulseDone (d : Dev) (o : StoreOp) (k : Nat) : Dev :=
  if o.op = 1 then d.clearPulse o k
  else if k = o.total then d.commitPages o
  else if o.op = 2 then d.setPage o.page { d.page o.page with commit := false }
  else d

/-- An operation is over. -/
def Dev.nvsEnd (d : Dev) (st : Nat) : Dev :=
  ((d.wf NVS_STAT_STATE nIDLE).wf NVS_STAT_STATUS st).on NVS_STAT_DONE |>.setOp none

/-- What an operation stopped before its end leaves: torn pages, or an interrupted block (R290). -/
def Dev.nvsStopped (d : Dev) (o : StoreOp) : Dev :=
  if o.op = 0 ∧ o.pulses < o.total then
    (List.range ((o.pulses + 3) / 4)).foldl (fun d k => d.setPage (o.page + k) { d.page (o.page + k) with torn := true }) d
  else d

/-- An operation ends by brown-out (R290). -/
def Dev.nvsBrowned (d : Dev) (o : StoreOp) : Dev :=
  let d := ((d.nvsStopped o).nvsEnd stBROWNOUT).on NVS_STAT_BROWNOUT
  let d := d.nvsLog 0x08 .error [o.op, o.pulses, o.pulses / 256, 0, 0]
  let b := o.page / 128
  if o.op = 1 ∧ d.interrupted b then
    (d.intrCount.on NVS_STAT_INTERRUPTED).nvsLog 0x07 .error [b, b / 256, 1, 0, 0]
  else d

/-- The operation completes. -/
def Dev.nvsComplete (d : Dev) (o : StoreOp) : Dev :=
  let bank := d.rf NVS_STAT_BANK
  let d := d.nvsEnd stDONE
  if o.op = 2 then
    let d := d.bootShow
    let b := pageBytes (o.data.headD 0) 0 16
    let w := leNat ((b.drop 4).take 4)
    d.nvsLog 0x0A .note [w % 4, w / 4 % 4, (b.getD 0 0).toNat, (b.getD 1 0).toNat, 0]
  else (if o.op = 1 then d.intrCount else d).nvsLog 0x01 .info [o.op, o.count, bank, 0, 0]

/-- A pulse ends, its time gone by: the operation completes, ends by brown-out, suspends at the first pulse end at least 50 µs into its
run, or goes on. -/
def execNvsPulseEnd (s : State) : Out :=
  s.act (fun d =>
    match d.nvs.op with
    | none => d
    | some o =>
      if d.nstate = nSUSPENDED || !d.pulseOver o then d else
      let o := { o with pulses := o.pulses + 1, ran := o.ran + o.pulseNs }
      let d := d.pulseDone o o.pulses
      if o.brown then d.nvsBrowned o
      else if o.pulses = o.total then d.nvsComplete o
      else if d.nstate = nSUSPENDING ∧ 50000 ≤ o.ran then (d.setOp (some o)).wf NVS_STAT_STATE nSUSPENDED
      else d.setOp (some o))

/-- The brown-out detector trips: the pulse in progress is the operation's last; a suspended operation ends at once. -/
def execNvsBrownout (s : State) : Out :=
  s.act (fun d =>
    match d.nvs.op with
    | none => d
    | some o => if d.nstate = nSUSPENDED then d.nvsBrowned o else d.setOp (some { o with brown := true }))

/-- The scan of all headers (R288), after which the boot record is read (Table RST-2). -/
def Dev.headerScan (d : Dev) : Dev :=
  let d := d.interruptedBlocks.foldl (fun d b => (d.on NVS_STAT_INTERRUPTED).nvsLog 0x07 .error [b, b / 256, 0, 0, 0]) d
  d.intrCount.bootShow

/-- The scan, 120 µs long, once after each power-up of P2 and each reset that clears the block. -/
def execHeaderScan (s : State) : Out :=
  s.act (fun d =>
    if d.domainUp 2 && !d.sup.boot.scanned && elapsed (d.slate - d.sup.boot.scanAt) 120000 then
      { d.headerScan with sup := { d.headerScan.sup with boot := { d.headerScan.sup.boot with scanned := true } } }
    else d)

/-- An operation that a reset meets (R398): the pulse in progress runs to its end, and the operation ends with ABORT. -/
def Dev.nvsReset (d : Dev) (logs : Bool) : Dev :=
  match d.nvs.op with
  | none => d
  | some o =>
    let o := if d.nstate = nSUSPENDED then o else { o with pulses := o.pulses + 1 }
    let d := if d.nstate = nSUSPENDED then d else d.pulseDone o o.pulses
    let d := (d.nvsStopped o).nvsEnd stABORT
    if logs then d.nvsLog 0x0B .warn [o.op, o.pulses, o.pulses / 256, 0, 0] else d

end Sys2Proof.Machine
end

