-- ==== Sys2Proof/Machine/Image.lean ====
section
/-! DEFINITION. The image format (13_configuration_store_and_loading): header, sections, frame addresses, the body's
cipher and tag, and the regions that an image names. -/
namespace Sys2Proof.Machine
open Reg

/-- Loader statuses (Table CFG-11) and REGION of the Splice (R334). -/
def stFOREIGN : Nat := 8
def stHEADER : Nat := 9
def stKEY : Nat := 0xA
def stAUTH : Nat := 0xB
def stCRC : Nat := 0xC
def stFORMAT : Nat := 0xD
def stMARCH : Nat := 0xE
def stREGION : Nat := 0xF

def Dev.setCfg (d : Dev) (x : Cfg) : Dev := { d with cfg := x }

/-! ## The header (Table CFG-1) -/

/-- A field of the header: `n` bytes at `o`. -/
def hdrNat (h : List Byte) (o n : Nat) : Nat := leNat (bytesAt h o n)

def hdrFlags (h : List Byte) : Nat := hdrNat h 7 1
def hdrFull (h : List Byte) : Bool := (hdrFlags h).testBit 0
def hdrMarch (h : List Byte) : Bool := (hdrFlags h).testBit 1
def hdrTarget (h : List Byte) : Nat := hdrNat h 12 2 % 1024
def hdrKey (h : List Byte) : Nat := hdrNat h 14 1
def hdrLength (h : List Byte) : Nat := hdrNat h 16 4
def hdrFrames (h : List Byte) : Nat := hdrNat h 20 4
def hdrManifest (h : List Byte) : Nat := hdrNat h 24 8
def hdrIv (h : List Byte) : BitVec 96 := BitVec.ofNat 96 (beNat (bytesAt h 32 12))
def hdrBuild (h : List Byte) : Nat := hdrNat h 44 4

/-- The regions a header names. -/
def hdrRegions (h : List Byte) : List Nat := (List.range 64).filter (fun r => (hdrManifest h).testBit r)

def hdrMagic : Nat := 0x4C454552

/-- Check 1 of Table CFG-2 passes. -/
def headerFormed (h : List Byte) : Bool :=
  hdrNat h 0 4 == hdrMagic && hdrNat h 4 2 == 1 && hdrNat h 252 4 == (crc32c (h.take 252)).toNat &&
  hdrFlags h / 4 == 0 && hdrNat h 12 2 / 1024 == 0 && hdrNat h 15 1 == 0 && hdrNat h 48 204 == 0 &&
  (hdrKey h != 0 || hdrIv h == 0) && decide (288 ≤ hdrLength h) && hdrLength h % 16 == 0

/-- May a device of stepping `dev` take an image of stepping `img` (R4)? -/
def steppingFits (dev img : Nat) : Bool := img / 16 == dev / 16 && decide (img % 16 ≤ dev % 16)

/-- The key of a slot (R299). -/
def Dev.imageKey (d : Dev) (slot : Nat) : Option (BitVec 256) :=
  if slot = 1 then d.cfg.fuseKey else if slot = 2 then d.cfg.storeKey else none

/-- The first check of Table CFG-2 that applies: its order and status. `port`: on the load port, where TARGET is not
checked; `store`: from the store. -/
def Dev.headerCheck (d : Dev) (h : List Byte) (splice port store : Bool) : Option (Nat × Nat) :=
  if !headerFormed h then some (1, stHEADER)
  else if hdrNat h 8 4 != 0x0E29A0D3 || !steppingFits (d.rf (FAB_ID_STEPPING 0)) (hdrNat h 6 1) ||
      (!port && hdrTarget h != 0x3FF && hdrTarget h != d.rf MSH_ID_STRAP) then some (2, stFOREIGN)
  else if (if splice then hdrFull h || hdrMarch h else !hdrFull h) then some (3, stFORMAT)
  else if decide (2 < hdrKey h) || (hdrKey h != 0 && (d.imageKey (hdrKey h)).isNone) then some (4, stKEY)
  else if store && decide (0x0A000000 < hdrLength h) then some (5, stLENGTH)
  else none

/-! ## The body's cipher (R293, R298): AES-256-GCM over the block cipher `Config.aes256` -/

/-- The product of two blocks in GCM's field. -/
def gcmMul (x y : BitVec 128) : BitVec 128 :=
  ((List.range 128).foldl (fun (p : BitVec 128 × BitVec 128) i =>
    (if x.getLsbD (127 - i) then p.1 ^^^ p.2 else p.1,
     if p.2.getLsbD 0 then (p.2 >>> 1) ^^^ (0xE1 <<< 120) else p.2 >>> 1)) (0, y)).1

/-- Sixteen bytes as a block. -/
def blockOfBytes (l : List Byte) : BitVec 128 := BitVec.ofNat 128 (beNat (bytesAt l 0 16))

/-- GHASH over `n` blocks of a string. -/
def ghash (k : BitVec 128) (s : BitVec 128) (l : List Byte) (n : Nat) : BitVec 128 :=
  (List.range n).foldl (fun y i => gcmMul (y ^^^ blockOfBytes (bytesAt l (16 * i) 16)) k) s

/-- The counter block before the body's first. -/
def gcmStart (iv : BitVec 96) : BitVec 128 := BitVec.ofNat 128 (iv.toNat * 2 ^ 32 + 1)

/-- Key stream block `i` of the body. -/
def gcmStream (key : BitVec 256) (iv : BitVec 96) (i : Nat) : BitVec 128 :=
  Config.aes256 key (BitVec.ofNat 128 (iv.toNat * 2 ^ 32 + (2 + i) % 2 ^ 32))

/-- Plaintext of bytes that stand at offset `o` of the body. -/
def gcmPlain (key : BitVec 256) (iv : BitVec 96) (o : Nat) (l : List Byte) : List Byte :=
  l.zipIdx.map (fun (b, i) => b ^^^ (gcmStream key iv ((o + i) / 16) >>> (8 * (15 - (o + i) % 16))).setWidth 8)

/-- The tag over a header and an encrypted body. -/
def gcmTag (key : BitVec 256) (iv : BitVec 96) (hdr body : List Byte) : BitVec 128 :=
  let k := Config.aes256 key 0
  let s := ghash k (ghash k 0 hdr (hdr.length / 16)) body ((body.length + 15) / 16)
  gcmMul (s ^^^ BitVec.ofNat 128 (8 * hdr.length * 2 ^ 64 + 8 * body.length)) k ^^^ Config.aes256 key (gcmStart iv)

/-! ## Where an image's bytes are -/

/-- Does the image come from the store? -/
def Image.stored (im : Image) (splice : Bool) : Bool := im.src == (if splice then 2 else 0)

/-- Have bytes `o` to `o + n − 1` of the image arrived? -/
def Image.has (im : Image) (splice : Bool) (o n : Nat) : Bool := im.stored splice || decide (o + n ≤ im.got.length)

/-- Bytes of the image as they arrive. -/
def Dev.imageBytes (d : Dev) (im : Image) (splice : Bool) (o n : Nat) : List Byte :=
  if im.stored splice then d.storeBytes (im.base + o) n else bytesAt im.got o n

/-- Bytes of the body in plaintext. -/
def Dev.bodyBytes (d : Dev) (im : Image) (splice : Bool) (h : List Byte) (o n : Nat) : List Byte :=
  let l := d.imageBytes im splice o n
  match d.imageKey (hdrKey h) with
  | some k => gcmPlain k (hdrIv h) (o - 256) l
  | none => l

/-! ## Sections (Tables CFG-3 and CFG-4) -/

structure Section where
  typ  : Nat
  sub  : Nat
  resv : Nat
  arg0 : Nat
  arg1 : Nat
  len  : Nat
  deriving DecidableEq, Repr

def sectionOf (b : List Byte) : Section :=
  { typ := hdrNat b 0 1, sub := hdrNat b 1 1, resv := hdrNat b 2 2, arg0 := hdrNat b 4 4, arg1 := hdrNat b 8 4, len := hdrNat b 12 4 }

def secFRAMES : Nat := 1
def secMEMORY : Nat := 2
def secTABLE : Nat := 3
def secREGS : Nat := 4

/-- The payload with its padding. -/
def Section.padded (s : Section) : Nat := (s.len + 15) / 16 * 16

/-- Has the section the form of Table CFG-4, in a body with `room` bytes after its header (R295)? -/
def Section.formed (s : Section) (room : Nat) : Bool :=
  s.resv == 0 && decide (s.padded ≤ room) &&
  (if s.typ = secFRAMES then s.sub == 0 && decide (1 ≤ s.arg1) && s.len == s.arg1 * 2048
   else if s.typ = secMEMORY then
     decide (s.sub ≤ 5) && s.arg0 / 2 ^ 12 % 2 ^ 19 == 0 && s.arg1 % 8 == 0 && s.len % 8 == 0 && decide (8 ≤ s.len)
   else if s.typ = secTABLE then
     s.arg0 == 0 && s.arg1 == 0 &&
       (s.sub == 0 && s.len == 4096 || s.sub == 1 && s.len == 1024 || s.sub == 2 && s.len == 256 || s.sub == 3 && s.len == 1024)
   else if s.typ = secREGS then s.sub == 0 && s.arg0 == 0 && s.arg1 == 0 && s.len % 8 == 0
   else false)

/-! ## Frames (R296, R316) -/

/-- Frames of one die: 28,800 of logic tiles, then 72 of I/O tiles, in frame address order (R325). -/
def dieFrames : Nat := 28872

/-- A frame address's die, kind and frame number within them. -/
def frameAddrDie (a : Nat) : Nat := a / 2 ^ 31 % 2
def frameAddrIo (a : Nat) : Bool := a.testBit 30
def frameAddrTile (a : Nat) : Nat := a / 2 ^ 17 % 2 ^ 13
def frameAddrSub (a : Nat) : Nat := a / 2 ^ 15 % 4

/-- Does an address name a frame? -/
def frameAddrOk (a : Nat) : Bool :=
  a % 2 ^ 15 == 0 && (if frameAddrIo a then decide (frameAddrTile a ≤ 35) && decide (frameAddrSub a ≤ 1) else decide (frameAddrTile a ≤ 7199))

/-- The slot of a frame in its die (R325). -/
def frameAddrSlot (a : Nat) : Nat :=
  if frameAddrIo a then 28800 + 2 * frameAddrTile a + frameAddrSub a else 4 * frameAddrTile a + frameAddrSub a

def frameKey (die slot : Nat) : Nat := die * dieFrames + slot

/-- The frame address of a frame. -/
def frameAddr (k : Nat) : Nat :=
  let s := k % dieFrames
  k / dieFrames * 2 ^ 31 +
    (if s < 28800 then s / 4 * 2 ^ 17 + s % 4 * 2 ^ 15 else 2 ^ 30 + (s - 28800) / 2 * 2 ^ 17 + (s - 28800) % 2 * 2 ^ 15)

/-- The four detail bytes of a frame (R334). -/
def frameDetail (k : Nat) : List Nat :=
  let a := frameAddr k
  [a / 2 ^ 15 % 4, a / 2 ^ 17 % 2 ^ 6, a / 2 ^ 23 % 2 ^ 7, a / 2 ^ 30]

/-- Column of the I/O tile of an index. -/
def ioColumn (i : Nat) : Nat := 20 * (i / 6) + 2 + 3 * (i % 6)

/-- Does a defined region hold the I/O tile of a column (R316)? -/
def Dev.regionHoldsIo (d : Dev) (r die x : Nat) : Bool :=
  d.bit (SPL_REGr_DEF_VALID r) && d.rf (SPL_REGr_DEF_DIE r) == die && d.bit (SPL_REGr_DEF_IO r) &&
  decide (d.rf (SPL_REGr_DEF_X0 r) ≤ x) && decide (x ≤ d.rf (SPL_REGr_DEF_X1 r))

/-- Does region `r` hold a frame's tile? -/
def Dev.regionHasFrame (d : Dev) (r k : Nat) : Bool :=
  let s := k % dieFrames
  if s < 28800 then d.regionHolds r (k / dieFrames) (s / 4 % 120) (s / 4 / 120)
  else d.regionHoldsIo r (k / dieFrames) (ioColumn ((s - 28800) / 2))

def Dev.frameRegion (d : Dev) (k : Nat) : Option Nat := (List.range 64).find? (fun r => d.regionHasFrame r k)

/-- A frame's bytes as the planes hold it. -/
def frameOfBytes (b : List Byte) : BitVec 16384 := BitVec.ofNat 16384 (leNat b)
def frameSig (x : BitVec 16384) : BitVec 64 := crc64 (pageBytes x 0 2048)

/-! ## Regions (Table SPL-1, R317) -/

def rUNDEFINED : Nat := 0
def rUNLOADED : Nat := 1
def rLOADED : Nat := 2
def rOFF : Nat := 3

def Dev.rstate (d : Dev) (r : Nat) : Nat := d.rf (SPL_REGr_STAT_STATE r)
def Dev.regionDefined (d : Dev) (r : Nat) : Bool := d.bit (SPL_REGr_DEF_VALID r)
def Dev.definedRegions (d : Dev) : List Nat := (List.range 64).filter d.regionDefined

/-- The power domain of a region (R316). -/
def Dev.regionDomain (d : Dev) (r : Nat) : Nat := columnDomain (d.rf (SPL_REGr_DEF_DIE r)) (d.rf (SPL_REGr_DEF_X0 r))

/-- Is a domain's supply on: ON or in DRAIN? -/
def Dev.domPowered (d : Dev) (p : Nat) : Bool := d.rf (GAF_DOMd_STAT_STATE p) == 2 || d.rf (GAF_DOMd_STAT_STATE p) == 3

def Dev.regionPowered (d : Dev) (r : Nat) : Bool := d.domPowered (d.regionDomain r)

/-- The region goes into isolation, by an event of class 3. -/
def Dev.isolateRegion (d : Dev) (r : Nat) : Dev :=
  let d := d.on (SPL_REGr_STAT_ISOLATED r)
  ({ d with marks := d.marks ++ [(regionMark r, 3)] }).capWatches

/-- The frames of a region forgotten by scrubbing: no golden signature and no repair source. -/
def Dev.forgetRegion (d : Dev) (r : Nat) : Dev :=
  let f := d.regionHasFrame r
  (d.setCfg { d.cfg with golden := SMap.clear f d.cfg.golden, excl := SMap.clear f d.cfg.excl,
                         source := SMap.set none d.cfg.source r none,
                         repairs := d.cfg.repairs.filter (fun k => !f k) }).off (SPL_REGr_STAT_REPAIR r)

/-- The length of the repair queue shows in SPL_SCRUB_STAT. -/
def Dev.queueShow (d : Dev) : Dev := d.wf SPL_SCRUB_STAT_QUEUE d.cfg.repairs.length

/-- A region is recorded as unloaded and isolated; one whose domain is off is OFF. -/
def Dev.unloadRegion (d : Dev) (r : Nat) : Dev :=
  let d := (d.isolateRegion r).forgetRegion r |>.queueShow
  if d.rstate r = rOFF then d else d.wf (SPL_REGr_STAT_STATE r) rUNLOADED

/-- The frame of a logic tile, and that of an I/O tile, that the registers of user logic belong to. -/
def logicFrame (tile : Nat) : Nat := tile / 7200 * dieFrames + 4 * (tile % 7200)
def ioFrame (i : Nat) : Nat := i / 36 * dieFrames + 28800 + 2 * (i % 36)

/-- At the release of a load or of a Splice commit the flip-flops of a region hold their configured initial values, and its link
and pin registers zero (R80, log entry 168). -/
def Dev.logicInit (d : Dev) (r : Nat) : Dev :=
  { d with fab := { d.fab with
      cells := SMap.clear (fun k => d.regionHasFrame r (logicFrame (k / 256))) d.fab.cells,
      wires := SMap.clear (fun k => d.regionHasFrame r (logicFrame (k / 384))) d.fab.wires,
      pins := SMap.clear (fun k => d.regionHasFrame r (ioFrame (k / 8))) d.fab.pins,
      collSeen := SMap.clear (fun k => d.regionHolds r (k / 2560) (tileHost (k % 2560)).1 (tileHost (k % 2560)).2) d.fab.collSeen } }

/-- A region takes frames as its loaded configuration: golden signatures, repair source and exclusions (R323, R326). -/
def Dev.loadRegion (d : Dev) (r : Nat) (golds : List (Nat × BitVec 64 × Nat)) (src : Option RepairSrc) : Dev :=
  let d := (d.forgetRegion r |>.queueShow).logicInit r
  let mine := golds.filter (fun g => d.regionHasFrame r g.1)
  let d := d.setCfg { d.cfg with golden := mine.foldl (fun m g => SMap.set none m g.1 (some g.2)) d.cfg.golden,
                                 source := SMap.set none d.cfg.source r src }
  let ex := mine.filter (fun g => decide (g.1 % dieFrames < 28800) && Config.frameExcluded (SMap.at 0 d.cfg.active g.1))
  let d := d.setCfg { d.cfg with excl := ex.foldl (fun m g => SMap.set false m g.1 true) d.cfg.excl }
  let d := (d.wf (SPL_REGr_STAT_STATE r) rLOADED).off (SPL_REGr_STAT_ISOLATED r)
  (d.wb (SPL_REGr_STAT_REPAIR r) src.isSome).wf (SPL_REGr_EXCL_COUNT r) ex.length

/-! ## The region table (R315) -/

/-- The fields of a region table entry. -/
structure RegionEntry where
  word  : Nat
  rest  : Nat
  deriving DecidableEq, Repr

def RegionEntry.f (e : RegionEntry) (lo w : Nat) : Nat := e.word / 2 ^ lo % 2 ^ w
def RegionEntry.valid (e : RegionEntry) : Bool := e.f 0 1 == 1
def RegionEntry.die (e : RegionEntry) : Nat := e.f 1 1
def RegionEntry.io (e : RegionEntry) : Bool := e.f 2 1 == 1
def RegionEntry.x0 (e : RegionEntry) : Nat := e.f 4 7
def RegionEntry.x1 (e : RegionEntry) : Nat := e.f 11 7
def RegionEntry.y0 (e : RegionEntry) : Nat := e.f 18 6
def RegionEntry.y1 (e : RegionEntry) : Nat := e.f 24 6

/-- Does an entry meet every condition of R315 but that of shared tiles? -/
def RegionEntry.alone (e : RegionEntry) : Bool :=
  e.valid && decide (e.x0 ≤ e.x1) && decide (e.x1 ≤ 119) && decide (e.y0 ≤ e.y1) && decide (e.y1 ≤ 59) &&
  e.x0 / 15 == e.x1 / 15 && (!e.io || e.y1 == 59) && e.rest == 0

/-- Do two entries share a tile? -/
def RegionEntry.meets (a b : RegionEntry) : Bool :=
  a.die == b.die && decide (a.x0 ≤ b.x1) && decide (b.x0 ≤ a.x1) && decide (a.y0 ≤ b.y1) && decide (b.y0 ≤ a.y1)

def regionEntries (t : List Byte) : List RegionEntry :=
  (List.range 64).map (fun r => { word := leNat (bytesAt t (16 * r) 4), rest := leNat (bytesAt t (16 * r + 4) 12) })

/-- Does entry `r` define its region? -/
def entryDefines (es : List RegionEntry) (r : Nat) : Bool :=
  match es[r]? with
  | none => false
  | some e => e.alone && es.zipIdx.all (fun (x, i) => i == r || !(x.alone && e.meets x))

/-- A full image's region table is taken: definitions, states and SPL 0x09. -/
def Dev.regionTable (d : Dev) (t : List Byte) : Dev :=
  let es := regionEntries t
  es.zipIdx.foldl (fun d (e, r) =>
    let ok := entryDefines es r
    let d := d.forgetRegion r |>.queueShow
    let d := d.wr (SPL_REGr_DEF r) (fieldSet 0 1 ok.toNat (BitVec.ofNat 32 e.word &&& 0x3FFFFFF7))
    if ok then
      (d.wf (SPL_REGr_STAT_STATE r) (if d.regionPowered r then rUNLOADED else rOFF)).isolateRegion r
    else
      let d := (d.wf (SPL_REGr_STAT_STATE r) rUNDEFINED).off (SPL_REGr_STAT_ISOLATED r)
      if e.valid then d.log 0x05 0x09 .warn [r, e.die, 0, 0, 0] else d) d

/-! ## Memories (Table CFG-5, R297) -/

/-- Bytes of a memory of a kind, and how many a die has. -/
def memSize (k : Nat) : Nat := [8192, 262144, 262144, 65536, 32768, 4194304].getD k 0
def memCount (k : Nat) : Nat := [2560, 128, 32, 32, 32, 2].getD k 0

def Section.die (s : Section) : Nat := s.arg0 / 2 ^ 31
def Section.index (s : Section) : Nat := s.arg0 % 2 ^ 12

/-- A well-formed MEMORY section that overruns its memory or names none (LENGTH). -/
def Section.overruns (s : Section) : Bool :=
  decide (memSize s.sub < s.arg1 + s.len) || decide (memCount s.sub ≤ s.index) || (s.sub == 5 && s.die != 0)

/-- Host tile of the RAM a MEMORY section names. -/
def Section.host (s : Section) : Nat × Nat := if s.sub = 1 then deepHost s.index else tileHost s.index

/-- Replace 32-bit word `w` of a bundle or an entry. -/
def putWord (x : BitVec 128) (w : Nat) (v : Word) : BitVec 128 := setEntryWord x (w % 4) v

/-- Write a memory's contents from a payload, with valid check bits and no poison. -/
def Dev.memoryWrite (d : Dev) (s : Section) (pay : List Byte) : Dev :=
  let die := s.die
  let i := s.index
  if s.sub = 0 then
    (List.range (s.len / 8)).foldl (fun d k =>
      d.setTile die i (s.arg1 / 8 + k) (BitVec.ofNat 40 (leNat (bytesAt pay (8 * k) 8))) false) d
  else
    (List.range (s.len / 4)).foldl (fun d k =>
      let w := s.arg1 / 4 + k
      let v : Word := BitVec.ofNat 32 (leNat (bytesAt pay (4 * k) 4))
      if s.sub = 1 then d.setDeep die i w v false
      else if s.sub = 2 then d.setSpad (die * 32 + i) w { v := v, p := false }
      else if s.sub = 3 then d.setCoef (die * 32 + i) w { v := v, p := false }
      else if s.sub = 4 then d.setProg (die * 32 + i) (w / 4) (putWord (d.progBundle (die * 32 + i) (w / 4)) w v)
      else { d with csh := { d.csh with entries := SMap.set 0 d.csh.entries (i * bankSize + w / 4) (putWord (d.entry i (w / 4)) w v),
                                        poison := SMap.set false d.csh.poison (i * bankSize + w / 4) false } }) d

/-- Zero a memory that a load or Splice wrote. -/
def Dev.memoryZero (d : Dev) (m : Nat × Nat × Nat) : Dev :=
  let (kind, die, i) := m
  let inB := fun (size base k : Nat) => decide (base * size ≤ k) && decide (k < (base + 1) * size)
  if kind = 0 then
    { d with fab := { d.fab with tile := SMap.clear (inB 1024 (die * 2560 + i)) d.fab.tile,
                                 tilePsn := SMap.clear (inB 1024 (die * 2560 + i)) d.fab.tilePsn,
                                 queue := SMap.clear (· == die * 2560 + i) d.fab.queue,
                                 queueAt := SMap.clear (· == die * 2560 + i) d.fab.queueAt } }
  else if kind = 1 then
    { d with fab := { d.fab with deep := SMap.clear (inB 65536 (die * 128 + i)) d.fab.deep,
                                 deepPsn := SMap.clear (inB 65536 (die * 128 + i)) d.fab.deepPsn } }
  else if kind = 2 then { d with se := { d.se with spad := SMap.clear (inB 65536 (die * 32 + i)) d.se.spad } }
  else if kind = 3 then { d with se := { d.se with coef := SMap.clear (inB 16384 (die * 32 + i)) d.se.coef } }
  else if kind = 4 then { d with se := { d.se with prog := SMap.clear (inB 2048 (die * 32 + i)) d.se.prog } }
  else { d with csh := { d.csh with entries := SMap.clear (inB bankSize i) d.csh.entries, poison := SMap.clear (inB bankSize i) d.csh.poison } }

/-- A payload's frames written to a plane: the plane, and the frames with their signatures and image offsets. -/
def writeFrames (plane : SMap (BitVec 16384)) (first n ofs : Nat) (pay : List Byte) :
    SMap (BitVec 16384) × List (Nat × BitVec 64 × Nat) :=
  (List.range n).foldl (fun (acc : SMap (BitVec 16384) × List (Nat × BitVec 64 × Nat)) i =>
    let b := bytesAt pay (2048 * i) 2048
    (SMap.set 0 acc.1 (first + i) (frameOfBytes b), acc.2 ++ [(first + i, crc64 b, ofs + 2048 * i)])) (plane, [])

/-- A memory's key among those written, once. -/
def addOnce {α : Type} [DecidableEq α] (l : List α) (x : α) : List α := if l.contains x then l else l ++ [x]

/-- The frames that follow a first frame within one die and kind, or none where the section's address is no frame's or
the last frame is passed (R296). -/
def Section.frames (s : Section) : Option (List Nat) :=
  let slot := frameAddrSlot s.arg0
  if frameAddrOk s.arg0 && decide (slot + s.arg1 ≤ (if frameAddrIo s.arg0 then dieFrames else 28800)) then
    some ((List.range s.arg1).map (fun i => frameKey (frameAddrDie s.arg0) (slot + i)))
  else none

end Sys2Proof.Machine
end

