-- ==== Sys2Proof/Machine/Splice.lean ====
section
/-! DEFINITION. Splices (14_splice_and_scrub): their start, acceptance, commit and endings, and the release of a region
by software. The sections of a Splice image are read with those of a load (Machine/Load.lean). -/
namespace Sys2Proof.Machine
open Reg

/-- Splice states (SPL_STAT). -/
def pIDLE : Nat := 0
def pHEADER : Nat := 1
def pBODY : Nat := 2
def pSTAGED : Nat := 3
def pDONE : Nat := 4
def pFAILED : Nat := 5
def pCLEARING : Nat := 6

def Dev.splState (d : Dev) : Nat := d.rf SPL_STAT_STATE
def Dev.splLog (d : Dev) (code : Nat) (sev : Sev) (det : List Nat) : Dev := d.log 0x05 code sev det

def Dev.setSplice (d : Dev) (im : Option Image) : Dev := d.setCfg { d.cfg with splice := im }

/-- Free words of the two supervisor stream buffers when empty. -/
def bufWords : Nat := 16384

/-- An image that has just been started. -/
def Image.start (src slot port base tick now : Nat) : Image :=
  { src := src, slot := slot, port := port, base := base, got := [], pos := 0, header := none, idle := now, target := none,
    keyLost := false, frames := 0, golds := [], wrote := [], mems := [], memSeen := false, marched := false, pairs := [],
    routing := none, tick := tick, regions := [], left := [], done := 0 }

/-- The region of an ending's record: the lowest region named; 0 where none is. -/
def Image.firstRegion (im : Image) : Nat := im.regions.headD 0

/-- Has T − 64 come, after which no abandonment of the Splice counts (R43, R324)? -/
def Image.decided (im : Image) (slate : Nat) : Bool := !im.regions.isEmpty && decide (im.tick ≤ slate + 64)

/-! ## Endings (R319, R321, R324) -/

/-- SPL_STAT and SPL_FAIL take a failure. -/
def Dev.splFail (d : Dev) (src st ofs : Nat) : Dev :=
  (((d.wf SPL_STAT_STATUS st).on SPL_STAT_FAIL).wf SPL_FAIL_STATUS st).wf SPL_FAIL_SRC src |>.wf SPL_FAIL_OFFSET (ofs / 16)

/-- A START that is refused at once (R319, R320): check 0x00. -/
def Dev.spliceRefuse (d : Dev) (src st : Nat) : Dev := (d.splFail src st 0).splLog 0x03 .warn [src, st, 0, 0, 0]

/-- The ICP that feeds a Splice pulses DONE on the tick it ends (Table SPL-2). -/
def Dev.icpEnd (d : Dev) (src st : Nat) : Dev := if src < 2 then d.out (.icpDone src st) else d

/-- The Cuts of a Splice that ends: an ARMED one is cancelled, a PREPARED one fails with ABORT and SLT 0x02 (R324). -/
def Dev.spliceCuts (d : Dev) (regions : List Nat) : Dev :=
  (List.range 32).foldl (fun d i =>
    let c := d.cut i
    if c.live && c.kind == kCONFIG && regions.contains c.target then d.failCut i stABORT (c.state == .prepared) else d) d

/-- A Splice begins. -/
def Dev.spliceBegin (d : Dev) (a : SpliceAsk) : Dev :=
  ((d.setSplice (some (Image.start a.src 0 0 a.base a.tick d.slate))).wf SPL_STAT_STATE pHEADER).wf SPL_STAT_SPACE bufWords

/-- A START waiting for CLEARING begins. -/
def Dev.spliceNext (d : Dev) : Dev :=
  match d.cfg.spliceWait with
  | some a => (d.setCfg { d.cfg with spliceWait := none }).spliceBegin a
  | none => d

/-- What every ending of a Splice does to the controller: no Splice, the store no longer held. -/
def Dev.spliceOver (d : Dev) (im : Image) (st : Nat) : Dev :=
  ((d.setSplice none).nvsUnhold 1).icpEnd im.src st |>.wf SPL_STAT_SPACE bufWords

/-- A Splice refused before acceptance: nothing is written (R321, Table SPL-4). -/
def Dev.spliceReject (d : Dev) (im : Image) (st check region : Nat) : Dev :=
  let d := ((d.spliceOver im st).splFail im.src st 0).wf SPL_STAT_STATE pFAILED
  d.splLog 0x03 .warn [im.src, st, check, region, 0]

/-- A Splice ends without commit (Table SPL-4); SPL 0x04, of class 3, stands before the SLT 0x02 of its Cuts (R45). `unload`: its regions end isolated and UNLOADED; otherwise only a region
that a MEMORY section isolated does. -/
def Dev.spliceEnd (d : Dev) (st ofs : Nat) (unload : Bool) : Dev :=
  match d.cfg.splice with
  | none => d
  | some im =>
    let d := d.splLog 0x04 .error [im.src, st, im.firstRegion, ofs / 16, ofs / 16 / 256]
    let d := (d.spliceCuts im.left).spliceOver im st
    let un := if unload || im.memSeen then im.regions else []
    let d := im.regions.foldl (fun d r =>
      ((d.off (SPL_REGr_STAT_STAGING r)).on (SPL_REGr_STAT_ABORTED r))) d
    let d := un.foldl Dev.unloadRegion d
    let named := fun k => im.regions.any (fun r => d.regionHasFrame r k)
    let d := d.setCfg { d.cfg with shadow := SMap.clear named d.cfg.shadow,
                                   spliceClear := { frames := [], mems := [], regions := un } }
    (d.splFail im.src st ofs).wf SPL_STAT_STATE (if un.isEmpty then pFAILED else pCLEARING)

/-- CLEARING ends: both planes of the regions are zero (R324). -/
def execSpliceClearingDone (s : State) : Out :=
  s.act (fun d =>
    if d.splState ≠ pCLEARING then d else
    let f := fun k => d.cfg.spliceClear.regions.any (fun r => d.regionHasFrame r k)
    let d := d.setCfg { d.cfg with active := SMap.clear f d.cfg.active, shadow := SMap.clear f d.cfg.shadow,
                                   spliceClear := Clearing.none }
    (d.wf SPL_STAT_STATE pFAILED).spliceNext)

/-! ## Starting (R319, R320) -/

/-- Is a Splice in progress: a START has been taken and has not ended? -/
def Dev.spliceBusy (d : Dev) : Bool := d.cfg.splice.isSome || d.cfg.spliceWait.isSome

/-- A START that its port permits. -/
def Dev.spliceAsk (d : Dev) (a : SpliceAsk) : Dev :=
  if d.spliceBusy then d.spliceRefuse a.src stFULL
  else if d.splState = pCLEARING then d.setCfg { d.cfg with spliceWait := some a }
  else d.spliceBegin a

/-- A START pulse on an ICP, with T on AT. -/
def execIcpStart (die : Fin 2) (at_ : BitVec 64) (s : State) : Out :=
  s.act (fun d =>
    if !d.domainUp 2 || !d.clocked SPL_CTL || (d.tileDead die 60 0).isSome then d
    else if !(d.rf SPL_CTL_ICP_EN).testBit die then d.spliceRefuse die stACCESS
    else d.spliceAsk { src := die, tick := at_.toNat, base := 0 })

/-- START written by software: from the store at SPL_SRC, or through SPL_DATA. -/
def Dev.spliceSoft (d : Dev) : Dev :=
  let t := d.rd64 SPL_CUT_TICK_LO SPL_CUT_TICK_HI
  if d.bit SPL_CTL_SRC then d.spliceAsk { src := 3, tick := t, base := 0 }
  else
    let o := d.rf SPL_SRC_OFFSET
    if o % pageSize ≠ 0 then d.spliceRefuse 2 stACCESS else d.spliceAsk { src := 2, tick := t, base := o }

/-- ABORT, on an ICP or in SPL_CTL: ignored from T − 64 on (R324). -/
def Dev.spliceAbort (d : Dev) : Dev :=
  match d.cfg.splice with
  | none => d
  | some im =>
    if im.decided d.slate then d
    else d.spliceEnd stABORT (if im.stored true then im.pos else im.got.length) true

def execIcpAbort (die : Fin 2) (s : State) : Out :=
  s.act (fun d => if (d.tileDead die 60 0).isSome then d else d.spliceAbort)

/-- END of the SPL_DATA stream before LENGTH bytes have arrived (R303, R320). -/
def Dev.spliceStreamEnd (d : Dev) : Dev :=
  match d.cfg.splice with
  | none => d
  | some im =>
    if im.src ≠ 3 then d
    else if im.got.length < 256 ∨ im.got.length < hdrLength im.got then d.spliceEnd stLENGTH im.got.length true
    else d

/-- A write of SPL_CTL. -/
def Dev.splCtlWrite (d : Dev) (v : Word) : Dev :=
  let d := d.plainWrite SPL_CTL v
  let d := if v.getLsbD 0 then d.spliceSoft else d
  let d := if v.getLsbD 1 then d.spliceAbort else d
  if v.getLsbD 2 then d.spliceStreamEnd else d

def execSpliceStart (_rq : Requester) (v : Word) (s : State) : Out :=
  s.busWrite SPL_CTL (fun d => d.splCtlWrite (v ||| 1))

def execSpliceAbort (_rq : Requester) (v : Word) (s : State) : Out :=
  s.busWrite SPL_CTL (fun d => d.splCtlWrite (v ||| 2))

def execSpliceStreamEnd (_rq : Requester) (v : Word) (s : State) : Out :=
  s.busWrite SPL_CTL (fun d => d.splCtlWrite (v ||| 4))

/-- Bytes taken from a Splice's stream; the idle timeout runs again (R304). -/
def Dev.spliceTake (d : Dev) (im : Image) (b : List Byte) : Dev :=
  d.setSplice (some { im with got := im.got ++ b, idle := d.slate })

/-- Is every byte of the image there? -/
def Image.whole (im : Image) : Bool := match im.header with | some h => decide (hdrLength h ≤ im.got.length) | none => false

/-- A word with VALID on an ICP: taken while a Splice of that port runs. -/
def execIcpDataWord (die : Fin 2) (data : BitVec 128) (s : State) : Out :=
  s.act (fun d =>
    if (d.tileDead die 60 0).isSome then d else
    match d.cfg.splice with
    | some im => if im.src = die.val ∧ !im.whole then d.spliceTake im (leBytes 16 data.toNat) else d
    | none => d)

/-- A word written to a supervisor stream buffer: its free words after the loader has taken `drained`, or none where
the buffer is full (R303). -/
def bufferTake (space drained : Nat) : Option Nat :=
  let s := min bufWords (space + drained)
  if s = 0 then none else some (s - 1)

/-- A write of SPL_DATA. `drained`: the words the controller has taken from the buffer since the last write. From
T − 64 on no word ends the Splice (R324). -/
def Dev.splDataWrite (d : Dev) (v : Word) (drained : Nat) : Dev :=
  match d.cfg.splice with
  | some im =>
    if im.src ≠ 3 then d else
    match bufferTake (d.rf SPL_STAT_SPACE) drained with
    | none => (if im.decided d.slate then d else d.spliceEnd stFORMAT im.got.length true).err
    | some sp =>
      let d := d.wf SPL_STAT_SPACE sp
      if im.decided d.slate && im.whole then d
      else if im.whole then d.spliceEnd stFORMAT im.got.length true else d.spliceTake im (leBytes 4 v.toNat)
  | none => d

def execSplDataWrite (_rq : Requester) (v : Word) (drained : BitVec 15) (s : State) : Out :=
  s.busWrite SPL_DATA (fun d => d.splDataWrite v drained.toNat)

/-! ## Acceptance (R321, R322, Table SPL-3) -/

/-- Does a march run under way test a RAM of the region? -/
def Dev.regionMarching (d : Dev) (r : Nat) : Bool :=
  let die := d.rf (SPL_REGr_DEF_DIE r)
  match d.marchOf die with
  | some m => (selectedRams m.kinds m.regions).any (fun x => d.regionHolds r die (ramHost x.1 x.2).1 (ramHost x.1 x.2).2)
  | none => false

/-- Slots that a request may take (R42). -/
def Dev.slotsFree (d : Dev) : Nat :=
  ((List.range 32).filter (fun i => let c := d.cut i; (c.state == .free && !c.reserved) || c.state == .done || c.state == .failed)).length

/-- The first manifest check that applies: its order, status and region. -/
def Dev.manifestCheck (d : Dev) (im : Image) (rs : List Nat) : Option (Nat × Nat × Nat) :=
  if rs.isEmpty then some (1, stDONE, 0)
  else match rs.find? (fun r => !d.regionDefined r) with
    | some r => some (2, stREGION, r)
    | none =>
      match (if im.src < 2 then rs.find? (fun r => d.regionHolds r im.src 60 0) else none) with
      | some r => some (3, stACCESS, r)
      | none =>
        match rs.find? d.regionMarching with
        | some r => some (4, stACCESS, r)
        | none =>
          if !d.leadOk im.tick then some (5, stLEAD, 0)
          else if d.slotsFree < rs.length then some (6, stFULL, 0)
          else none

/-- A Splice is accepted: its Cuts are requested, its regions are staging and scrubbing skips them. -/
def Dev.spliceAccept (d : Dev) (im : Image) (h : List Byte) (rs : List Nat) : Dev :=
  let d := rs.foldl (fun d r => (d.requestCut kCONFIG r im.tick).2.on (SPL_REGr_STAT_STAGING r)) d
  let d := d.setCfg { d.cfg with skip := d.cfg.skip ++ rs.filter (fun r => !d.cfg.skip.contains r),
                                 splice := some { im with header := some h, pos := 256, regions := rs, left := rs } }
  let m := hdrManifest h
  (d.wf SPL_STAT_STATE pBODY).splLog 0x01 .info [im.src, rs.length, m, m / 256, 0]

/-- The header of a Splice image is checked, then its manifest. -/
def Dev.spliceHeader (d : Dev) (pages : List PageErr) : Dev :=
  match d.cfg.splice with
  | none => d
  | some im =>
    if im.header.isSome || !im.has true 0 256 then d
    else if im.stored true && d.rangeBusy im.base 256 then d.nvsHold 1
    else
      let (bad, d) := if im.stored true then d.pagesRead im.base 256 pages else (none, d)
      match bad with
      | some st => d.spliceReject im st 0x20 0
      | none =>
        let h := d.imageBytes im true 0 256
        match d.headerCheck h true false (im.stored true) with
        | some (n, st) => d.spliceReject im st (0x10 + n) 0
        | none =>
          match d.manifestCheck im (hdrRegions h) with
          | some (n, st, r) => d.spliceReject im st n r
          | none =>
            let d := d.spliceAccept im h (hdrRegions h)
            if !im.stored true && decide (hdrLength h < im.got.length) && im.src == 3 then d.spliceEnd stFORMAT (hdrLength h) true else d

/-! ## Commit (R317, R323) -/

/-- The repair source that a Splice records: the store offset of its image. -/
def Image.repairSrc (im : Image) (splice : Bool) : Option RepairSrc :=
  match im.header with
  | some h => if im.stored splice then some { base := im.base, key := hdrKey h, iv := hdrIv h } else none
  | none => none

/-- A region takes its shadow plane. -/
def Dev.commitRegion (d : Dev) (im : Image) (r : Nat) : Dev :=
  let f := d.regionHasFrame r
  let sh := d.cfg.shadow.filter (fun e => f e.1)
  let d := d.setCfg { d.cfg with active := sh.foldl (fun m e => SMap.set 0 m e.1 e.2) (SMap.clear f d.cfg.active),
                                 routing := match im.routing with
                                   | some t => Config.spliceRouting d.cfg.routing t [d.rd (SPL_REGr_DEF r)]
                                   | none => d.cfg.routing }
  (d.loadRegion r im.golds (im.repairSrc true)).off (SPL_REGr_STAT_STAGING r)

/-- A CONFIG Cut whose domain is off is discarded (R317). The spec gives it no source number: those bytes are free, and
so is the winning class where no event of this tick took the domain. -/
def Dev.configDiscard (d : Dev) (i r : Nat) : Dev :=
  let f := d.regionHasFrame r
  let src := match d.cfg.splice with | some im => im.src | none => 0
  let d := (d.splLog 0x04 .error [src, stABORT, r, 0, 0]).failCut i stABORT true
  let (w, d) := d.draw
  let win := match d.marks.find? (fun m => m.1 == domainMark (d.regionDomain r)) with
    | some m => m.2
    | none => w.toNat / 2 ^ 16
  let d := d.log 0x0D 0x02 .warn [0x05, 6, w.toNat, w.toNat / 256, win]
  let d := d.setCfg { d.cfg with shadow := SMap.clear f d.cfg.shadow }
  (d.off (SPL_REGr_STAT_STAGING r)).on (SPL_REGr_STAT_ABORTED r)

/-- The last Cut of a Splice has executed or been discarded: it ends DONE when a region committed, else with ABORT. -/
def Dev.spliceSettle (d : Dev) : Dev :=
  match d.cfg.splice with
  | none => d
  | some im =>
    if !im.left.isEmpty then d
    else if im.done = 0 then ((d.spliceOver im stABORT).splFail im.src stABORT 0).wf SPL_STAT_STATE pFAILED
    else
      let b := match im.header with | some h => hdrBuild h | none => 0
      let d := (((d.spliceOver im stDONE).wf SPL_STAT_STATE pDONE).wf SPL_STAT_STATUS stDONE).on SPL_STAT_DONE
      d.splLog 0x02 .info [im.src, im.regions.length, b, b / 256, 0]

/-- A CONFIG Cut executes on its tick. -/
def Dev.configCut (d : Dev) (i : Nat) : Dev :=
  let r := (d.cut i).target
  match d.cfg.splice with
  | none => d.cutExecuted i
  | some im =>
    let ok := d.regionPowered r
    let d := if ok then (d.commitRegion im r).cutExecuted i else d.configDiscard i r
    let d := match d.cfg.splice with
      | some im => d.setSplice (some { im with left := im.left.filter (· != r), done := im.done + ok.toNat })
      | none => d
    d.spliceSettle

/-! ## Regions and power (R317) -/

/-- A domain goes off: a Splice that names a region of it ends with ABORT where the domain's work ends, and its regions lose
their active plane. -/
def Dev.regionsDown (d : Dev) (p : Nat) (work : Bool) : Dev :=
  let rs := d.definedRegions.filter (fun r => d.regionDomain r == p)
  let d := match d.cfg.splice with
    | some im => if work && im.regions.any rs.contains then d.spliceEnd stABORT (if im.stored true then im.pos else im.got.length) true else d
    | none => d
  rs.foldl (fun d r =>
    let f := d.regionHasFrame r
    let d := (d.forgetRegion r |>.queueShow).isolateRegion r
    (d.setCfg { d.cfg with active := SMap.clear f d.cfg.active }).wf (SPL_REGr_STAT_STATE r) rOFF) d

/-- A domain powers up: its regions are UNLOADED and isolated. -/
def Dev.regionsUp (d : Dev) (p : Nat) : Dev :=
  (d.definedRegions.filter (fun r => d.regionDomain r == p)).foldl (fun d r =>
    if d.rstate r = rOFF then (d.wf (SPL_REGr_STAT_STATE r) rUNLOADED).isolateRegion r else d) d

/-! ## Release by software (R331) -/

/-- A write of SPL_REGr_CTL: RELEASE of an isolated LOADED region, on the next tick. -/
def Dev.regionCtlWrite (d : Dev) (r : Nat) (v : Word) : Dev :=
  if v.getLsbD 0 && d.rstate r == rLOADED && d.bit (SPL_REGr_STAT_ISOLATED r) then
    d.setCfg { d.cfg with relNext := addOnce d.cfg.relNext r }
  else d

def execRegionRelease (_rq : Requester) (r : Fin 64) (v : Word) (s : State) : Out :=
  s.busWrite (SPL_REGr_CTL r) (fun d => d.regionCtlWrite r (v ||| 1))

/-- The releases of the last tick take effect. -/
def Dev.regionReleases (d : Dev) : Dev :=
  d.cfg.relNext.foldl (fun d r =>
    if d.rstate r == rLOADED && d.bit (SPL_REGr_STAT_ISOLATED r) then
      (d.off (SPL_REGr_STAT_ISOLATED r)).splLog 0x0B .info [r, 0, 0, 0, 0]
    else d) (d.setCfg { d.cfg with relNext := [] })

end Sys2Proof.Machine
end

