-- ==== Sys2Proof/Machine/Events.lean ====
section
/-! DEFINITION. The event controller (15_supervisor_and_events): sources, pins and latches, claims, completions and the
non-maskable sources. -/
namespace Sys2Proof.Machine
open Reg

def Dev.setSup (d : Dev) (x : Sup) : Dev := { d with sup := x }
def Dev.evcLog (d : Dev) (code : Nat) (sev : Sev) (det : List Nat) : Dev := d.log 0x0E code sev det

/-- The four bytes of a word, as details give them. -/
def wordDetail (w : Word) : List Nat := [w.toNat, w.toNat / 2 ^ 8, w.toNat / 2 ^ 16, w.toNat / 2 ^ 24]

/-! ## Non-maskable sources (R346) -/

/-- Is P1 powered? -/
def Dev.p1On (d : Dev) : Bool := d.domainUp 1

/-- Non-maskable source `n` fires: EVC_NMI, which lies in P1, takes its bit. -/
def Dev.nmi (d : Dev) (n : Nat) : Dev :=
  if d.p1On then d.wf EVC_NMI_NMI (d.rf EVC_NMI_NMI ||| 2 ^ n) else d

/-! ## Pending bits (R339, R345) -/

/-- A source that SETPEND, PEND and the inputs can make pending: not 0 to 7, 29 to 31, 198 or 199. -/
def pendable (s : Nat) : Bool := decide (8 ≤ s) && decide (s < 256) && !(decide (29 ≤ s) && decide (s ≤ 31)) && s != 198 && s != 199

def Dev.pendOf (d : Dev) (s : Nat) : Bool := (d.rd (EVC_PENDk (s / 32))).getLsbD (s % 32)

def Dev.setPendBit (d : Dev) (s : Nat) (b : Bool) : Dev := d.wf ⟨EVC_PENDk (s / 32), s % 32, 1⟩ b.toNat

/-- Hardware sets a source pending on this tick. -/
def Dev.hwPend (d : Dev) (s : Nat) : Dev :=
  if !pendable s then d else
  (d.setSup { d.sup with setNow := s :: d.sup.setNow }).setPendBit s true

/-- Software sets a source pending. -/
def Dev.swPendSet (d : Dev) (s : Nat) : Dev :=
  if !pendable s then d else
  (d.setSup { d.sup with swPend := SMap.set false d.sup.swPend s true, setNow := s :: d.sup.setNow }).setPendBit s true

/-- A source is no longer pending. -/
def Dev.unpend (d : Dev) (s : Nat) : Dev :=
  (d.setSup { d.sup with swPend := SMap.set false d.sup.swPend s false }).setPendBit s false

def Dev.activeOf (d : Dev) (t : Nat) : Option Nat := SMap.at none d.sup.active t

/-- Is the source some target's active source? -/
def Dev.isActive (d : Dev) (s : Nat) : Bool := (List.range 5).any (fun t => d.activeOf t == some s)

/-- The input of source `s` is sampled (R338, R339). Pending by level ends with the level, unless software set it. -/
def Dev.sampleSource (d : Dev) (s : Nat) (high : Bool) : Dev :=
  let old := SMap.at false d.sup.level s
  let d := d.setSup { d.sup with level := SMap.set false d.sup.level s high }
  if !pendable s || !d.bit (EVC_SRCs_CFG_EN s) then d
  else
    let sense := d.rf (EVC_SRCs_CFG_SENSE s)
    if sense = 0 then
      if high then (if d.isActive s || d.pendOf s then d else d.hwPend s)
      else if SMap.at false d.sup.swPend s then d else d.setPendBit s false
    else if old ≠ high ∧ (sense = 3 ∨ (sense = 1 ↔ high = true)) then d.hwPend s
    else d

/-- The event source of a block's W1C status registers (R338, Table EVC-2); none for a block with no source. -/
def sourceOfReg (a : Nat) : Option Nat :=
  let b := blockOf a
  let die := (a - 0x10000000) / 0x8000000
  if b = 0 then none
  else if b ≤ 0x0D then some (7 + b)
  else if b = 0x0E then none
  else if b ≤ 0x14 then some (6 + b)
  else if b = 0x15 then some (192 + die) else if b = 0x16 then some (194 + die) else if b = 0x17 then some (196 + die)
  else if b = 0x18 then (if a < 0x20000000 then some (64 + die * 32 + (a % 0x8000000 - 0x400000) / 0x20000) else none)
  else if b = 0x19 then some (128 + die * 32 + (a % 0x8000000 - 0x800000) / 0x800)
  else if b = 0x1A then some (27 + die)
  else none

/-- Is the engine or mover whose pulse source `s` is isolated (R17)? -/
def Dev.pulseIsolated (d : Dev) (s : Nat) : Bool := decide (64 ≤ s) && decide (s < 192) && d.engineIsolated ((s - 64) % 64)

/-- The event output of an internal source: a pulse of this tick, or the OR of its block's W1C bits. An isolated engine,
mover or quad drives none (R17). -/
def Dev.sourceOut (d : Dev) (s : Nat) : Bool :=
  d.hub.pulses.contains s && !d.pulseIsolated s ||
  d.regs.any (fun e => sourceOfReg e.1 == some s && !d.unitIsolated e.1 &&
    (match rowAt e.1 with | some r => (e.2 &&& w1cMask r) != 0 | none => false))

/-- Is the source an internal one? -/
def internalSource (s : Nat) : Bool := (decide (8 ≤ s) && decide (s ≤ 28)) || (decide (64 ≤ s) && decide (s ≤ 197))

/-- The FEV inputs come from host tile (59, 0) of a die (R338); a dead tile drives zero (Table GAF-4). -/
def Dev.fevDead (d : Dev) (s : Nat) : Bool := (d.tileDead ((s - 200) / 16) 59 0).isSome

/-- A source is sampled: an internal one by its block's output, a fabric event input by `level`. -/
def Dev.sourceFire (d : Dev) (s : Nat) (level : Bool) : Dev :=
  if internalSource s then d.sampleSource s (d.sourceOut s)
  else if 200 ≤ s ∧ s ≤ 231 then d.sampleSource s (level && !d.fevDead s)
  else d

def execEventSourceFire (s : Fin 256) (level : Bool) (st : State) : Out := st.act (fun d => d.sourceFire s level)

/-- On a Slate tick every enabled internal source is sampled. -/
def Dev.sampleSources (d : Dev) : Dev :=
  (List.range 256).foldl (fun d s =>
    if internalSource s && d.bit (EVC_SRCs_CFG_EN s) then d.sampleSource s (d.sourceOut s) else d) d

/-! ## Pins and latches (R340, R341) -/

/-- Do the asynchronous latches act: D0 stopped (R341), or P1 off (Table EVC-5)? -/
def Dev.latching (d : Dev) : Bool := d.gaf.d0Stop || !d.p1On

/-- Does SENSE select an edge to `level`? -/
def senseSelects (sense : Nat) (level : Bool) : Bool :=
  if sense = 3 then true else if sense = 2 then !level else level

/-- A pin has changed to `level` and held it for `ns`. -/
def Dev.pinEdge (d : Dev) (pin : Nat) (level : Bool) (ns : Nat) : Dev :=
  let s := 32 + pin
  let edge : Bool := d.bit (EVC_SRCs_CFG_EN s) && senseSelects (d.rf (EVC_SRCs_CFG_SENSE s)) level && decide (5 ≤ ns)
  let d := if d.latching && edge && !d.sup.latch.contains s then d.setSup { d.sup with latch := d.sup.latch ++ [s] } else d
  if d.gaf.d0Stop then d
  else if (d.rf (EVC_SRCs_CFG_FILTER s) + 1) * 1000 ≤ ns * 48 then d.sampleSource s level
  else d

def execEventPinEdge (pin : Fin 32) (level : Bool) (ns : Nat) (s : State) : Out := s.act (fun d => d.pinEdge pin level ns)

/-- The caught edges are delivered on the first tick at which D0, D4 and the Slate run, with P1 powered (Table EVC-5). -/
def execLatchedEdgeDelivery (s : State) : Out :=
  s.act (fun d =>
    if d.gaf.d0Stop || d.gaf.d4Stop || !d.p1On then d else
    d.sup.latch.foldl (fun d s => (d.hwPend s).evcLog 0x05 .info [s, 0, 0, 0, 0]) (d.setSup { d.sup with latch := [] }))

/-! ## Claims (R342) -/

/-- The target a source is routed to. -/
def Dev.targetOf (d : Dev) (s : Nat) : Nat := let t := d.rf (EVC_SRCs_CFG_TARGET s); if t ≤ 4 then t else 0

/-- The lowest-numbered enabled pending source of a target. -/
def Dev.candidate (d : Dev) (t : Nat) : Option Nat :=
  (List.range 256).find? (fun s => d.pendOf s && pendable s && d.bit (EVC_SRCs_CFG_EN s) && d.targetOf s == t &&
    decide (SMap.at 0 d.sup.compete s ≤ d.slate))

/-- What a claim of target `t` returns now. -/
def Dev.claimShow (d : Dev) (t : Nat) : Option Nat :=
  match d.activeOf t with
  | some s => some s
  | none => d.candidate t

/-- The word of EVC_CLAIMt. -/
def claimWord : Option Nat → Word
  | some s => fieldSet 31 1 1 (fieldSet 0 8 s 0)
  | none => 0

/-- A claim of target `t`. -/
def Dev.claim (d : Dev) (t : Nat) : Dev :=
  match d.activeOf t, d.candidate t with
  | none, some s => (d.setSup { d.sup with active := SMap.set none d.sup.active t (some s) }).unpend s
  | _, _ => d

/-- A read of EVC_CLAIMt. -/
def Dev.claimRead (d : Dev) (t : Nat) : Dev := { d.claim t with resp := .data (claimWord (d.claimShow t)) }

/-- Host tile of a fabric target site (Table EVC-3). -/
def Dev.siteDead (d : Dev) (t : Nat) : Bool := (d.tileDead ((t - 1) / 2) (if t % 2 = 1 then 61 else 62) 0).isSome

/-- A claim by a read of EVC_CLAIMt, or by a pulse of CLAIM on the target's site. -/
def execEventClaim (t : Fin 5) (by_ : EvcBy) (s : State) : Out :=
  match by_ with
  | .bus _ => s.busWrite (EVC_CLAIMt t) (fun d => d.claimRead t)
  | .site => s.act (fun d => if t.val = 0 || d.siteDead t then d else d.claim t)

/-! ## Completions (R344) -/

/-- A completion fault: EVC_FAULT where it holds none, source 0 and EVC 0x02. -/
def Dev.completeFault (d : Dev) (t s : Nat) : Dev :=
  let a := d.activeOf t
  let d := if d.bit EVC_FAULT_VALID then d else
    ((((d.wf EVC_FAULT_NAMED s).wf EVC_FAULT_ACTIVE (a.getD 0)).wf EVC_FAULT_TARGET t).wb EVC_FAULT_NONE a.isNone).on EVC_FAULT_VALID
  (d.nmi 0).evcLog 0x02 .error [t, a.getD 0, s, 0, 0]

/-- An active source leaves active: a level still high is pending again, and a pending source competes from the next
tick. -/
def Dev.leaveActive (d : Dev) (t s : Nat) : Dev :=
  let d := d.setSup { d.sup with active := SMap.set none d.sup.active t none }
  let d := if d.bit (EVC_SRCs_CFG_EN s) && d.rf (EVC_SRCs_CFG_SENSE s) == 0 && SMap.at false d.sup.level s then d.hwPend s else d
  if d.pendOf s then d.setSup { d.sup with compete := SMap.set 0 d.sup.compete s (d.slate + 1) } else d

/-- A completion of source `s` for target `t`. -/
def Dev.complete (d : Dev) (t s : Nat) : Dev :=
  if d.activeOf t = some s then d.leaveActive t s else d.completeFault t s

def execEventComplete (t : Fin 5) (src : Byte) (by_ : EvcBy) (s : State) : Out :=
  match by_ with
  | .bus _ => s.busWrite (EVC_COMPLETEt t) (fun d => d.complete t src.toNat)
  | .site => s.act (fun d => if t.val = 0 || d.siteDead t then d else d.complete t src.toNat)

/-! ## Registers (R339, R345) -/

/-- The sources whose bit is set in a word of PENDk or SETPENDk. -/
def pendBits (k : Nat) (v : Word) : List Nat :=
  ((List.range 32).filter (fun i => v.getLsbD i)).map (fun i => 32 * k + i) |>.filter pendable

/-- A write of EVC_SETPENDk. -/
def Dev.setPendWrite (d : Dev) (k : Nat) (v : Word) : Dev := (pendBits k v).foldl Dev.swPendSet d

/-- A write of EVC_PENDk: a set of the same tick wins (R35). -/
def Dev.pendWrite (d : Dev) (k : Nat) (v : Word) : Dev :=
  (pendBits k v).foldl (fun d s => if d.sup.setNow.contains s then d else d.unpend s) d

def execEventSetPending (_rq : Requester) (k : Fin 8) (v : Word) (s : State) : Out :=
  s.busWrite (EVC_SETPENDk k) (fun d => d.setPendWrite k v)

def execEventClearPending (_rq : Requester) (k : Fin 8) (v : Word) (s : State) : Out :=
  s.busWrite (EVC_PENDk k) (fun d => d.pendWrite k v)

/-- A write of EVC_SRCs_CFG: EN of sources 0 to 7 stays zero, and a level input is looked at again. -/
def Dev.srcCfgWrite (d : Dev) (s : Nat) (v : Word) : Dev :=
  let d := d.plainWrite (EVC_SRCs_CFG s) (if s < 8 then fieldSet 0 1 0 v else v)
  if d.rf (EVC_SRCs_CFG_SENSE s) = 0 then d.sampleSource s (SMap.at false d.sup.level s) else d

/-- REQ and SRC of each target are updated in the TICK cycle (R342); an isolated site's REQ is zero (Table EVC-5). -/
def Dev.evcTick (d : Dev) : Dev :=
  let d := d.setSup { d.sup with setNow := [] }
  (List.range 5).foldl (fun d t =>
    let now := if t ≠ 0 ∧ d.siteDead t then none else if (d.activeOf t).isSome then none else d.candidate t
    if SMap.at none d.sup.req t = now then d
    else (d.setSup { d.sup with req := SMap.set none d.sup.req t now }).out (.evtReq t now)) d

/-- P1 enters DOWN: an active source of target 0 leaves active (R417). -/
def Dev.evcP1Down (d : Dev) : Dev :=
  match d.activeOf 0 with
  | some s => d.leaveActive 0 s
  | none => d

/-- The sources of an engine group that goes off are not pending (Table GAF-4). -/
def Dev.evcGroupOff (d : Dev) (g : Nat) : Dev :=
  (List.range 16).foldl (fun d i =>
    [64, 128].foldl (fun d b =>
      let s := b + 16 * g + i
      (d.setSup { d.sup with level := SMap.set false d.sup.level s false }).unpend s) d) d

/-- A reset of the EVC (Table RST-5). -/
def Dev.evcReset (d : Dev) : Dev :=
  let d := d.resetRange 0x02000000 0x0200FFFF
  d.setSup { d.sup with level := [], swPend := [], active := [], compete := [], req := [], setNow := [], latch := [] }

end Sys2Proof.Machine
end

