-- ==== Sys2Proof/Machine/Supervisor.lean ====
section
/-! DEFINITION. The supervisor core's traps and vectors, the watchdog, the two-wire controller port, GPIO and the monitor's
UART (15_supervisor_and_events, 16_debug_and_monitor). -/
namespace Sys2Proof.Machine
open Reg

def Dev.setCore (d : Dev) (c : Core) : Dev := d.setSup { d.sup with core := c }
def Dev.monLog (d : Dev) (code : Nat) (sev : Sev) (det : List Nat) : Dev := d.log 0x12 code sev det

/-- Core states (DBG_CORE_STAT). -/
def cRUN : Nat := 0
def cHALTING : Nat := 1
def cHALTED : Nat := 2
def cSTOPPED : Nat := 3

/-- Does the core execute: powered, clocked, neither halted, stopped nor waiting for an event? -/
def Dev.coreRuns (d : Dev) : Bool :=
  d.p1On && !d.gaf.d4Stop && (d.sup.core.state == cRUN || d.sup.core.state == cHALTING) && d.sup.core.sleep == 0 &&
  !d.sup.core.emuSleep

/-! ## Traps and vectors (R337, R343, R346) -/

def causeCode : TrapCause → Nat
  | .fetchErr => 1 | .fetchPoison => 2 | .loadErr => 3 | .illegal => 4 | .align => 5

/-- The address a vector register holds. -/
def Dev.vector (d : Dev) (f : RF) : Word := BitVec.ofNat 32 (4 * d.rf f)

/-- The core traps; with EVC_TRAP.VALID set it is a double trap, and the core stops. -/
def Dev.coreTrap (d : Dev) (cause : TrapCause) (addr : Word) : Dev :=
  let c := causeCode cause
  if d.bit EVC_TRAP_VALID then
    (((d.on EVC_TRAP_DBL).setCore { d.sup.core with state := cSTOPPED })).evcLog 0x03 .fatal (c :: wordDetail addr)
  else
    let d := ((d.wf EVC_TRAP_CAUSE c).on EVC_TRAP_VALID).wr EVC_TRAP_ADDR addr
    (d.setCore { d.sup.core with pc := d.vector EVC_VEC_TRAP_ADDR }).evcLog 0x01 .error (c :: wordDetail addr)

def execCoreTrap (cause : TrapCause) (addr : Word) (s : State) : Out :=
  s.act (fun d => if d.coreRuns then d.coreTrap cause addr else d)

/-- The core enters EVC_VEC_EVT. `enabled`: its event-enable state. -/
def execEventVectorEntry (enabled : Bool) (s : State) : Out :=
  s.act (fun d =>
    if !d.coreRuns then d else
    let d := d.setCore { d.sup.core with evtEn := enabled }
    if enabled && (d.activeOf 0).isNone && (d.candidate 0).isSome then
      d.setCore { d.sup.core with pc := d.vector EVC_VEC_EVT_ADDR }
    else d)

/-- The core enters EVC_VEC_NMI. `returned`: it has returned from an earlier non-maskable handler. -/
def execNmiEntry (returned : Bool) (s : State) : Out :=
  s.act (fun d =>
    if !d.coreRuns then d else
    let c := d.sup.core
    let inNmi := c.inNmi && !returned
    if d.rf EVC_NMI_NMI ≠ 0 ∧ !inNmi then d.setCore { c with inNmi := true, pc := d.vector EVC_VEC_NMI_ADDR }
    else d.setCore { c with inNmi := inNmi })

/-! ## Watchdog (R347, R348) -/

def Dev.wdgLog (d : Dev) (code : Nat) (sev : Sev) (det : List Nat) : Dev := d.log 0x11 code sev det

/-- The count reloads from LOAD; 0 acts as 1. -/
def Dev.wdgReload (d : Dev) : Dev :=
  (d.setSup { d.sup with wdgAcc := 0, wdgWarned := false }).wr WDG_COUNT (if d.rd WDG_LOAD = 0 then 1 else d.rd WDG_LOAD)

/-- A write of WDG_SVC. -/
def Dev.wdgSvcWrite (d : Dev) (v : Word) : Dev :=
  if v = 0x0000A5C3 then (if d.bit WDG_CTL_EN then d.wdgReload else d)
  else d.wdgLog 0x03 .warn [0x0C, 0, 0, 0, 0]

/-- A write of WDG_CTL, WDG_LOAD or WDG_WARN; with LOCK set it is refused. -/
def Dev.wdgLocked (d : Dev) (a : Nat) (f : Dev → Dev) : Dev :=
  if d.bit WDG_CTL_LOCK then d.wdgLog 0x03 .warn [a - WDG_CTL, 1, 0, 0, 0] else f d

/-- Is the count frozen: the core halted by the debugger, with RUN_ON_HALT clear? -/
def Dev.wdgHeld (d : Dev) : Bool := d.sup.core.state == cHALTED && !d.bit WDG_CTL_RUN_ON_HALT

def Dev.wdgCtlWrite (d : Dev) (v : Word) : Dev :=
  d.wdgLocked WDG_CTL (fun d =>
    let was := d.bit WDG_CTL_EN
    let d := d.plainWrite WDG_CTL v
    let d := if !was && d.bit WDG_CTL_EN then d.wdgReload else d
    d.setSup { d.sup with wdgFrozen := d.bit WDG_CTL_EN && d.wdgHeld })

def execWatchdogService (_rq : Requester) (v : Word) (s : State) : Out := s.busWrite WDG_SVC (fun d => d.wdgSvcWrite v)
def execWatchdogEnable (_rq : Requester) (v : Word) (s : State) : Out := s.busWrite WDG_CTL (fun d => d.wdgCtlWrite (v ||| 1))
def execWatchdogLock (_rq : Requester) (v : Word) (s : State) : Out := s.busWrite WDG_CTL (fun d => d.wdgCtlWrite (v ||| 4))

/-- Has the count come to WARN with no warning raised since the last reload? -/
def Dev.wdgDue (d : Dev) : Bool :=
  d.bit WDG_CTL_EN && d.rd WDG_WARN != 0 && decide (d.rf WDG_COUNT_COUNT ≤ d.rf WDG_WARN_WARN) && !d.sup.wdgWarned

/-- The warning (R347). -/
def Dev.wdgWarn (d : Dev) : Dev :=
  ((d.setSup { d.sup with wdgWarned := true }).nmi 2).wdgLog 0x01 .warn [0, 0, 0, 0, 0]

def execWatchdogWarning (s : State) : Out :=
  s.act (fun d => if d.p1On && !d.wdgHeld && d.wdgDue then d.wdgWarn else d)

/-- One Slate tick of the count: 25/6,144 of a microsecond at D0's nominal rate. -/
def Dev.wdgTick (d : Dev) : Dev :=
  if !d.p1On || !d.bit WDG_CTL_EN || d.wdgHeld || d.gaf.d0Stop then d else
  let a := d.sup.wdgAcc + 25
  if a < 6144 then d.setSup { d.sup with wdgAcc := a }
  else (d.setSup { d.sup with wdgAcc := a - 6144 }).wr WDG_COUNT (BitVec.ofNat 32 (d.rf WDG_COUNT_COUNT - 1))

/-- A debug halt begins: the count freezes. -/
def Dev.wdgHalt (d : Dev) : Dev := d.setSup { d.sup with wdgFrozen := d.bit WDG_CTL_EN && d.wdgHeld }

/-- A debug halt ends (R348). -/
def Dev.wdgRelease (d : Dev) : Dev :=
  if !d.sup.wdgFrozen then d else
  let n := d.rf WDG_COUNT_COUNT
  let d := d.setSup { d.sup with wdgFrozen := false }
  let d := if n < 1000 then
      ((d.setSup { d.sup with wdgAcc := 0 }).wr WDG_COUNT 1000).wdgLog 0x04 .note [n, n / 256, 0, 0, 0]
    else d
  if d.wdgDue then d.wdgWarn else d

/-! ## The two-wire controller port (R351) -/

def Dev.twiLog (d : Dev) (code : Nat) (sev : Sev) (det : List Nat) : Dev := d.log 0x13 code sev det

/-- The bytes of TWI_MDATA. -/
def Dev.twiData (d : Dev) : List Byte := leBytes 4 (d.rd TWI_MDATA_LO).toNat ++ leBytes 4 (d.rd TWI_MDATA_HI).toNat

/-- A write of TWI_MCTL; GO while a transfer runs is ignored. -/
def Dev.twiMctlWrite (d : Dev) (v : Word) : Dev :=
  let d := d.plainWrite TWI_MCTL v
  if !v.getLsbD 0 || d.bit TWI_MCTL_BUSY then d else
  let w := d.rf TWI_MCTL_WLEN
  let r := d.rf TWI_MCTL_RLEN
  if 8 < w ∨ 8 < r then d.wf TWI_MCTL_STATUS stLENGTH
  else if w = 0 ∧ r = 0 then d.wf TWI_MCTL_STATUS stDONE
  else (d.on TWI_MCTL_BUSY).out (.twiSensor (d.rf TWI_MCTL_ADDR) (d.rf TWI_MCTL_SPEED % 3) (d.twiData.take w) r)

def execTwiControllerGo (_rq : Requester) (v : Word) (s : State) : Out := s.busWrite TWI_MCTL (fun d => d.twiMctlWrite (v ||| 1))

/-- The controller transfer ends. -/
def Dev.twiEnd (d : Dev) (e : TwcEnd) : Dev :=
  let fail := fun (d : Dev) (c : Nat) => (d.wf TWI_MCTL_STATUS stACCESS).twiLog 0x04 .warn [d.rf TWI_MCTL_ADDR, c, 0, 0, 0]
  let d := d.off TWI_MCTL_BUSY
  match e with
  | .acked l =>
    let r := d.rf TWI_MCTL_RLEN
    let b := bytesAt l 0 r ++ d.twiData.drop r
    ((d.wr TWI_MDATA_LO (BitVec.ofNat 32 (leNat (b.take 4)))).wr TWI_MDATA_HI (BitVec.ofNat 32 (leNat (b.drop 4)))).wf TWI_MCTL_STATUS stDONE
  | .noAck => fail d 0
  | .arbitration => fail d 1

def execTwiControllerEnd (e : TwcEnd) (s : State) : Out :=
  s.act (fun d => if d.bit TWI_MCTL_BUSY then d.twiEnd e else d)

/-! ## GPIO (R353) -/

def Dev.gpioLog (d : Dev) (code : Nat) (sev : Sev) (det : List Nat) : Dev := d.log 0x14 code sev det

/-- The die and column of the I/O tile of an assigned bit's pin. -/
def Dev.gpioTile (d : Dev) (g : Nat) : Nat × Nat :=
  let b := d.rf (GPIO_MAPg_BANK g)
  (if b < 6 then 0 else 1, ioColumn (6 * (b % 6) + d.rf (GPIO_MAPg_PIN g) / 8))

def Dev.gpioDomain (d : Dev) (g : Nat) : Nat := columnDomain (d.gpioTile g).1 (d.gpioTile g).2

/-- What GPIO drives on a pin: its level, or nothing, as before release (R393). -/
def Dev.gpioDrive (d : Dev) (g : Nat) : Option Bool :=
  if d.cfg.ioOn && d.bit (GPIO_MAPg_VALID g) && d.domPowered (d.gpioDomain g) && (d.rd (GPIO_OEw (g / 32))).getLsbD (g % 32) then
    some ((d.rd (GPIO_OUTw (g / 32))).getLsbD (g % 32))
  else none

/-- The pins whose drive differs from what `before` held change on this tick, unless the boundary register owns them. -/
def Dev.gpioPins (d before : Dev) (w : Nat) : Dev :=
  if d.sup.dbg.pins then d else
  (List.range 32).foldl (fun d i =>
    let g := 32 * w + i
    if before.gpioDrive g = d.gpioDrive g then d else d.out (.gpioPin g (d.gpioDrive g))) d

/-- The pins of both words follow a change of what GPIO drives. -/
def Dev.gpioFollow (d before : Dev) : Dev := (d.gpioPins before 0).gpioPins before 1

/-- A write of GPIO_OUTw or GPIO_OEw: bits with no pin are kept, and a change of one is logged. -/
def Dev.gpioWrite (d : Dev) (oe : Bool) (w : Nat) (v : Word) : Dev :=
  let a := if oe then GPIO_OEw w else GPIO_OUTw w
  let old := d.rd a
  let un := (List.range 32).filter (fun i => !d.bit (GPIO_MAPg_VALID (32 * w + i)) && v.getLsbD i != old.getLsbD i)
  let new := un.foldl (fun x i => fieldSet i 1 (old.getLsbD i).toNat x) v
  (un.foldl (fun d i => d.gpioLog 0x01 .warn [32 * w + i, 0, 0, 0, 0]) (d.wr a new)).gpioPins d w

def execGpioWrite (_rq : Requester) (oe : Bool) (w : Fin 2) (v : Word) (s : State) : Out :=
  s.busWrite (if oe then GPIO_OEw w else GPIO_OUTw w) (fun d => d.gpioWrite oe w v)

/-- The sampled level of a bit. -/
def Dev.gpioSample (d : Dev) (g : Nat) (level : Bool) : Dev :=
  let f : RF := ⟨GPIO_INw (g / 32), g % 32, 1⟩
  if d.bit f = level then d else (d.wb f level).on ⟨GPIO_EDGEw (g / 32), g % 32, 1⟩

def execGpioInputChange (bit : Fin 64) (level : Bool) (s : State) : Out :=
  s.act (fun d =>
    if d.clocked (GPIO_INw 0) && d.bit (GPIO_MAPg_VALID bit) && d.domPowered (d.gpioDomain bit) then d.gpioSample bit level else d)

/-- A fabric domain goes off: its GPIO pins float and read zero. -/
def Dev.gpioOff (d : Dev) (p : Nat) : Dev :=
  (List.range 64).foldl (fun d g =>
    if d.bit (GPIO_MAPg_VALID g) && d.gpioDomain g == p then
      let t := d.gpioTile g
      let r := ((List.range 64).find? (fun r => d.regionHoldsIo r t.1 t.2)).getD 0
      ((d.out (.gpioPin g none)).gpioSample g false).gpioLog 0x02 .note [g, r, 0, 0, 0]
    else d) d

/-! ## The UART (R367, R368) -/

def Dev.setUart (d : Dev) (u : Uart) : Dev := d.setSup { d.sup with uart := u }

/-- MON_STAT shows the FIFOs. -/
def Dev.uartShow (d : Dev) : Dev :=
  (d.wf MON_STAT_RX_COUNT d.sup.uart.rx.length).wf MON_STAT_TX_FREE (64 - d.sup.uart.tx.length)

/-- Is the UART running: powered, clocked and enabled? -/
def Dev.uartUp (d : Dev) : Bool := d.p1On && d.clocked MON_CFG && d.bit MON_CFG_EN && !d.gaf.d0Stop

/-- Can Tamop act: the UART and the core run? -/
def Dev.tamopUp (d : Dev) : Bool := d.uartUp && d.coreRuns

/-- The baud rate of a code. -/
def baudOf (c : Nat) : Nat := [115200, 230400, 460800, 921600, 1500000, 2000000, 3000000].getD c 115200

/-- Tamop discards the line in progress and answers "er 06". -/
def Dev.lineSpoiled (d : Dev) : Dev :=
  if d.tamopUp then (d.setUart { d.sup.uart with line := [] }).out (.tamop [] 6 0) else d

/-- A byte on MON_RX. `taken`: bytes that Tamop has taken from the FIFO since the last byte. -/
def Dev.uartRx (d : Dev) (b : Byte) (framing : Bool) (taken : Nat) : Dev :=
  let u := d.sup.uart
  let u := if d.tamopUp then { u with rx := u.rx.drop taken } else u
  let d := d.setUart u
  if framing then ((d.on MON_STAT_FERR).uartShow.monLog 0x05 .note [0, 0, 0, 0, 0]).lineSpoiled
  else if 64 ≤ u.rx.length then ((d.on MON_STAT_OVR).uartShow.monLog 0x05 .note [1, 0, 0, 0, 0]).lineSpoiled
  else
    let u := { u with rx := u.rx ++ [b] }
    let u := if b = 13 ∨ b = 10 then { u with line := [] }
      else if u.line.isEmpty then { u with line := [b], lineAt := d.slate } else { u with line := u.line ++ [b] }
    (d.setUart u).uartShow

def execUartRxByte (b : Byte) (framing : Bool) (taken : BitVec 7) (s : State) : Out :=
  s.act (fun d => if d.uartUp then d.uartRx b framing taken.toNat else d)

/-- MON_RX has been low for `bits` bit times. -/
def execUartBreak (bits : Nat) (s : State) : Out :=
  s.act (fun d =>
    if !d.uartUp || decide (bits < 10) then d else
    let u := d.sup.uart
    let d := d.on MON_STAT_BRK
    let d := if u.baudSet then d.wf MON_CFG_BAUD 0 else d
    d.setUart { u with line := [], baudSet := false })

/-- A write of MON_DATA. -/
def Dev.monDataWrite (d : Dev) (v : Word) : Dev :=
  let u := d.sup.uart
  if 64 ≤ u.tx.length then d else (d.setUart { u with tx := u.tx ++ [v.setWidth 8] }).uartShow

def execMonDataWrite (_rq : Requester) (v : Word) (s : State) : Out := s.busWrite MON_DATA (fun d => d.monDataWrite v)

/-- What MON_DATA shows: the oldest received byte. -/
def Dev.monDataWord (d : Dev) : Word :=
  match d.sup.uart.rx with
  | b :: _ => fieldSet 8 1 1 (b.setWidth 32)
  | [] => 0

/-- A read of MON_DATA removes the byte. -/
def Dev.monDataRead (d : Dev) : Dev :=
  let w := d.monDataWord
  { (d.setUart { d.sup.uart with rx := d.sup.uart.rx.drop 1 }).uartShow with resp := .data w }

/-- One Slate tick of the transmitter: a byte takes ten bit times. -/
def Dev.uartTick (d : Dev) : Dev :=
  if !d.uartUp then d else
  match d.sup.uart.tx with
  | [] => d
  | b :: rest =>
    let u := d.sup.uart
    let a := u.txAcc + baudOf (d.rf MON_CFG_BAUD)
    if a < 10 * ticksPerSec then d.setUart { u with txAcc := a }
    else ((d.setUart { u with tx := rest, txAcc := if rest.isEmpty then 0 else a - 10 * ticksPerSec }).out (.monTx b)).uartShow

/-- A line is incomplete 30 s after its first character. -/
def execTamopLineTimeout (s : State) : Out :=
  s.act (fun d =>
    let u := d.sup.uart
    if !d.tamopUp || u.line.isEmpty || !elapsed (d.slate - u.lineAt) 30000000000 then d
    else (d.setUart { u with line := [] }).monLog 0x07 .note [u.line.length, 0, 0, 0, 0])

end Sys2Proof.Machine
end

