-- ==== Sys2Proof/Machine/Load.lean ====
section
/-! DEFINITION. Keys and the loader (13_configuration_store_and_loading): key writing and erasure, the start and the
endings of a full load, its sources, and the reading of the headers, sections and trailers of loads and Splices. -/
namespace Sys2Proof.Machine
open Reg

/-- Loader states (CFG_STAT). -/
def gIDLE : Nat := 0
def gHEADER : Nat := 1
def gBODY : Nat := 2
def gMARCH : Nat := 3
def gVERIFY : Nat := 4
def gDONE : Nat := 5
def gFAILED : Nat := 6
def gCLEARING : Nat := 7

def Dev.cfgState (d : Dev) : Nat := d.rf CFG_STAT_STATE
def Dev.cfgLog (d : Dev) (code : Nat) (sev : Sev) (det : List Nat) : Dev := d.log 0x03 code sev det

def Dev.setLoad (d : Dev) (im : Option Image) : Dev := d.setCfg { d.cfg with load := im }

/-! ## Keys (R299 to R301) -/

/-- CFG_KEY_STAT and CFG_KEY_CHK follow the keys. -/
def Dev.keyShow (d : Dev) : Dev :=
  let d := (d.wb CFG_KEY_STAT_FUSE_PRESENT d.cfg.fuseKey.isSome).wb CFG_KEY_STAT_STORE_PRESENT d.cfg.storeKey.isSome
  let k := if d.bit CFG_KEY_STAT_OPTION then d.cfg.storeKey else d.cfg.fuseKey
  d.wr CFG_KEY_CHK (match k with
    | some k => BitVec.ofNat 32 (leNat ((beBytes 16 (Config.aes256 k 0).toNat).take 4))
    | none => 0)

/-- The eight data words as a key, byte 0 first. -/
def Dev.keyWords (d : Dev) : BitVec 256 :=
  BitVec.ofNat 256 (beNat ((List.range 8).flatMap (fun k => leBytes 4 (SMap.at 0 d.cfg.keyData k).toNat)))

/-- A write of CFG_KEY_DATAk: the word is held and reads zero. -/
def Dev.keyDataWrite (d : Dev) (k : Nat) (v : Word) : Dev :=
  d.setCfg { d.cfg with keyData := SMap.set 0 d.cfg.keyData k v, keyMask := d.cfg.keyMask ||| 2 ^ k }

/-- What refuses a key write: the cause of CFG 0x09. -/
def Dev.keyBar (d : Dev) : Option Nat :=
  if d.cfg.keyMask ≠ 255 then some 0
  else if d.bit CFG_KEY_CTL_FUSE == d.bit CFG_KEY_STAT_OPTION then some 1
  else if d.bit CFG_KEY_CTL_FUSE && (d.cfg.fuseKey.isSome || d.cfg.blowing.isSome) then some 2
  else if d.cfg.load.isSome then some 3
  else none

/-- WRITE: the store takes the key, or the fuses are blown; the data words are cleared either way (R300). An erasure of the
same tick wins (R312). -/
def Dev.keyWrite (d : Dev) : Dev :=
  let k := d.keyWords
  let bar := d.keyBar
  let d := d.setCfg { d.cfg with keyData := [], keyMask := 0 }
  match bar with
  | some c => d.cfgLog 0x09 .warn [c, 0, 0, 0, 0]
  | none =>
    if d.bit CFG_KEY_CTL_FUSE then d.setCfg { d.cfg with blowing := some (d.slate, k) }
    else if fieldGet CFG_KEY_STAT_ERASED.lo 1 (d.setNow CFG_KEY_STAT) = 1 then d
    else (d.setCfg { d.cfg with storeKey := some k }).keyShow.cfgLog 0x06 .info [2, 0, 0, 0, 0]

/-- The record of an erasure and its marks: at once with P0 powered, else when it is next powered (R301). -/
def Dev.keyRecord (d : Dev) (cause : Nat) : Dev :=
  if d.gaf.good then
    let d := (d.on CFG_KEY_STAT_ERASED)
    let d := if cause = 0 then d.on CFG_KEY_STAT_TAMPER else d
    d.keyShow.cfgLog 0x07 .error [cause, 0, 0, 0, 0]
  else d.setCfg { d.cfg with keyRecs := d.cfg.keyRecs ++ [cause] }

/-- The key store is erased (R301): a load or Splice that uses slot 2 has lost its key (R312, R333). -/
def Dev.keyErase (d : Dev) (cause : Nat) : Dev :=
  if !d.bit CFG_KEY_STAT_OPTION then d else
  let lose := fun (im : Image) =>
    match im.header with
    | some h => if hdrKey h = 2 then { im with keyLost := true } else im
    | none => im
  let d := d.setCfg { d.cfg with storeKey := none, keyErased := true, keyTamper := d.cfg.keyTamper || cause == 0,
                                 load := d.cfg.load.map lose, splice := d.cfg.splice.map lose }
  d.keyRecord cause

/-- What the key store recorded with P0 off is logged at its power-up (R301). -/
def Dev.keyPowerUp (d : Dev) : Dev :=
  let rs := d.cfg.keyRecs
  let d := (d.wb CFG_KEY_STAT_ERASED d.cfg.keyErased).wb CFG_KEY_STAT_TAMPER d.cfg.keyTamper
  rs.foldl (fun d c => d.keyRecord c) (d.setCfg { d.cfg with keyRecs := [] }) |>.keyShow

/-- A write of CFG_KEY_CTL. -/
def Dev.cfgKeyWrite (d : Dev) (v : Word) : Dev :=
  let d := d.plainWrite CFG_KEY_CTL v
  let d := if v.getLsbD 0 then d.keyWrite else d
  if v.getLsbD 1 then d.keyErase 2 else d

def execKeyWrite (_rq : Requester) (v : Word) (s : State) : Out :=
  s.busWrite CFG_KEY_CTL (fun d => d.cfgKeyWrite (v ||| 1))

def execKeyErase (_rq : Requester) (v : Word) (s : State) : Out :=
  s.busWrite CFG_KEY_CTL (fun d => d.cfgKeyWrite (v ||| 2))

/-- TAMPER_N has been low for `lowNs`. -/
def execTamper (lowNs : Nat) (s : State) : Out := s.apply (fun d => if 100 ≤ lowNs then d.keyErase 0 else d)

/-- VBAT has been below 1.80 V for `lowNs` (R407). -/
def execVbatLoss (lowNs : Nat) (s : State) : Out := s.apply (fun d => if 10000 ≤ lowNs then d.keyErase 1 else d)

/-- The fuse key is blown 20 ms after its WRITE (R300). -/
def execFuseKeyBlown (s : State) : Out :=
  s.act (fun d =>
    match d.cfg.blowing with
    | some (t, k) =>
      if elapsed (d.slate - t) 20000000 then
        (d.setCfg { d.cfg with fuseKey := some k, blowing := none }).keyShow.cfgLog 0x06 .info [1, 0, 0, 0, 0]
      else d
    | none => d)

/-! ## The start of a full load (R302, R305) -/

/-- Byte offset that an ABORT or a TIMEOUT records: the bytes received so far. -/
def Image.reached (im : Image) (splice : Bool) : Nat := if im.stored splice then im.pos else im.got.length

/-- The engine groups are isolated and running operations end with ABORT (R305). -/
def Dev.groupsHeld (d : Dev) : Dev :=
  let d := (List.range 64).foldl (fun d n => if d.seState n = seRUN then d.seAbort n else d) d
  d.setCfg { d.cfg with groupHeld := [(0, true), (1, true), (2, true), (3, true)] }

/-- A full load begins; user I/O is disabled, and the GPIO pins float with it. -/
def Dev.loadBegin (d : Dev) (src slot port : Nat) : Dev :=
  let was := d
  let d := match d.cfg.splice with
    | some im => d.spliceEnd stABORT (im.reached true) true
    | none => d
  let d := (d.definedRegions.foldl Dev.isolateRegion d).groupsHeld
  let d := d.setCfg { d.cfg with load := some (Image.start src slot port (slot * 0x0A000000) 0 d.slate),
                                 doneHigh := false, errHigh := false, ioOn := false }
  let d := ((d.wf CFG_STAT_STATE gHEADER).wf CFG_STAT_SPACE bufWords).off CFG_IMG_SRC_VALID
  let d := (d.gpioFollow was).cfgLog 0x08 .info [src, slot, 0, 0, 0]
  if src = 2 then d.meshSend port true 0x3FF (d.rf MSH_STAT_NUM) (.loadReq slot) else d

/-- Is a full load in progress, a START that waits for CLEARING included? -/
def Dev.loadBusy (d : Dev) : Bool := d.cfg.load.isSome || d.cfg.loadWait.isSome

/-- START. -/
def Dev.loadStart (d : Dev) (src slot port : Nat) : Dev :=
  if d.loadBusy then d.cfgLog 0x02 .error [src, stFULL, 0, 0, 0]
  else if d.cfgState = gCLEARING then d.setCfg { d.cfg with loadWait := some (src, slot, port) }
  else d.loadBegin src slot port

/-! ## A load that fails (R309) -/

def Dev.loadFail (d : Dev) (st ofs : Nat) : Dev :=
  match d.cfg.load with
  | none => d
  | some im =>
    let d := d.setCfg { d.cfg with load := none, errHigh := true,
                                   loadClear := { frames := im.wrote, mems := im.mems, regions := [] } }
    let d := { d with csh := { d.csh with loadHeld := [] } }
    let d := (d.definedRegions.foldl Dev.unloadRegion d).nvsUnhold 0
    let d := (((d.wf CFG_STAT_STATE gCLEARING).wf CFG_STAT_STATUS st).on CFG_STAT_FAIL).wf CFG_STAT_SPACE bufWords
    let d := ((d.wf CFG_FAIL_STATUS st).wf CFG_FAIL_SRC im.src).wf CFG_FAIL_OFFSET (ofs / 16)
    let o := ofs / 16
    d.cfgLog 0x02 .error [im.src, st, o, o / 2 ^ 8, o / 2 ^ 16]

/-- CLEARING ends: what the load wrote is zero; a waiting START begins. -/
def execLoadClearingDone (s : State) : Out :=
  s.act (fun d =>
    if d.cfgState ≠ gCLEARING then d else
    let c := d.cfg.loadClear
    let d := d.setCfg { d.cfg with active := SMap.clear c.frames.contains d.cfg.active, loadClear := Clearing.none }
    let d := (c.mems.foldl Dev.memoryZero d).wf CFG_STAT_STATE gFAILED
    match d.cfg.loadWait with
    | some (src, slot, port) => (d.setCfg { d.cfg with loadWait := none }).loadBegin src slot port
    | none => d)

/-- ABORT. -/
def Dev.loadAbort (d : Dev) : Dev :=
  match d.cfg.load with
  | some im => d.loadFail stABORT (im.reached false)
  | none => d

/-- END of the supervisor stream. -/
def Dev.streamEnd (d : Dev) : Dev :=
  match d.cfg.load with
  | none => d
  | some im =>
    if im.src ≠ 3 then d
    else if im.got.length < 256 ∨ im.got.length < hdrLength im.got then d.loadFail stLENGTH im.got.length
    else d

/-- A write of CFG_CTL. -/
def Dev.cfgCtlWrite (d : Dev) (v : Word) : Dev :=
  let d := d.plainWrite CFG_CTL v
  let d := if v.getLsbD 0 then d.loadStart (d.rf CFG_CTL_SRC) (d.rf CFG_CTL_SLOT) (d.rf CFG_CTL_PORT) else d
  let d := if v.getLsbD 1 then d.loadAbort else d
  if v.getLsbD 2 then d.streamEnd else d

def execLoadStart (_rq : Requester) (v : Word) (s : State) : Out := s.busWrite CFG_CTL (fun d => d.cfgCtlWrite (v ||| 1))
def execLoadAbort (_rq : Requester) (v : Word) (s : State) : Out := s.busWrite CFG_CTL (fun d => d.cfgCtlWrite (v ||| 2))
def execStreamEnd (_rq : Requester) (v : Word) (s : State) : Out := s.busWrite CFG_CTL (fun d => d.cfgCtlWrite (v ||| 4))

/-! ## Sources (R303, R304, R310, R311) -/

/-- Bytes taken from the load's stream; the idle timeout runs again. -/
def Dev.loadTake (d : Dev) (im : Image) (b : List Byte) : Dev :=
  d.setLoad (some { im with got := im.got ++ b, idle := d.slate })

/-- A write of CFG_DATA. `drained`: the words the loader has taken from the buffer since the last write. -/
def Dev.cfgDataWrite (d : Dev) (v : Word) (drained : Nat) : Dev :=
  match d.cfg.load with
  | some im =>
    if im.src ≠ 3 then d else
    match bufferTake (d.rf CFG_STAT_SPACE) drained with
    | none => (d.loadFail stFORMAT im.got.length).err
    | some sp =>
      let d := d.wf CFG_STAT_SPACE sp
      if im.whole then d.loadFail stFORMAT im.got.length else d.loadTake im (leBytes 4 v.toNat)
  | none => d

def execCfgDataWrite (_rq : Requester) (v : Word) (drained : BitVec 15) (s : State) : Out :=
  s.busWrite CFG_DATA (fun d => d.cfgDataWrite v drained.toNat)

/-- Load-port words with no load from the load port in progress (R313). -/
def Dev.strayWords (d : Dev) (n : Nat) : Dev :=
  let d := d.incBy CFG_PORT_CNT_COUNT n
  if (match d.cfg.strayAt with | some t => decide (d.slate < t + ticksPerSec) | none => false) then d
  else
    let c := d.rf CFG_PORT_CNT_COUNT
    (d.setCfg { d.cfg with strayAt := some d.slate }).cfgLog 0x05 .note [c, c / 256, 0, 0, 0]

/-- Does the loader hold the load port, with LD_WAIT_N low: the start-up march runs (R306, R310)? -/
def Dev.loadPortHeld (d : Dev) : Bool := d.cfgState == gMARCH

/-- A packet of the load port (R310, R311): its header word, and its payload words, each with the level of LD_WAIT_N;
a word that arrives with it low is not taken. -/
def Dev.loadPacket (d : Dev) (hdr : Word) (words : List (Word × Bool)) : Dev :=
  match (match d.cfg.load with | some im => if im.src = 1 then some im else none | none => none) with
  | none => d.strayWords (1 + words.length)
  | some im =>
    if d.loadPortHeld then d
    else if fieldGet 24 8 hdr ≠ 0xB7 then d.loadFail stFORMAT im.got.length
    else
      let tgt := fieldGet 14 10 hdr
      let n := if fieldGet 0 14 hdr = 0 then 16384 else fieldGet 0 14 hdr
      let pay := ((words.take n).filter (·.2)).flatMap (fun w => leBytes 4 w.1.toNat)
      match im.target with
      | some t => if tgt ≠ t ∨ im.whole then d else d.loadTake im pay
      | none =>
        if (tgt = d.rf MSH_ID_STRAP ∨ tgt = 0x3FF) ∧ leNat (bytesAt pay 0 4) = hdrMagic then
          d.loadTake { im with target := some tgt } pay
        else d

def execLoadPortPacket (hdr : Word) (words : List (Word × Bool)) (s : State) : Out :=
  s.act (fun d => if d.domainUp 2 && d.clocked CFG_CTL then d.loadPacket hdr words else d)

/-- DATA packets of VC 1 for this device from the neighbour a load has asked (R303). The spec gives a refusal no coding:
a packet without bytes stands for it. -/
def Dev.loadMeshData (d : Dev) (p : Nat) (b : List Byte) : Dev :=
  match d.cfg.load with
  | some im =>
    if im.src ≠ 2 ∨ im.port ≠ p ∨ im.whole then d
    else if b.isEmpty then d.loadFail stACCESS im.got.length
    else d.loadTake im b
  | none => d

/-- Bytes in pieces of a packet's payload, at most 256 bytes (Table MSH-1). -/
def packets : Nat → List Byte → List (List Byte)
  | 0, _ => []
  | n + 1, l => if l.isEmpty then [] else l.take 256 :: packets n (l.drop 256)

/-- A neighbour asks for a Reel slot image: served from the store while CFG_SERVE.EN is set (R303). The bytes served are
those the image's LENGTH counts; a slot that holds no such length is refused. -/
def Dev.loadServe (d : Dev) (p slot : Nat) : Dev :=
  let base := slot * 0x0A000000
  let n := leNat (d.storeBytes (base + 16) 4)
  let num := d.rf MSH_STAT_NUM
  if !d.bit CFG_SERVE_EN || !d.domainUp 2 || !d.clocked CFG_CTL || decide (n < 288) || decide (0x0A000000 < n) then
    d.meshSend p true 0x3FF num (.data d.slate [])
  else
    (packets (n / 256 + 1) (d.storeBytes base n)).foldl (fun d b => d.meshSend p true 0x3FF num (.data d.slate b)) d

def execNeighbourLoadRequest (p : Fin 16) (h : MeshHdr) (slot : Fin 4) (s : State) : Out :=
  s.act (fun d => d.meshRx p h 10 (fun d => d.loadServe p slot))

/-- 10 ms without a word of a stream (R304). -/
def execLoaderIdleTimeout (splice : Bool) (s : State) : Out :=
  s.act (fun d =>
    match (if splice then d.cfg.splice else d.cfg.load) with
    | some im =>
      if im.stored splice || im.whole || !elapsed (d.slate - im.idle) 10000000 then d
      else if splice then d.spliceEnd stTIMEOUT im.got.length true
      else d.loadFail stTIMEOUT im.got.length
    | none => d)

/-! ## Header (R294) -/

/-- The image that a full load or the Splice is reading. -/
def Dev.image (d : Dev) (splice : Bool) : Option Image := if splice then d.cfg.splice else d.cfg.load

def Dev.setImage (d : Dev) (splice : Bool) (im : Image) : Dev :=
  if splice then d.setSplice (some im) else d.setLoad (some im)

/-- A load or an accepted Splice fails. -/
def Dev.imageFail (d : Dev) (splice : Bool) (st ofs : Nat) : Dev :=
  if splice then d.spliceEnd st ofs true else d.loadFail st ofs

/-- The header of a full image is checked. -/
def Dev.loadHeader (d : Dev) (pages : List PageErr) : Dev :=
  match d.cfg.load with
  | none => d
  | some im =>
    if im.header.isSome || !im.has false 0 256 then d
    else if im.stored false && d.rangeBusy im.base 256 then d.nvsHold 0
    else
      let (bad, d) := if im.stored false then d.pagesRead im.base 256 pages else (none, d)
      match bad with
      | some st => d.loadFail st 0
      | none =>
        let h := d.imageBytes im false 0 256
        match d.headerCheck h false (im.src == 1) (im.stored false) with
        | some (_, st) => d.loadFail st 0
        | none =>
          if decide (hdrLength h < im.got.length) && im.src == 3 then d.loadFail stFORMAT (hdrLength h)
          else
            (d.setLoad (some { im with header := some h, pos := 256, got := im.got.take (hdrLength h) })).wf CFG_STAT_STATE gBODY

def execImageHeader (splice : Bool) (pages : List PageErr) (s : State) : Out :=
  if splice then s.timed (fun d => d.spliceHeader pages) else s.act (fun d => d.loadHeader pages)

/-! ## Sections -/

/-- What reading a section comes to: its status, or the image and the device after it. -/
abbrev SecResult := Nat ⊕ (Image × Dev)

/-- Is the body being read? -/
def Dev.inBody (d : Dev) (splice : Bool) : Bool :=
  if splice then d.splState == pBODY else d.cfgState == gBODY || d.cfgState == gMARCH

/-- Read the next section, if it is of the kind `kind` (R295): nothing happens while its bytes have not arrived or a busy
bank is being suspended. A malformed section ends the load whatever the command's kind. -/
def Dev.sectionRead (d : Dev) (splice : Bool) (kind : Nat) (pages : List PageErr)
    (run : Dev → Image → Section → List Byte → SecResult) : Dev :=
  match d.image splice with
  | none => d
  | some im =>
    match im.header with
    | none => d
    | some h =>
      let stop := hdrLength h - 32
      if !d.inBody splice || decide (stop < im.pos + 16) || !im.has splice im.pos 16 then d
      else
        let st := im.stored splice
        let sec := sectionOf (d.bodyBytes im splice h im.pos 16)
        let ok := sec.formed (stop - im.pos - 16)
        let n := if ok then 16 + sec.padded else 16
        if ok && sec.typ != kind then d
        else if !im.has splice im.pos n then d
        else if st && d.rangeBusy (im.base + im.pos) n then d.nvsHold (if splice then 1 else 0)
        else if im.keyLost then d.imageFail splice stKEY im.pos
        else
          let (bad, d) := if st then d.pagesRead (im.base + im.pos) n pages else (none, d)
          match bad with
          | some e => d.imageFail splice e im.pos
          | none =>
            if !ok then d.imageFail splice stFORMAT im.pos
            else match run d im sec (d.bodyBytes im splice h (im.pos + 16) sec.len) with
              | .inl e => d.imageFail splice e im.pos
              | .inr (im', d) => d.setImage splice { im' with pos := im.pos + n }

/-! ### FRAMES (R296, R306, R322) -/

def framesRun (splice : Bool) (d : Dev) (im : Image) (s : Section) (pay : List Byte) : SecResult :=
  let march := match im.header with | some h => hdrMarch h | none => false
  let named := match im.header with | some h => hdrRegions h | none => []
  match s.frames with
  | none => .inl stFORMAT
  | some fs =>
    let inside := fs.all (fun k => match d.frameRegion k with | some r => named.contains r | none => false)
    if splice then
      if !inside then .inl stREGION
      else
        let (sh, g) := writeFrames d.cfg.shadow (fs.headD 0) fs.length (im.pos + 16) pay
        .inr ({ im with frames := im.frames + fs.length, golds := im.golds ++ g }, d.setCfg { d.cfg with shadow := sh })
    else if !inside || (march && im.memSeen) then .inl stFORMAT
    else
      let (ac, g) := writeFrames d.cfg.active (fs.headD 0) fs.length (im.pos + 16) pay
      .inr ({ im with frames := im.frames + fs.length, golds := im.golds ++ g, wrote := im.wrote ++ fs },
            d.setCfg { d.cfg with active := ac })

def execFramesSection (splice : Bool) (pages : List PageErr) (s : State) : Out :=
  s.act (fun d => d.sectionRead splice secFRAMES pages (framesRun splice))

/-! ### The start-up march (R123, R306) -/

/-- Must the march run before the load goes on? -/
def Image.marchDue (im : Image) (splice : Bool) : Bool :=
  !splice && !im.marched && (match im.header with | some h => hdrMarch h | none => false)

/-- The RAMs hosted in the regions an image names, on a die. -/
def Dev.imageRams (d : Dev) (rs : List Nat) (die : Nat) : List (MemKind × Nat) :=
  (selectedRams 3 255).filter (fun m =>
    match d.regionOf die (ramHost m.1 m.2).1 (ramHost m.1 m.2).2 with | some r => rs.contains r | none => false)

/-- The march engines that a start-up march runs on: a die's, for a RAM hosted in the image's regions there or a scratchpad it
writes; the hub's, for the Call Sheet store. An image that uses no memory ends the march of both dies at once (log entry 175). -/
def Dev.marchUses (d : Dev) (rs : List Nat) (r : MarchResult) : List Nat :=
  let l := [0, 1].filter (fun die => !(d.imageRams rs die).isEmpty || (List.range 32).any (fun k => r.engines.getLsbD (die * 32 + k))) ++
    (if r.sheet then [2] else [])
  if l.isEmpty then [0, 1] else l

/-- The march begins on the engines of the image's RAMs (R123). -/
def Dev.marchBegin (d : Dev) (rs : List Nat) : Dev :=
  [0, 1].foldl (fun d die =>
    if (d.imageRams rs die).isEmpty then d
    else ((d.wr (FAB_MT_FAIL die) 0).off (FAB_MT_STAT_FAILS die)).wf (FAB_MT_STAT_STATE die) 1) d

/-- What the march of engine `e` has found: each failing memory once (R122). -/
def Dev.startFails (d : Dev) (e : Nat) (r : MarchResult) : Dev :=
  ((r.reads.filter (fun x => x.1.val == e && marchBad x.2)).foldl (fun (p : List (Nat × Nat) × Dev) x =>
    let k := (memCode x.2.kind, x.2.index.toNat)
    if p.1.contains k then p else (k :: p.1, p.2.marchFailed e x.2)) ([], d)).2

/-- The march ends: its records, and every memory tested holds zero (R120, R122). -/
def Dev.startMarch (d : Dev) (rs : List Nat) (r : MarchResult) : Dev :=
  (d.marchUses rs r).foldl (fun d e =>
    let d := if d.rf (FAB_MT_STAT_STATE e) = 1 then d else (d.wr (FAB_MT_FAIL e) 0).off (FAB_MT_STAT_FAILS e)
    let d := d.startFails e r
    let d :=
      if e = 2 then { d with csh := { d.csh with entries := [], poison := [] } }
      else
        let d := (d.imageRams rs e).foldl (fun d m => d.memoryZero (if m.1 = .deep then 1 else 0, e, m.2)) d
        (List.range 32).foldl (fun d k => if r.engines.getLsbD (e * 32 + k) then d.memoryZero (2, e, k) else d) d
    d.marchEnd e stDONE false) d

/-- Has a read of the march failed? -/
def marchFound (r : MarchResult) : Bool := r.reads.any (fun x => marchBad x.2)

/-- Before the first MEMORY section or the trailer of an image with MARCH: without a result the march begins and the
source is held; with one it ends, and a failure ends the load. -/
def Dev.marchGate (d : Dev) (splice : Bool) (march : Option MarchResult) (go : Dev → Dev) : Dev :=
  match d.image splice with
  | none => d
  | some im =>
    if !im.marchDue splice then go d
    else
      let rs := match im.header with | some h => hdrRegions h | none => []
      match march with
      | none => if d.cfgState = gMARCH then d else (d.marchBegin rs).wf CFG_STAT_STATE gMARCH
      | some r =>
        let d := ((d.startMarch rs r).setLoad (some { im with marched := true })).wf CFG_STAT_STATE gBODY
        if marchFound r then d.loadFail stMARCH im.pos else go d

/-! ### MEMORY (R297, R322) -/

def memoryRun (splice : Bool) (d : Dev) (im : Image) (s : Section) (pay : List Byte) : SecResult :=
  let named := match im.header with | some h => hdrRegions h | none => []
  let inside := match d.regionOf s.die s.host.1 s.host.2 with | some r => named.contains r | none => false
  let write := fun (d : Dev) =>
    (({ im with memSeen := true, mems := addOnce im.mems (s.sub, s.die, s.index) }, d.memoryWrite s pay) : Image × Dev)
  if splice then
    if 2 ≤ s.sub then .inl stFORMAT
    else if s.overruns then .inl stLENGTH
    else if !inside then .inl stREGION
    else if !d.domPowered (columnDomain s.die s.host.1) then .inl stACCESS
    else .inr (write (if im.memSeen then d else im.regions.foldl Dev.isolateRegion d))
  else if s.overruns then .inl stLENGTH
  else if s.sub ≤ 1 then (if inside then .inr (write d) else .inl stACCESS)
  else if s.sub ≤ 4 then
    if d.domPowered (19 + (s.die * 32 + s.index) / 16) then .inr (write d) else .inl stACCESS
  else if d.bankFree s.index then
    .inr (write { d with csh := { d.csh with loadHeld := addOnce d.csh.loadHeld s.index } })
  else .inl stACCESS

def execMemorySection (splice : Bool) (pages : List PageErr) (march : Option MarchResult) (s : State) : Out :=
  s.act (fun d =>
    match d.image splice with
    | some im =>
      match im.header with
      | some h =>
        -- the march is due only when the next section is a MEMORY section
        let sec := sectionOf (d.bodyBytes im splice h im.pos 16)
        if !d.inBody splice || decide (hdrLength h - 32 < im.pos + 16) || !im.has splice im.pos 16 || sec.typ != secMEMORY then
          d.sectionRead splice secMEMORY pages (memoryRun splice)
        else d.marchGate splice march (fun d => d.sectionRead splice secMEMORY pages (memoryRun splice))
      | none => d
    | none => d)

/-! ### TABLE (R295, R315, R322, R374) -/

/-- The setting that a full load gives synthesiser `f` (R374): one that changes stops the clock until it locks anew, and a capture
on it ends (Table FAB-10). -/
def Dev.synthSet (d : Dev) (f : Nat) (v : Word) : Dev :=
  let old := d.rd (CKC_SYNf_CFG f)
  let d := d.plainWrite (CKC_SYNf_CFG f) v
  if d.rd (CKC_SYNf_CFG f) = old then d
  else
    let locked := d.bit ⟨CKC_STAT, 8 + f, 1⟩
    let d := (d.off ⟨CKC_STAT, 8 + f, 1⟩)
    let d := { d with gaf := { d.gaf with synRelock := SMap.set false d.gaf.synRelock f false } }
    if locked then d.capClockStops f else d

/-- The synthesiser settings of a full load (R374). -/
def Dev.synthTable (d : Dev) (t : List Byte) : Dev :=
  (List.range 8).foldl (fun d f => d.synthSet f (Config.synthSetting t f)) d

/-- The I/O bank settings give pins to GPIO bits (R353). -/
def Dev.bankTable (d : Dev) (t : List Byte) : Dev :=
  (List.range 64).foldl (fun d g => d.wr (GPIO_MAPg g) (Config.gpioMap t g &&& 0x800003FF)) (d.setCfg { d.cfg with ioBanks := t })

def tableRun (splice : Bool) (d : Dev) (im : Image) (s : Section) (pay : List Byte) : SecResult :=
  if splice then
    if s.sub ≠ 0 ∨ im.routing.isSome then .inl stFORMAT else .inr ({ im with routing := some pay }, d)
  else if s.sub = 0 then .inr ({ im with routing := some pay }, d.setCfg { d.cfg with routing := pay })
  else if s.sub = 1 then .inr (im, d.regionTable pay)
  else if s.sub = 2 then .inr (im, d.synthTable pay)
  else .inr (im, d.bankTable pay)

def execTableSection (splice : Bool) (pages : List PageErr) (s : State) : Out :=
  s.act (fun d => d.sectionRead splice secTABLE pages (tableRun splice))

/-! ### REGS (R297) -/

/-- May a REGS pair name the address: a register in die space outside the user window, or of GPIO or CKC? -/
def regsAddr (a : Nat) : Bool :=
  (rowAt a).isSome && (decide (0x10000000 ≤ a) && decide (a < 0x20000000) || blockOf a == 0x14 || blockOf a == 0x0F)

def regsRun (splice : Bool) (d : Dev) (im : Image) (s : Section) (pay : List Byte) : SecResult :=
  let pairs := (List.range (s.len / 8)).map (fun k =>
    ((BitVec.ofNat 32 (leNat (bytesAt pay (8 * k) 4)), BitVec.ofNat 32 (leNat (bytesAt pay (8 * k + 4) 4))) : Word × Word))
  if splice || pairs.any (fun p => !regsAddr p.1.toNat) then .inl stFORMAT
  else .inr ({ im with pairs := im.pairs ++ pairs }, d)

def execRegsSection (splice : Bool) (pages : List PageErr) (s : State) : Out :=
  s.act (fun d => d.sectionRead splice secREGS pages (regsRun splice))

/-! ## Trailer (R298, R306, R323) -/

/-- The first check of the trailer that fails. -/
def Dev.trailerCheck (d : Dev) (im : Image) (splice : Bool) (h : List Byte) : Option Nat :=
  let n := hdrLength h
  let t := d.imageBytes im splice (n - 32) 32
  let tag := BitVec.ofNat 128 (beNat (t.take 16))
  if leNat (bytesAt t 16 4) ≠ (crc32c (d.imageBytes im splice 0 (n - 16))).toNat then some stCRC
  else
    let want := match d.imageKey (hdrKey h) with
      | some k => gcmTag k (hdrIv h) h (d.imageBytes im splice 256 (n - 288))
      | none => 0
    if tag ≠ want then some stAUTH
    else if hdrFrames h ≠ im.frames then some stFORMAT
    else none

/-- The trailer passes: a full image is released on the next tick; a Splice's Cuts are confirmed. -/
def Dev.trailerPass (d : Dev) (splice : Bool) (im : Image) : Dev :=
  if splice then
    let d := (List.range 32).foldl (fun d i =>
      let c := d.cut i
      if c.live && c.kind == kCONFIG && im.left.contains c.target then d.confirmCut i else d) d
    d.wf SPL_STAT_STATE pSTAGED
  else d.wf CFG_STAT_STATE gVERIFY

def Dev.trailerRead (d : Dev) (splice : Bool) (pages : List PageErr) : Dev :=
  match d.image splice with
  | none => d
  | some im =>
    match im.header with
    | none => d
    | some h =>
      let stop := hdrLength h - 32
      if im.stored splice && d.rangeBusy (im.base + stop) 32 then d.nvsHold (if splice then 1 else 0)
      else if im.keyLost then d.imageFail splice stKEY stop
      else
        let (bad, d) := if im.stored splice then d.pagesRead (im.base + stop) 32 pages else (none, d)
        match bad with
        | some e => d.imageFail splice e stop
        | none =>
          match d.trailerCheck im splice h with
          | some e => d.imageFail splice e stop
          | none => (d.setImage splice { im with pos := hdrLength h, idle := d.slate }).trailerPass splice im

def execImageTrailer (splice : Bool) (pages : List PageErr) (march : Option MarchResult) (s : State) : Out :=
  s.act (fun d =>
    match d.image splice with
    | some im =>
      match im.header with
      | some h =>
        if !d.inBody splice || im.pos != hdrLength h - 32 || !im.has splice im.pos 32 then d
        else d.marchGate splice march (fun d => d.trailerRead splice pages)
      | none => d
    | none => d)

end Sys2Proof.Machine
end

