-- ==== Sys2Proof/Machine/Dram.lean ====
section
/-! DEFINITION. The DRAM controllers (11_dram_controller): bursts and their order, refresh, row disturbance, training
and frequency changes. What the devices store is the protection engine's (Machine/Mpe.lean). -/
namespace Sys2Proof.Machine
open Reg

def Dev.dmc (d : Dev) (n : Nat) : Dmc := SMap.at Dmc.idle d.mem.dmc n
def Dev.setDmc (d : Dev) (n : Nat) (x : Dmc) : Dev := { d with mem := { d.mem with dmc := SMap.set Dmc.idle d.mem.dmc n x } }

/-- Channel states (Table DMC-3). -/
def qOFF : Nat := 0
def qSTANDBY : Nat := 1
def qTRAINING : Nat := 2
def qRUN : Nat := 3
def qCHANGING : Nat := 4
def qFAILED : Nat := 5
def qSELFREF : Nat := 6

def Dev.qstate (d : Dev) (n : Nat) : Nat := d.rf (DMC_STAT_STATE n)

/-- Is the controller's domain up and its clock on? -/
def Dev.dmcLive (d : Dev) (n : Nat) : Bool := d.domainUp (23 + n) && d.clocked (DMC_CFG n)

/-- A record of DMCn (R263). -/
def Dev.dmcLog (d : Dev) (n code : Nat) (sev : Sev) (det : List Nat) : Dev := d.log (7 + n) code sev det

/-- A refused request or write (DMC 0x08). -/
def Dev.dmcRefused (d : Dev) (n ofs st : Nat) : Dev :=
  (d.on (DMC_STAT_REFUSED n)).dmcLog n 0x08 .warn [ofs, ofs / 256, st, 0, 0]

/-- A refused register write, for which the spec names no status: that byte is free. -/
def Dev.dmcWriteRefused (d : Dev) (n ofs : Nat) : Dev := let (w, d) := d.draw; d.dmcRefused n ofs (w.toNat % 256)

/-! ## Addresses (R241) -/

def Dev.ranks2 (d : Dev) (n : Nat) : Bool := d.bit (DMC_CFG_RANKS n)

/-- The top address bit of Table DMC-2. -/
def Dev.topBit (d : Dev) (n : Nat) : Nat := 33 + d.rf (DMC_CFG_RANKS n) + d.rf (DMC_CFG_DENSITY n)

/-- Rank of an address. -/
def Dev.rankOf (d : Dev) (n a : Nat) : Nat := if d.ranks2 n then a / 2 ^ 18 % 2 else 0

/-- Row of an address. -/
def Dev.rowOf (d : Dev) (n a : Nat) : Nat := if d.ranks2 n then a / 2 ^ 19 else a / 2 ^ 18

/-- A bank's number within its subchannel: rank × 32 + bank group × 4 + bank. -/
def Dev.bankIn (d : Dev) (n a : Nat) : Nat := d.rankOf n a * 32 + a / 2 ^ 7 % 8 * 4 + a / 2 ^ 16 % 4

/-- A bank's key: subchannel × 64 and the bank within it. -/
def Dev.bankOf (d : Dev) (n a : Nat) : Nat := a / 2 ^ 6 % 2 * 64 + d.bankIn n a

/-- The rows of a bank. -/
def Dev.rowCount (d : Dev) (n : Nat) : Nat := 2 ^ (16 + d.rf (DMC_CFG_DENSITY n))

/-! ## Requests and their order (R243, R246, R248 to R250) -/

/-- Requests not yet served. -/
def Dmc.open_ (x : Dmc) : List DramBurst := x.queue.filter (fun b => !b.served)

/-- Does a pending read match the row of an earlier pending write of bank `k` (R248)? -/
def Dev.rowMatch (d : Dev) (n k : Nat) : List DramBurst → Bool
  | [] => false
  | b :: r =>
    (b.write && d.bankOf n b.addr == k && r.any (fun c => !c.write && d.bankOf n c.addr == k && d.rowOf n c.addr == d.rowOf n b.addr))
      || d.rowMatch n k r

/-- DMC_STAT.INORDER follows the queue. -/
def Dev.inorderCount (d : Dev) (n : Nat) : Dev :=
  let q := (d.dmc n).open_
  let ks := (q.map (fun b => d.bankOf n b.addr)).dedup
  d.wf (DMC_STAT_INORDER n) (min 31 (ks.filter (fun k => d.rowMatch n k q)).length)

/-- Completions leave each port in the order of its requests (R246). -/
def releaseBursts : List Nat → List DramBurst → List DramBurst × List DramBurst
  | _, [] => ([], [])
  | held, b :: r =>
    if b.served && !held.contains b.port then
      let (o, q) := releaseBursts held r
      (b :: o, q)
    else
      let (o, q) := releaseBursts (b.port :: held) r
      (o, b :: q)

def Dev.dmcRelease (d : Dev) (n : Nat) : Dev :=
  let x := d.dmc n
  let (o, q) := releaseBursts [] x.queue
  let d := (d.setDmc n { x with queue := q }).inorderCount n
  o.foldl (fun d b => d.out (.burst n b.port b.addr b.write stDONE)) d

/-- The ports of a closing channel close once nothing accepted is left (R243). -/
def Dev.dmcClosed (d : Dev) (n : Nat) : Dev :=
  let x := d.dmc n
  if x.closing && x.queue.isEmpty && d.qstate n == qRUN then
    (d.setDmc n { x with closing := false, rows := [] }).wf (DMC_STAT_STATE n) qSTANDBY
  else d

/-- The capacity of a subchannel's write queue and of a port's reorder buffer. -/
def Dev.queueRoom (d : Dev) (n port addr : Nat) (write : Bool) : Bool :=
  let q := (d.dmc n).queue
  decide ((q.filter (fun b => b.port == port)).length < 128) &&
    (!write || decide ((q.filter (fun b => b.write && !b.served && b.addr / 64 % 2 == addr / 64 % 2)).length < 64))

/-- Refuse a burst at once. -/
def Dev.burstRefused (d : Dev) (n port addr : Nat) (write : Bool) : Dev := d.out (.burst n port addr write stACCESS)

/-- A burst request (R242, R243): out of range, out of state, or accepted where a buffer has room. -/
def execBurstRequest (n : Fin 4) (port : Fin 16) (addr : BitVec 40) (write panic : Bool) (s : State) : Out :=
  s.act (fun d =>
    let a := addr.toNat
    if 2 ^ (d.topBit n + 1) ≤ a then
      let d := (d.inc (DMC_CNT_ADDR_ERR n)).burstRefused n port a write
      d.dmcLog n 0x0A .warn [port, a / 2 ^ 22, a / 2 ^ 30 % 64, 0, 0]
    else if !d.dmcLive n || (d.qstate n != qRUN && d.qstate n != qCHANGING) || (d.dmc n).closing then
      d.burstRefused n port a write
    else if !d.queueRoom n port a write then d
    else
      let x := d.dmc n
      let b : DramBurst := { port := port, addr := a, write := write, at_ := d.slate,
                             urgent := panic && d.bit (DMC_PORTk_CFG_PANIC_EN n port), served := false }
      (d.setDmc n { x with queue := x.queue ++ [b] }).inorderCount n)

/-- The urgency of a request (R249, R250), ages and targets in 1/768 ns. -/
def Dev.urgency (d : Dev) (n : Nat) (b : DramBurst) : Nat :=
  if b.urgent then 3 else
  let g := d.rf (DMC_PORTk_CFG_TGT n b.port) * 768
  let a := (d.slate - b.at_) * 3125
  if g = 0 then 0
  else if g ≤ a then 3
  else if 4 * (g - a) ≤ g then 2
  else if 2 * (g - a) ≤ g then 1
  else 0

/-- Does any pending request have urgency 3? -/
def Dev.urgent3 (d : Dev) (n : Nat) : Bool := (d.dmc n).open_.any (fun b => d.urgency n b == 3)

/-- A request is served: its port's misses and panics are counted (R249, R250). -/
def Dev.burstServed (d : Dev) (n : Nat) (b : DramBurst) : Dev :=
  let x := d.dmc n
  let d := d.setDmc n { x with queue := x.queue.map (fun c => if c == b then { c with served := true } else c) }
  let d := if b.urgent then d.inc (DMC_PORTk_CNT_PANIC n b.port) else d
  let g := d.rf (DMC_PORTk_CFG_TGT n b.port)
  let d := if g != 0 && decide (g * 768 < (d.slate - b.at_) * 3125) then
      let d := (d.inc (DMC_PORTk_CNT_MISS n b.port)).on (DMC_STAT_MISS n)
      let c := d.rf (DMC_PORTk_CNT_MISS n b.port)
      let x := d.dmc n
      let due := match SMap.at none x.missLog b.port with | some t => decide (t + ticksPerSec ≤ d.slate) | none => true
      if due then
        (d.setDmc n { x with missLog := SMap.set none x.missLog b.port (some d.slate) }).dmcLog n 0x04 .note [b.port, c, c / 256, 0, 0]
      else d
    else d
  (d.dmcRelease n).dmcClosed n

/-! ## Row disturbance (R253, R254) -/

/-- Rows each side of a neighbour refresh: 0 acts as 1, 3 as 2. -/
def Dev.blast (d : Dev) (n : Nat) : Nat := let b := d.rf (DMC_RH_BLAST n); if b = 0 then 1 else if b = 3 then 2 else b

/-- The neighbours of a row that exist. -/
def Dev.neighbours (d : Dev) (n r : Nat) : List Nat :=
  (List.range (d.blast n)).flatMap (fun k =>
    (if k + 1 ≤ r then [r - (k + 1)] else []) ++ (if r + (k + 1) < d.rowCount n then [r + (k + 1)] else []))

/-- Update the activate-count table at a counted ACT. -/
def Dev.countAct (d : Dev) (n bank r : Nat) : Dev :=
  let x := d.dmc n
  let k := bank * 2 ^ 17 + r
  let e := SMap.at none x.acts k
  let c := e.getD 0
  if x.acts.length < 4096 || e.isSome then
    let lim := max 1 (d.rf (DMC_RH_THRESH n))
    let hit := decide (lim ≤ c + 1)
    let d := d.setDmc n { x with acts := SMap.set none x.acts k (some (if hit then 0 else c + 1)),
                                 nbr := if hit then x.nbr ++ [(bank, r)] else x.nbr }
    d.wf (DMC_RH_STAT_USED n) (d.dmc n).acts.length
  else
    let (w, d) := d.draw
    let d := d.on (DMC_STAT_RH_FULL n)
    let p := d.rf (DMC_RH_PSHIFT n)
    let d := if w.toNat % 2 ^ p = 0 then d.setDmc n { x with nbr := x.nbr ++ [(bank, r)] } else d
    if x.fullLog then d
    else (d.setDmc n { (d.dmc n) with fullLog := true }).dmcLog n 0x06 .note [p, 0, 0, 0, 0]

/-- A neighbour refresh is performed: ACT and PRE of each neighbour, with RFM_EN then one RFMsb to the bank. The bank is left precharged, MITIG counts, DMC 0x05 once per second. -/
def Dev.neighbourRefresh (d : Dev) (n bank r : Nat) : Dev :=
  let x := d.dmc n
  let d := d.out (.neighbourRefresh n bank (d.neighbours n r) (d.bit (DMC_RH_RFM_EN n)))
  let d := d.setDmc n { x with nbr := x.nbr.erase (bank, r), rows := SMap.set none x.rows bank none }
  let d := d.inc (DMC_RH_STAT_MITIG n)
  let c := d.rf (DMC_RH_STAT_MITIG n)
  let due := match x.nbrLog with | some t => decide (t + ticksPerSec ≤ d.slate) | none => true
  if due then (d.setDmc n { (d.dmc n) with nbrLog := some d.slate }).dmcLog n 0x05 .info [c, c / 256, 0, 0, 0] else d

/-! ## Refresh (R252) -/

/-- tREFI in 1/1,000 tick: 3.9 µs, or 1.95 µs while HOT. -/
def Dev.refInterval (d : Dev) (n : Nat) : Nat := if d.bit (DMC_STAT_HOT n) then 479232 else 958464

/-- The refresh interval of both ranks starts. -/
def Dev.refreshFrom (d : Dev) (n : Nat) : Dev :=
  let t := d.slate * 1000 + d.refInterval n
  d.setDmc n { (d.dmc n) with refAt := SMap.set 0 (SMap.set 0 (d.dmc n).refAt 0 t) 1 t }

/-- One refresh of a rank: every bank, or with REF_MODE the next bank of each bank group, is precharged. -/
def Dev.refreshRank (d : Dev) (n rank : Nat) : Dev :=
  let x := d.dmc n
  if d.bit (DMC_CFG_REF_MODE n) then
    let b := SMap.at 0 x.sbBank rank
    d.setDmc n { x with rows := SMap.clear (fun k => k % 64 / 32 == rank && k % 4 == b) x.rows,
                        sbBank := SMap.set 0 x.sbBank rank ((b + 1) % 4) }
  else d.setDmc n { x with rows := SMap.clear (fun k => k % 64 / 32 == rank) x.rows }

/-- Every postponed refresh of a rank, back to back. -/
def Dev.refreshOwed (d : Dev) (n rank : Nat) : Dev :=
  let x := d.dmc n
  let k := SMap.at 0 x.postpone rank
  (List.range k).foldl (fun d _ => d.refreshRank n rank) (d.setDmc n { x with postpone := SMap.set 0 x.postpone rank 0 })

/-- The refresh interval of a rank ends: refreshed, or postponed while a request of urgency 3 waits, four at most. -/
def execRefresh (n : Fin 4) (rank : Bool) (s : State) : Out :=
  s.act (fun d =>
    let r := rank.toNat
    let due := SMap.at 0 (d.dmc n).refAt r
    if !d.dmcLive n || d.qstate n != qRUN || (rank && !d.ranks2 n) || decide (d.slate * 1000 < due) then d else
    let x := d.dmc n
    let x := { x with refAt := SMap.set 0 x.refAt r (due + d.refInterval n) }
    let d := d.setDmc n (if rank then x else { x with windows := x.windows + 1, driftIv := x.driftIv + 1 })
    let x := d.dmc n
    let k := SMap.at 0 x.postpone r
    if d.urgent3 n && decide (k < 4) then d.setDmc n { x with postpone := SMap.set 0 x.postpone r (k + 1) }
    else (d.refreshOwed n r).refreshRank n r)

/-- The refresh-rate mode register is read, every 1 ms. -/
def execRefreshRateRead (n : Fin 4) (hot : Bool) (s : State) : Out :=
  s.act (fun d =>
    if !d.dmcLive n || d.qstate n != qRUN || decide (d.slate < (d.dmc n).rateAt + ticksPerMs) then d else
    let d := d.setDmc n { (d.dmc n) with rateAt := d.slate }
    if d.bit (DMC_STAT_HOT n) == hot then d
    else (d.wb (DMC_STAT_HOT n) hot).dmcLog n 0x0C .note [hot.toNat, 0, 0, 0, 0])

/-- The end of a refresh window of 8,192 intervals: every entry of the table is cleared. -/
def execRefreshWindowEnd (n : Fin 4) (s : State) : Out :=
  s.act (fun d =>
    let x := d.dmc n
    if x.windows < 8192 then d
    else
      let d := d.setDmc n { x with windows := x.windows - 8192, acts := [], fullLog := false }
      (d.off (DMC_STAT_RH_FULL n)).wf (DMC_RH_STAT_USED n) 0)

/-- The DQS oscillators are read every 256 refresh intervals (R245): each lane moves one step towards its drift, clamped at ±16. -/
def execDqsDriftRead (n : Fin 4) (drifts : List LaneDrift) (s : State) : Out :=
  s.act (fun d =>
    if !d.dmcLive n || d.qstate n != qRUN || decide ((d.dmc n).driftIv < 256) then d else
    let d := d.setDmc n { (d.dmc n) with driftIv := (d.dmc n).driftIv - 256 }
    drifts.foldl (fun d m =>
      let x := d.dmc n
      let k := m.sub.toNat * 8 + m.rank.toNat * 4 + m.lane.val
      let o := SMap.at 0 x.drift k
      let w := max (-16) (min 16 m.need)
      let o' := if o < w then o + 1 else if w < o then o - 1 else o
      let d := d.setDmc n { x with drift := SMap.set 0 x.drift k o' }
      if m.need < -16 ∨ 16 < m.need then
        let d := d.on (DMC_STAT_DRIFT n)
        if x.driftLog then d
        else (d.setDmc n { (d.dmc n) with driftLog := true }).dmcLog n 0x0B .warn [m.sub.toNat, m.rank.toNat, m.lane.val, 0, 0]
      else d) d)

/-! ## The choice of a command (R251) -/

/-- May a request be chosen: its bank ready, no earlier request to the same burst, the oldest of an in-order bank, and no
ACT to a bank whose neighbour refresh is due? -/
def Dev.eligible (d : Dev) (n : Nat) (sub : Bool) (ready : BitVec 64) (q : List DramBurst) (i : Nat) (b : DramBurst) : Bool :=
  let k := d.bankOf n b.addr
  let before := q.take i
  decide (k / 64 = sub.toNat) && ready.getLsbD (k % 64) &&
    !before.any (fun c => c.addr / 64 == b.addr / 64) &&
    (!d.rowMatch n k q || !before.any (fun c => d.bankOf n c.addr == k)) &&
    (SMap.at none (d.dmc n).rows k == some (d.rowOf n b.addr) || !(d.dmc n).nbr.any (fun e => e.1 == k))

/-- The rank of a candidate: urgency, row hit, direction; the oldest wins a tie. -/
def Dev.candidateRank (d : Dev) (n : Nat) (drain : Bool) (b : DramBurst) : Nat :=
  let hit := SMap.at none (d.dmc n).rows (d.bankOf n b.addr) == some (d.rowOf n b.addr)
  d.urgency n b * 4 + hit.toNat * 2 + (b.write == drain).toNat

/-- The drain state of a subchannel's writes: from 48 to 16. -/
def Dev.drainUpdate (d : Dev) (n : Nat) (sub : Bool) : Dev :=
  let x := d.dmc n
  let w := (x.open_.filter (fun b => b.write && decide (b.addr / 64 % 2 = sub.toNat))).length
  let was := SMap.at false x.drain sub.toNat
  d.setDmc n { x with drain := SMap.set false x.drain sub.toNat (if was then decide (16 < w) else decide (48 ≤ w)) }

/-- One command cycle of a subchannel; `ready`: the banks that can take a command. -/
def Dev.commandSelect (d : Dev) (n : Nat) (sub : Bool) (ready : BitVec 64) : Dev :=
  let d := if d.urgent3 n then d else (d.refreshOwed n 0).refreshOwed n 1
  match (d.dmc n).nbr.find? (fun e => decide (e.1 / 64 = sub.toNat) && ready.getLsbD (e.1 % 64)) with
  | some (k, r) => d.neighbourRefresh n k r
  | none =>
    let d := d.drainUpdate n sub
    let q := (d.dmc n).open_
    let drain := SMap.at false (d.dmc n).drain sub.toNat
    let best := q.zipIdx.foldl (fun best (b, i) =>
      if !d.eligible n sub ready q i b then best
      else match best with
        | none => some b
        | some c => if d.candidateRank n drain c < d.candidateRank n drain b then some b else some c) none
    match best with
    | none => d
    | some b =>
      let x := d.dmc n
      let k := d.bankOf n b.addr
      match SMap.at none x.rows k with
      | some r =>
        if r = d.rowOf n b.addr then d.burstServed n b
        else d.setDmc n { x with rows := SMap.set none x.rows k none }
      | none =>
        (d.setDmc n { x with rows := SMap.set none x.rows k (some (d.rowOf n b.addr)) }).countAct n k (d.rowOf n b.addr)

def execDramCommandSelect (n : Fin 4) (sub : Bool) (ready : BitVec 64) (s : State) : Out :=
  s.act (fun d => if d.dmcLive n && d.qstate n == qRUN then d.commandSelect n sub ready else d)

/-! ## Training (R244) -/

/-- The set a field names, 3 acting as 0. -/
def setOf (x : Nat) : Nat := if x = 3 then 0 else x

/-- The rate code of a set, 5 to 7 acting as 4. -/
def Dev.rateOf (d : Dev) (n s : Nat) : Nat := min 4 (d.rf (DMC_SETs_RATE_RATE n s))

/-- A set's TRAINED bit. -/
def Dev.setTrained (d : Dev) (n s : Nat) (b : Bool) : Dev :=
  let t := d.rf (DMC_STAT_TRAINED n)
  d.wf (DMC_STAT_TRAINED n) (if b then t ||| 2 ^ s else t &&& (7 - 2 ^ s))

def Dev.isTrained (d : Dev) (n s : Nat) : Bool := (d.rf (DMC_STAT_TRAINED n)).testBit s

/-- A write of DMC_TRAIN. -/
def Dev.trainWrite (d : Dev) (n : Nat) (v : Word) : Dev :=
  let d := d.plainWrite (DMC_TRAIN n) v
  if !v.getLsbD 0 then d
  else
    let q := d.qstate n
    if q = qOFF ∨ q = qSTANDBY ∨ q = qFAILED then
      let x := d.dmc n
      let d := d.setDmc n { x with training := setOf (d.rf (DMC_TRAIN_SET n)), noLock := !d.bit CKC_STAT_XTAL_OK, queue := x.queue, rows := [] }
      (d.wf (DMC_TRAIN_STATUS n) stDONE).wf (DMC_STAT_STATE n) qTRAINING
    else (d.wf (DMC_TRAIN_STATUS n) stACCESS).dmcRefused n 0x08 stACCESS

def execTrainingStart (_rq : Requester) (n : Fin 4) (v : Word) (s : State) : Out :=
  s.busWrite (DMC_TRAIN n) (fun d => d.trainWrite n (v ||| 1))

/-- A training run ends. One that began while the crystal was not good fails at step 1, since the DRAM clocks do not lock
(R372): it ends in no other way. -/
def execTrainingEnd (n : Fin 4) (fail : Option TrainFail) (s : State) : Out :=
  s.act (fun d =>
    if !d.dmcLive n || d.qstate n != qTRAINING then d else
    if (d.dmc n).noLock && fail.map (·.step.val) != some 1 then d else
    let set := (d.dmc n).training
    match fail with
    | none =>
      let d := d.setDmc n { (d.dmc n) with drift := [], driftLog := false }
      let d := ((d.setTrained n set true).wf (DMC_STAT_SET n) set).wf (DMC_STAT_STATE n) qSTANDBY
      let d := ((d.off (DMC_STAT_DRIFT n)).wf (DMC_TRAIN_STEP n) 0).on (DMC_STAT_TRAIN_DONE n)
      d.dmcLog n 0x01 .info [set, d.rateOf n set, 0, 0, 0]
    | some f =>
      let d := ((d.setTrained n set false).wf (DMC_TRAIN_STEP n) f.step.val).wf (DMC_STAT_STATE n) qFAILED
      (d.on (DMC_STAT_TRAIN_FAIL n)).dmcLog n 0x02 .error [set, f.step.val, f.sub.toNat, f.rank.toNat, 0])

/-! ## Shadow sets and frequency changes (R255 to R257) -/

def setRegAddr (n s : Nat) : SetReg → Nat
  | .rate => DMC_SETs_RATE n s
  | .ta => DMC_SETs_TA n s
  | .tb => DMC_SETs_TB n s

/-- A write of a set's RATE, TA or TB. -/
def Dev.setRegWrite (d : Dev) (n s : Nat) (which : SetReg) (v : Word) : Dev :=
  let a := setRegAddr n s which
  if d.rf (DMC_STAT_SET n) == s && (d.qstate n == qRUN || d.qstate n == qCHANGING) then
    d.dmcWriteRefused n (a - DMC_CFG n)
  else (d.plainWrite a v).setTrained n s false

def execShadowSetWrite (_rq : Requester) (n : Fin 4) (set : Fin 3) (which : SetReg) (v : Word) (s : State) : Out :=
  s.busWrite (setRegAddr n set which) (fun d => d.setRegWrite n set which v)

/-- The change takes effect: commands already issued complete and all banks are precharged. -/
def Dev.fchgStart (d : Dev) (n : Nat) : Dev :=
  let d := d.off (DMC_FCHG_PENDING n)
  if d.qstate n != qRUN then d.wf (DMC_FCHG_STATUS n) stACCESS
  else (d.setDmc n { (d.dmc n) with rows := [], drain := [] }).wf (DMC_STAT_STATE n) qCHANGING

/-- A write of DMC_FCHG (R256). -/
def Dev.fchgWrite (d : Dev) (n : Nat) (v : Word) : Dev :=
  let d := d.plainWrite (DMC_FCHG n) v
  if !v.getLsbD 0 then d
  else
    let t := setOf (d.rf (DMC_FCHG_SET n))
    if t = d.rf (DMC_STAT_SET n) then d.wf (DMC_FCHG_STATUS n) stDONE
    else if !d.isTrained n t || d.qstate n != qRUN || d.bit (DMC_FCHG_PENDING n) then
      (d.wf (DMC_FCHG_STATUS n) stACCESS).dmcRefused n 0x0C stACCESS
    else
      let at_ := if d.bit (DMC_FCHG_AT_EN n) then max d.slate (d.rd64 (DMC_FCHG_AT_LO n) (DMC_FCHG_AT_HI n)) else d.slate
      let d := (d.wf (DMC_FCHG_STATUS n) stDONE).on (DMC_FCHG_PENDING n)
      let d := d.setDmc n { (d.dmc n) with fchgSet := t, fchgAt := at_ }
      if at_ ≤ d.slate then d.fchgStart n else d

def execFrequencyChangeRequest (_rq : Requester) (n : Fin 4) (v : Word) (s : State) : Out :=
  s.busWrite (DMC_FCHG n) (fun d => d.fchgWrite n (v ||| 1))

/-- A pending change whose tick has come. -/
def execFrequencyChangeStart (n : Fin 4) (s : State) : Out :=
  s.act (fun d =>
    if d.dmcLive n && d.bit (DMC_FCHG_PENDING n) && decide ((d.dmc n).fchgAt ≤ d.slate) then d.fchgStart n else d)

/-- The channel runs on the new set: a REFab to every rank first, from which the refresh interval restarts. -/
def Dev.fchgDone (d : Dev) (n : Nat) : Dev :=
  let x := d.dmc n
  let old := d.rf (DMC_STAT_SET n)
  let d := d.setDmc n { x with rows := [], postpone := [] }
  let d := ((d.wf (DMC_STAT_SET n) x.fchgSet).wf (DMC_STAT_STATE n) qRUN).on (DMC_STAT_FCHG_DONE n)
  ((d.refreshFrom n).dmcLog n 0x07 .info [old, x.fchgSet, d.rateOf n x.fchgSet, 0, 0]).dmcClosed n

def execFrequencyChangeDone (n : Fin 4) (s : State) : Out :=
  s.act (fun d => if d.dmcLive n && d.qstate n == qCHANGING then d.fchgDone n else d)

/-! ## Clock loss, timeouts and power (R258 to R260) -/

/-- A request unanswered after 50 µs is removed whole; a timed-out write is never written. -/
def execDramRequestTimeout (n : Fin 4) (s : State) : Out :=
  s.act (fun d =>
    let x := d.dmc n
    match x.queue.find? (fun b => !b.served && elapsed (d.slate - b.at_) 50000) with
    | none => d
    | some b =>
      let d := (d.setDmc n { x with queue := x.queue.erase b }).out (.burst n b.port b.addr b.write stTIMEOUT)
      let d := (d.inc (DMC_CNT_TIMEOUT n)).on (DMC_STAT_TIMEOUT n)
      let d := if d.bit (DMC_ERR_VALID n) then d
        else ((d.wf (DMC_ERR_BURST n) (b.addr / 64)).wb (DMC_ERR_WRITE n) b.write).on (DMC_ERR_VALID n)
      let d := d.dmcLog n 0x03 .error [b.port, b.write.toNat, b.addr / 2 ^ 6, b.addr / 2 ^ 14, b.addr / 2 ^ 22]
      (d.dmcRelease n).dmcClosed n)

/-- The channel of a domain that is to power down (R259): the requests it has accepted are answered with ACCESS and its
devices enter self-refresh. -/
def Dev.dmcSelfRef (d : Dev) (n : Nat) : Dev :=
  let d := if d.qstate n = qCHANGING then d.fchgDone n else d
  if d.qstate n = qRUN ∨ d.qstate n = qSTANDBY then
    let x := d.dmc n
    let d := x.queue.foldl (fun d b => d.out (.burst n b.port b.addr b.write (if b.served then stDONE else stACCESS))) d
    (((d.setDmc n { x with queue := [], rows := [], closing := false }).inorderCount n).off (DMC_FCHG_PENDING n)).wf
      (DMC_STAT_STATE n) qSELFREF
  else d

/-- The controller loses its domain. -/
def Dev.dmcOff (d : Dev) (n : Nat) : Dev := d.setDmc n Dmc.idle

end Sys2Proof.Machine
end

