-- ==== Sys2Proof/Machine/Mpe.lean ====
section
/-! DEFINITION. The memory protection engine (12_memory_protection): where sectors lie, the caches, the counter tree,
what cannot be trusted, key rotation and retirement. DRAM holds ciphertext; the state holds what decrypting it gives. -/
namespace Sys2Proof.Machine
open Reg

def Dev.mch (d : Dev) (n : Nat) : MpeChan := SMap.at MpeChan.off d.mem.chan n
def Dev.setMch (d : Dev) (n : Nat) (x : MpeChan) : Dev := { d with mem := { d.mem with chan := SMap.set MpeChan.off d.mem.chan n x } }

/-- Channel states of MPE_CHn_STAT. -/
def eOFF : Nat := 0
def eINIT : Nat := 1
def eREADY : Nat := 2
def eROTATING : Nat := 3

def Dev.estate (d : Dev) (n : Nat) : Nat := d.rf (MPE_CHn_STAT_STATE n)

/-- A record of the MPE block (R282). -/
def Dev.mpeLog (d : Dev) (code : Nat) (sev : Sev) (det : List Nat) : Dev := d.log 0x0B code sev det

/-- An LBN in a detail: bits [7:0], [15:8], [23:16] and [28:24]. -/
def lbnBytes (l : Nat) : List Nat := [l, l / 2 ^ 8, l / 2 ^ 16, l / 2 ^ 24 % 32]

/-! ## Where sectors lie (R264) -/

/-- The member channels, lowest first. -/
def Dev.members (d : Dev) : List Nat := (List.range 4).filter (fun n => (d.rf MPE_CFG_CHMASK).testBit n)

/-- A channel's capacity C in bytes (Table DMC-1). -/
def Dev.chanBytes (d : Dev) (n : Nat) : Nat := 2 ^ (34 + d.rf (DMC_CFG_RANKS n) + d.rf (DMC_CFG_DENSITY n))

/-- The capacity that every member has, read from the lowest. -/
def Dev.memberBytes (d : Dev) : Nat := match d.members with | n :: _ => d.chanBytes n | [] => 0

/-- S: the sectors of a channel. -/
def Dev.chanSectors (d : Dev) : Nat := d.memberBytes * 7 / 8 / 512

/-- The protected capacity in bytes. -/
def Dev.mpeCapacity (d : Dev) : Nat := d.members.length * (d.memberBytes * 7 / 8)

/-- MPE_CAP, MPE_CHn_SECT and the resting MPE_CHn_BND follow the members and their capacity. -/
def Dev.mpeFigures (d : Dev) : Dev :=
  let d := d.wf MPE_CAP_MIB (d.mpeCapacity / 2 ^ 20)
  (List.range 4).foldl (fun d n =>
    let s := if d.members.contains n then d.chanSectors else 0
    let d := d.wf (MPE_CHn_SECT_SECTORS n) s
    if d.estate n = eROTATING then d else d.wf (MPE_CHn_BND_BOUND n) s) d

/-- The channel and channel sector of a protected sector number (LBN). -/
def Dev.placeOf (d : Dev) (lbn : Nat) : Nat × Nat :=
  let ms := d.members
  let p := lbn / 8
  (ms.getD (p % ms.length) 0, 8 * (p / ms.length) + lbn % 8)

/-- The LBN of a channel sector. -/
def Dev.lbnOf (d : Dev) (n c : Nat) : Nat :=
  let ms := d.members
  8 * (c / 8 * ms.length + (ms.findIdx (fun m => m == n))) + c % 8

/-- Does the channel serve requests: READY or ROTATING, its controller in RUN or CHANGING (R243, R275)? -/
def Dev.chanServes (d : Dev) (n : Nat) : Bool :=
  d.dmcLive n && (d.estate n == eREADY || d.estate n == eROTATING) && (d.qstate n == qRUN || d.qstate n == qCHANGING) &&
    !(d.dmc n).closing

/-- The retire entry that takes a channel sector out of service (R280). -/
def Dev.retiredBy (d : Dev) (n c : Nat) : Option Nat :=
  let q := c / 8
  (List.range 256).find? (fun e =>
    let k := d.rf (MPE_RETn_e_KIND n e)
    let i := d.rf (MPE_RETn_e_INDEX n e)
    (k == 1 && i == c) || (k == 2 && i == q) ||
      (k == 3 && q / 16 % 4 == i % 4 && d.rankOf n (q * 4096) == i / 4))

/-! ## Keys (R266, R269, R274, R278) -/

/-- The key draw that covers a channel sector. -/
def Dev.keyFor (d : Dev) (n c : Nat) : Nat :=
  if d.estate n == eROTATING && decide (c < d.rf (MPE_CHn_BND_BOUND n)) then (d.mch n).newKey else (d.mch n).key

/-- A draw of keys for a channel. -/
def Dev.drawKey (d : Dev) (n : Nat) : Nat × Dev :=
  let k := d.mem.draws + 1
  (k, ({ d with mem := { d.mem with draws := k } }).inc (MPE_CHn_STAT_KEYGEN n))

/-! ## The counter tree and the caches (R270, R271) -/

def nodeKey (level i : Nat) : Nat := level * 2 ^ 27 + i

/-- The node of a level above a channel sector. -/
def nodeOf (level c : Nat) : Nat := c / 8 ^ level

/-- Has a node above the sector failed (R277)? -/
def Dev.beneathFailed (d : Dev) (n c : Nat) : Bool := (d.mch n).failed.any (fun f => f.2 == nodeOf f.1 c)

/-- Capture the first error (MPE_ERR). -/
def Dev.mpeCapture (d : Dev) (n lbn cause consumer : Nat) : Dev :=
  if d.bit MPE_ERR_VALID then d
  else
    let d := (d.wf MPE_ERR_LBN lbn).on MPE_ERR_VALID
    ((d.wf MPE_ERR_CAUSE_CAUSE cause).wf MPE_ERR_CAUSE_CHAN n).wf MPE_ERR_CAUSE_CONSUMER consumer

/-- A fetched node: it fails, or it enters the counter cache, corrected where it had an error (R271, R277). -/
def Dev.nodeFetched (d : Dev) (n c consumer level : Nat) (env : SectorEnv) : Dev :=
  let i := nodeOf level c
  let ev := env.nodes.find? (fun e => e.level.val == level)
  let x := d.mch n
  match ev with
  | some e =>
    if e.bad then
      let d := d.setMch n { x with failed := x.failed ++ [(level, i)] }
      let d := ((d.inc MPE_CNT_UE_COUNT).on MPE_STAT_TREE).on (MPE_CHn_STAT_TREE_FAIL n)
      (d.mpeLog 0x04 .fatal [n, level, i, i / 2 ^ 8, i / 2 ^ 16]).mpeCapture n (d.lbnOf n c) 3 consumer
    else
      let d := d.setMch n { x with nodes := SMap.set none x.nodes (nodeKey level i) (some false) }
      ((d.inc MPE_CNT_CE_COUNT).on MPE_STAT_CE).mpeLog 0x05 .info [n, level, i, i / 2 ^ 8, i / 2 ^ 16]
  | none => d.setMch n { x with nodes := SMap.set none x.nodes (nodeKey level i) (some false) }

/-- Walk the tree from the nearest cached ancestor down to the sector's level-1 node. -/
def Dev.treeWalk (d : Dev) (n c consumer : Nat) (env : SectorEnv) : Dev :=
  let cached := (List.range 8).find? (fun k => (SMap.at none (d.mch n).nodes (nodeKey (k + 1) (nodeOf (k + 1) c))).isSome)
  let depth := cached.getD 8
  (List.range depth).foldl (fun d j =>
    if d.beneathFailed n c then d else d.nodeFetched n c consumer (depth - j) env) d

def Dev.sector (d : Dev) (n c : Nat) : Sector := SMap.at Sector.zero (d.mch n).sectors c
def Dev.setSector (d : Dev) (n c : Nat) (x : Sector) : Dev :=
  let m := d.mch n
  d.setMch n { m with sectors := SMap.set Sector.zero m.sectors c x }

def Dev.line (d : Dev) (n c : Nat) : Option CacheLine := d.mem.cache.find? (fun l => l.n == n && l.c == c)

def Dev.dropLine (d : Dev) (n c : Nat) : Dev :=
  { d with mem := { d.mem with cache := d.mem.cache.filter (fun l => !(l.n == n && l.c == c)) } }

/-- BCH_T as it acts. -/
def Dev.bchT (d : Dev) : Nat := max 4 (min 32 (d.rf MPE_CFG_BCH_T))

/-- The greatest version counter. -/
def verMax : Nat := 2 ^ 48 - 1

/-- The level-1 node of a sector whose counter has risen is dirty in the counter cache. -/
def Dev.nodeDirty (d : Dev) (n level i : Nat) : Dev :=
  let x := d.mch n
  d.setMch n { x with nodes := SMap.set none x.nodes (nodeKey level i) (some true) }

/-! ### What lies in the DRAM (R264, R266 to R270) -/

/-- Physical address of a channel sector's data and of its metadata slot (Table MPE-1). -/
def dataAddr (c : Nat) : Nat := c * 512
def Dev.slotAddr (d : Dev) (c : Nat) : Nat := d.memberBytes * 7 / 8 + c * 64

/-- Nodes of level `k` of a tree over `s` sectors, and how many nodes lie below level `k` in the tree region (R270). -/
def levelNodes (s k : Nat) : Nat := (s + 8 ^ k - 1) / 8 ^ k
def levelStart (s k : Nat) : Nat := ((List.range (k - 1)).map (fun j => levelNodes s (j + 1))).sum

/-- Physical address of a tree node. -/
def Dev.nodeAddr (d : Dev) (level i : Nat) : Nat :=
  d.memberBytes * 63 / 64 + (levelStart d.chanSectors level + i) * 64

/-- STATUS of a slot (Table MPE-2): the t of the write, and POISON. -/
def slotStatus (t : Nat) (poison : Bool) : BitVec 32 := BitVec.ofNat 32 (t % 64 + poison.toNat * 64)

/-- A sector as it goes to DRAM: encrypted under its LBN as the tweak, with its metadata slot of PARITY, TAG and STATUS. -/
def Dev.sectorOut (d : Dev) (n c : Nat) (x : Sector) : Dev :=
  let lbn := d.lbnOf n c
  let cipher := Config.xts x.key (BitVec.ofNat 128 lbn) x.data
  let status := slotStatus x.t x.poison
  let tag := Config.sectorTag x.key cipher lbn x.ver status
  d.out (.sectorOut n lbn (dataAddr c) (d.slotAddr c) cipher (status ++ tag ++ Config.bchParity x.t (status ++ tag ++ cipher)))

/-- The eight 48-bit counters that a node holds: its sectors' versions, or the counters of the nodes below (R270). -/
def Dev.nodeCounters (d : Dev) (n level i : Nat) : BitVec 384 :=
  BitVec.ofNat 384 ((List.range 8).map (fun j =>
    (if level = 1 then (d.sector n (8 * i + j)).ver else SMap.at 0 (d.mch n).ctr (nodeKey (level - 1) (8 * i + j))) % 2 ^ 48 *
      2 ^ (48 * j))).sum

/-- A node as it goes to DRAM: its counters, its tag under the counter that covers it, and its parity. -/
def Dev.nodeOut (d : Dev) (n level i : Nat) : Dev :=
  let c := d.nodeCounters n level i
  let tag := Config.nodeTag (d.mch n).tree c level i (SMap.at 0 (d.mch n).ctr (nodeKey level i))
  d.out (.nodeOut n (d.nodeAddr level i) ((Config.nodeParity (tag ++ c)).setWidth 64 ++ tag ++ c))

/-- Write a sector's ciphertext to DRAM under a key: its counter rises by one (R269 to R271). -/
def Dev.sectorStore (d : Dev) (n c key : Nat) (data : BitVec 4096) (poison : Bool) : Dev :=
  let x := d.sector n c
  let y : Sector := { data := data, ver := x.ver + 1, poison := poison, key := key, t := d.bchT, lost := false }
  ((d.setSector n c y).nodeDirty n 1 (nodeOf 1 c)).sectorOut n c y

/-- Evict a line. A sector whose counter is saturated stays dirty (R273), and so does one beneath a failed node. -/
def Dev.evictLine (d : Dev) (n c : Nat) : Dev :=
  match d.line n c with
  | none => d
  | some l =>
    if !l.dirty then d.dropLine n c
    else if d.beneathFailed n c then d
    else if (d.sector n c).ver = verMax then
      if l.sat then d
      else
        let d := { d with mem := { d.mem with cache := d.mem.cache.map (fun (m : CacheLine) => if m.n == n && m.c == c then { m with sat := true } else m) } }
        d.mpeLog 0x0A .warn (n :: lbnBytes (d.lbnOf n c))
    else (d.sectorStore n c (d.keyFor n c) l.data l.poison).dropLine n c

/-- Write back a node: the counter that covers it rises, and the node that holds that counter is dirty (R271). -/
def Dev.evictNode (d : Dev) (n level i : Nat) : Dev :=
  let x := d.mch n
  match SMap.at none x.nodes (nodeKey level i) with
  | none => d
  | some dirty =>
    let d := d.setMch n { x with nodes := SMap.set none x.nodes (nodeKey level i) none,
                                 ctr := if dirty then SMap.set 0 x.ctr (nodeKey level i) (SMap.at 0 x.ctr (nodeKey level i) + 1) else x.ctr }
    let d := if dirty && decide (level < 8) then d.nodeDirty n (level + 1) (i / 8) else d
    if dirty then d.nodeOut n level i else d

/-- A node leaves the counter cache where it holds more than its 16,384 (R271). -/
def Dev.nodesFit (d : Dev) : Dev :=
  if ((List.range 4).map (fun n => (d.mch n).nodes.length)).sum ≤ 16384 then d
  else match (List.range 4).find? (fun n => !(d.mch n).nodes.isEmpty) with
    | some n => match (d.mch n).nodes with
      | (k, _) :: _ => d.evictNode n (k / 2 ^ 27) (k % 2 ^ 27)
      | [] => d
    | none => d

/-- What the caches write back with a command. -/
def Dev.cachesBack (d : Dev) (b : CacheBack) : Dev :=
  let d := b.sectors.foldl (fun d e => d.evictLine e.1 e.2.toNat) d
  let d := (b.nodes.foldl (fun d e => d.evictNode e.1 e.2.1 e.2.2.toNat) d).nodesFit
  if 4096 < d.mem.cache.length then
    match d.mem.cache with
    | l :: _ => d.evictLine l.n l.c
    | [] => d
  else d

/-- Put a plaintext sector into the cache. -/
def Dev.fillLine (d : Dev) (n c : Nat) (data : BitVec 4096) (poison dirty : Bool) : Dev :=
  let sat := match d.line n c with | some l => l.sat | none => false
  let d := d.dropLine n c
  { d with mem := { d.mem with cache := d.mem.cache ++ [{ n := n, c := c, data := data, poison := poison, dirty := dirty, sat := sat }] } }

/-! ## Reading a sector (R272, R276) -/

/-- What a sector gives its reader. -/
inductive SectorData where
  | good (x : BitVec 4096)
  | poisoned (x : BitVec 4096)       -- stored poison (R272 step 6)
  | untrusted (x : BitVec 4096)      -- R276, R277
  | timeout
  deriving DecidableEq, Repr

/-- A sector that fails its code or its tag. -/
def Dev.sectorBad (d : Dev) (n lbn cause consumer : Nat) : Dev :=
  let d := (d.inc MPE_CNT_UE_COUNT).on (if cause = 1 then MPE_STAT_UE else MPE_STAT_INTEG)
  let d := d.mpeCapture n lbn cause consumer
  d.mpeLog (if cause = 1 then 0x02 else 0x03) .error ((n + 16 * consumer) :: lbnBytes lbn)

/-- The data of a sector that cannot be trusted: free. -/
def Dev.freeSector (d : Dev) : SectorData × Dev := (.untrusted (Config.freeSector d.free), { d with free := d.free + 1 })

/-- Read a sector that misses the cache, in the order of R272. -/
def Dev.sectorFetch (d : Dev) (n c consumer : Nat) (env : SectorEnv) : SectorData × Dev :=
  let lbn := d.lbnOf n c
  if d.beneathFailed n c then d.freeSector
  else if env.timeout then (.timeout, d)
  else
    let d := d.treeWalk n c consumer env
    if d.beneathFailed n c then d.freeSector
    else
      let x := d.sector n c
      if x.ver = 0 then (.good 0, d.fillLine n c 0 false false)
      else if x.lost || env.bch = .uncorrectable then (d.sectorBad n lbn 1 consumer).freeSector
      else
        let d := match env.bch with
          | .corrected b => ((d.inc MPE_CNT_CE_COUNT).on MPE_STAT_CE).mpeLog 0x01 .info [n, lbn, lbn / 2 ^ 8, lbn / 2 ^ 16, b.toNat]
          | _ => d
        if env.tagBad || x.key != d.keyFor n c then (d.sectorBad n lbn 2 consumer).freeSector
        else (if x.poison then .poisoned x.data else .good x.data, d.fillLine n c x.data x.poison false)

/-- Read a sector, from the cache where it lies there. -/
def Dev.sectorRead (d : Dev) (n c consumer : Nat) (env : SectorEnv) : SectorData × Dev :=
  match d.line n c with
  | some l => (if l.poison then .poisoned l.data else .good l.data, d)
  | none => d.sectorFetch n c consumer env

/-! ## Requests (R265, R272, R273) -/

def SectorEnv.clean : SectorEnv := { nodes := [], bch := .clean, tagBad := false, timeout := false }

/-- The LBNs a range of protected offsets touches. -/
def rangeLbns (ofs len : Nat) : List Nat :=
  if len = 0 then [] else (List.range ((ofs + len - 1) / 512 + 1 - ofs / 512)).map (fun i => ofs / 512 + i)

/-- A request beyond the protected capacity, or while CHMASK is zero (MPE 0x0C). -/
def Dev.beyondCapacity (d : Dev) (port ofs : Nat) : Dev :=
  (d.on MPE_STAT_REFUSED).mpeLog 0x0C .warn [port, ofs / 2 ^ 32, ofs / 2 ^ 24, ofs / 2 ^ 16, 0]

/-- The checks a request passes before any sector is read: none, or the refusing device. -/
def Dev.requestBar (d : Dev) (port ofs len : Nat) : Option Dev :=
  if d.mpeCapacity < ofs + len then some (d.beyondCapacity port ofs)
  else
    let places := (rangeLbns ofs len).map (fun l => (l, d.placeOf l))
    if places.any (fun p => !d.chanServes p.2.1) then some (d.on MPE_STAT_REFUSED)
    else match places.findSome? (fun p => (d.retiredBy p.2.1 p.2.2).map (fun e => (p.1, p.2.1, e))) with
      | some (l, n, e) =>
        let d := ((d.on (MPE_RETn_e_HIT n e)).on MPE_STAT_RETIRED).on MPE_STAT_REFUSED
        some (d.mpeLog 0x08 .warn [n, e, l, l / 2 ^ 8, l / 2 ^ 16])
      | none => none

/-- `n` bytes at `o` of a sector. -/
def sectorBytes (x : BitVec 4096) (o n : Nat) : List Byte := (List.range n).map (fun i => (x >>> (8 * (o + i))).setWidth 8)

/-- A sector with bytes replaced from `o` on. -/
def sectorPut (x : BitVec 4096) (o : Nat) (b : List Byte) : BitVec 4096 :=
  let m : BitVec 4096 := BitVec.ofNat 4096 ((2 ^ (8 * b.length) - 1) * 2 ^ (8 * o))
  (x &&& ~~~m) ||| BitVec.ofNat 4096 (leNat b * 2 ^ (8 * o))

/-- What has been read of a request: its bytes, their poison, whether a sector cannot be trusted, whether one timed
out. -/
structure ReadAcc where
  bytes   : List Byte
  poison  : List Bool
  bad     : Bool
  timeout : Bool
  deriving DecidableEq, Repr

/-- Read a range, sector by sector. -/
def Dev.rangeRead (d : Dev) (ofs len consumer : Nat) (envs : List SectorEnv) : ReadAcc × Dev :=
  (rangeLbns ofs len).zipIdx.foldl (fun (acc, d) (l, i) =>
    if acc.timeout then (acc, d) else
    let (n, c) := d.placeOf l
    let (r, d) := d.sectorRead n c consumer (envs.getD i SectorEnv.clean)
    let o := if ofs / 512 = l then ofs % 512 else 0
    let stop := if (ofs + len - 1) / 512 = l then (ofs + len - 1) % 512 + 1 else 512
    match r with
    | .timeout => ({ acc with timeout := true }, d)
    | .good x => ({ acc with bytes := acc.bytes ++ sectorBytes x o (stop - o), poison := acc.poison ++ List.replicate (stop - o) false }, d)
    | .poisoned x | .untrusted x =>
      ({ acc with bytes := acc.bytes ++ sectorBytes x o (stop - o), poison := acc.poison ++ List.replicate (stop - o) true, bad := true }, d))
    ({ bytes := [], poison := [], bad := false, timeout := false }, d)

/-- The sector cache as it was before a request that timed out. -/
def Dev.cacheKeep (d d0 : Dev) : Dev := { d with mem := { d.mem with cache := d0.mem.cache } }

/-- A read request of a bridge data channel or of a mover. -/
def execSectorRead (port : Fin 16) (mover : Bool) (addr : BitVec 40) (len : Nat) (envs : List SectorEnv) (back : CacheBack)
    (s : State) : Out :=
  s.act (fun d =>
    if len = 0 then d.out (.mpeRead port stDONE [] []) else
    match d.requestBar port (dramOfs addr.toNat) len with
    | some d => d.out (.mpeRead port stACCESS [] [])
    | none =>
      let (r, d1) := d.rangeRead (dramOfs addr.toNat) len (if mover then 3 else 0) envs
      if r.timeout then (d1.cacheKeep d).out (.mpeRead port stTIMEOUT [] [])
      else if mover && r.bad then (d1.cachesBack back).out (.mpeRead port stPOISON [] [])
      else (d1.cachesBack back).out (.mpeRead port stDONE r.bytes r.poison))

/-- One sector's part of a write request: the device after the reads it needs, and the status that refuses it, or the
sector's new contents. -/
def Dev.writePart (d : Dev) (ofs : Nat) (b : List Byte) (l : Nat) (env : SectorEnv) : (Nat ⊕ (Nat × Nat × BitVec 4096)) × Dev :=
  let (n, c) := d.placeOf l
  let o := if ofs / 512 = l then ofs % 512 else 0
  let first := l * 512 + o - ofs
  let part := (b.drop first).take (512 - o)
  if d.beneathFailed n c then (.inl stPOISON, d)
  else if (match d.line n c with | some x => x.sat | none => false) then (.inl stFULL, d)
  else if part.length = 512 then (.inr (n, c, BitVec.ofNat 4096 (leNat part)), d)
  else
    match d.sectorRead n c 5 env with
    | (.timeout, d) => (.inl stTIMEOUT, d)
    | (.good x, d) => (.inr (n, c, sectorPut x o part), d)
    | (.poisoned _, d) | (.untrusted _, d) => (.inl stPOISON, d.mpeLog 0x0B .warn (n :: lbnBytes l))

/-- Every part of a write: the first refusing status, or the sectors' new contents. -/
def Dev.writeParts (d : Dev) (ofs : Nat) (b : List Byte) (envs : List SectorEnv) : (Nat ⊕ List (Nat × Nat × BitVec 4096)) × Dev :=
  (rangeLbns ofs b.length).zipIdx.foldl (fun (acc, d) (l, i) =>
    match acc with
    | .inl st => (.inl st, d)
    | .inr done =>
      match d.writePart ofs b l (envs.getD i SectorEnv.clean) with
      | (.inl st, d) => (.inl st, d)
      | (.inr x, d) => (.inr (done ++ [x]), d)) (.inr [], d)

/-- A whole write request: refused with its sectors unchanged, or every sector replaced in the cache. -/
def Dev.mpeWrite (d : Dev) (ofs : Nat) (b : List Byte) (poison : Bool) (envs : List SectorEnv) : Nat × Dev :=
  match d.writeParts ofs b envs with
  | (.inl st, d1) => (st, (if st = stTIMEOUT then d1.cacheKeep d else d1).on MPE_STAT_REFUSED)
  | (.inr xs, d1) => (stDONE, xs.foldl (fun d x => d.fillLine x.1 x.2.1 x.2.2 poison true) d1)

def execSectorWrite (port : Fin 16) (addr : BitVec 40) (bytes : List Byte) (poison : Bool) (envs : List SectorEnv)
    (back : CacheBack) (s : State) : Out :=
  s.act (fun d =>
    if bytes.length = 0 then d.out (.mpeWrite port stDONE) else
    match d.requestBar port (dramOfs addr.toNat) bytes.length with
    | some d => d.out (.mpeWrite port stACCESS)
    | none =>
      let (st, d) := d.mpeWrite (dramOfs addr.toNat) bytes poison envs
      (d.cachesBack back).out (.mpeWrite port st))

/-- A control-bus access to the DRAM window (R265, Table MPE-3); it uses port 14. -/
def Dev.windowAccess (d : Dev) (w : Nat) (write : Option Word) (fetch : Bool) (env : SectorEnv) (back : CacheBack) : Dev :=
  let ofs := d.rf MPE_WIN_BASE_BASE * 2 ^ 20 + w / 4 * 4
  match d.requestBar 14 ofs 4 with
  | some d => d.err
  | none =>
    match write with
    | some v =>
      let (st, d) := d.mpeWrite ofs (leBytes 4 v.toNat) false [env]
      let d := d.cachesBack back
      if st = stDONE then d.ok else d.err
    | none =>
      let (r, d1) := d.rangeRead ofs 4 (if fetch then 2 else 1) [env]
      let x := BitVec.ofNat 32 (leNat r.bytes)
      if r.timeout then (d1.cacheKeep d).err
      else
        let d := d1.cachesBack back
        if !r.bad then { d with resp := .data x }
        else if fetch then { d with resp := .poisoned x }
        else { d with resp := .dataError x }

def execDramWindowAccess (_rq : Requester) (ofs : BitVec 31) (write : Option Word) (fetch : Bool) (env : SectorEnv)
    (back : CacheBack) (s : State) : Out :=
  s.busAct (fun d => match d.barred (0x80000000 + ofs.toNat) with
    | some d => d
    | none => d.windowAccess ofs.toNat write fetch env back)

/-! ## Members, initialisation and the ports (R243, R274, R275) -/

/-- A write of MPE_CFG. CHMASK changes only while every channel is OFF, to 1, 2 or 4 channels; a refused change leaves
it (MPE 0x07: the spec names neither a channel nor a status, so both bytes are free). -/
def Dev.mpeCfgWrite (d : Dev) (v : Word) : Dev :=
  let m := fieldGet 0 4 v
  let old := d.rf MPE_CFG_CHMASK
  let count := ((List.range 4).filter (fun i => m.testBit i)).length
  let d := d.plainWrite MPE_CFG v
  if m = old then d
  else if (List.range 4).any (fun n => d.estate n != eOFF) || !([1, 2, 4].contains count) then
    let (w, d) := d.draw
    ((d.wf MPE_CFG_CHMASK old).on MPE_STAT_REFUSED).mpeLog 0x07 .warn [w.toNat, w.toNat / 256, 2, 0, 0]
  else d.mpeFigures

def execChmaskWrite (_rq : Requester) (v : Word) (s : State) : Out := s.busWrite MPE_CFG (fun d => d.mpeCfgWrite v)

/-- The keys that a channel initialises with (R274): the first time since the start of the device those drawn then, later a
fresh set of its own. -/
def Dev.initKey (d : Dev) (n : Nat) : Nat × Dev :=
  if d.mem.begun.contains n then d.drawKey n else (d.mem.start, { d with mem := { d.mem with begun := n :: d.mem.begun } })

/-- A member channel whose controller enters RUN initialises, if it is OFF: it takes its keys and writes its counter tree
with zero counters. While the random source has failed every channel stays OFF. -/
def Dev.channelInit (d : Dev) (n : Nat) : Dev :=
  if d.estate n != eOFF || !d.members.contains n || d.bit MPE_STAT_RNG_FAIL then d
  else
    let (k, d) := d.initKey n
    let d := d.setMch n { MpeChan.off with key := k, tree := k, cutSlot := (d.mch n).cutSlot }
    let d := { d with mem := { d.mem with cache := d.mem.cache.filter (fun l => l.n != n) } }
    (d.off (MPE_CHn_STAT_TREE_FAIL n)).wf (MPE_CHn_STAT_STATE n) eINIT

/-- The tree is written: READY (MPE 0x09). -/
def execChannelInitDone (n : Fin 4) (s : State) : Out :=
  s.act (fun d =>
    if d.estate n = eINIT then (d.wf (MPE_CHn_STAT_STATE n) eREADY).mpeLog 0x09 .info [n, 0, 0, 0, 0] else d)

/-- The channel's protection ends with its domain: keys, root and contents are lost (R275). -/
def Dev.mpeOff (d : Dev) (n : Nat) : Dev :=
  let d := d.setMch n { MpeChan.off with cutSlot := (d.mch n).cutSlot }
  let d := { d with mem := { d.mem with cache := d.mem.cache.filter (fun l => l.n != n) } }
  ((d.off (MPE_CHn_STAT_TREE_FAIL n)).wf (MPE_CHn_STAT_STATE n) eOFF).mpeFigures

/-- A write of DMC_CFG (R243): RANKS and DENSITY change only in OFF and STANDBY; EN opens and closes the ports. -/
def Dev.dmcCfgWrite (d : Dev) (n : Nat) (v : Word) : Dev :=
  let q := d.qstate n
  let shape := fieldGet 1 2 v
  let old := d.rd (DMC_CFG n)
  let held := shape != fieldGet 1 2 old && q != qOFF && q != qSTANDBY
  let v' := if held then fieldSet 1 2 (fieldGet 1 2 old) v else v
  let d := if held then d.dmcWriteRefused n 0 else d
  let was := d.bit (DMC_CFG_EN n)
  if v.getLsbD 0 && !was then
    if q = qSTANDBY && d.isTrained n (d.rf (DMC_STAT_SET n)) then
      let d := (d.plainWrite (DMC_CFG n) v').wf (DMC_STAT_STATE n) qRUN
      ((d.refreshFrom n).setDmc n { ((d.refreshFrom n).dmc n) with closing := false, rateAt := d.slate }).mpeFigures.channelInit n
    else
      (d.plainWrite (DMC_CFG n) (v' &&& ~~~(1 : Word))).mpeFigures.dmcWriteRefused n 0
  else
    let d := (d.plainWrite (DMC_CFG n) v').mpeFigures
    if !v.getLsbD 0 && (q == qRUN || q == qCHANGING) then
      (d.setDmc n { (d.dmc n) with closing := true }).dmcClosed n
    else d

def execPortsOpen (_rq : Requester) (n : Fin 4) (v : Word) (s : State) : Out :=
  s.busWrite (DMC_CFG n) (fun d => d.dmcCfgWrite n (v ||| 1))

def execPortsClose (_rq : Requester) (n : Fin 4) (v : Word) (s : State) : Out :=
  s.busWrite (DMC_CFG n) (fun d => d.dmcCfgWrite n (v &&& ~~~(1 : Word)))

/-- The channel clock is lost in RUN or CHANGING: FAILED, and the devices' contents are lost (R258). -/
def Dev.clockLoss (d : Dev) (n : Nat) : Dev :=
  let q := d.qstate n
  if !d.dmcLive n || (q != qRUN && q != qCHANGING) then d else
  let x := d.mch n
  let d := d.setMch n { x with sectors := x.sectors.map (fun e => (e.1, { e.2 with lost := true })) }
  let d := d.setDmc n { (d.dmc n) with rows := [], postpone := [], closing := false }
  ((d.wf (DMC_STAT_STATE n) qFAILED).on (DMC_STAT_CLK_FAIL n)).dmcLog n 0x09 .error [q, d.rf (DMC_STAT_SET n), 0, 0, 0]

def execDramClockLoss (n : Fin 4) (s : State) : Out := s.act (fun d => d.clockLoss n)

/-! ## Key rotation (R278, R279) -/

/-- Request a KEY Cut: refused with ACCESS unless the channel is READY; otherwise the new keys are drawn and the Cut is
confirmed at once. -/
def Dev.armKey (d : Dev) (n t : Nat) : (Nat ⊕ Nat) × Dev :=
  if d.estate n != eREADY || (d.liveCut kKEY n).isSome then
    let d := (d.on MPE_STAT_REFUSED).mpeLog 0x07 .warn [n, stACCESS, 0, 0, 0]
    (.inr stACCESS, d.cutRefused kKEY n stACCESS)
  else
    match d.requestCut kKEY n t with
    | (.inr st, d) => (.inr st, (d.on MPE_STAT_REFUSED).mpeLog 0x07 .warn [n, st, 0, 0, 0])
    | (.inl i, d) =>
      let (k, d) := d.drawKey n
      (.inl i, (d.setMch n { (d.mch n) with newKey := k, cutSlot := some i }).confirmCut i)

/-- A write of MPE_CHn_KEY_CTL. -/
def Dev.keyCtlWrite (d : Dev) (n : Nat) (v : Word) : Dev :=
  let d := d.plainWrite (MPE_CHn_KEY_CTL n) v
  let d := if v.getLsbD 0 then
      match d.armKey n (d.rd64 (MPE_CHn_KEY_TICK_LO n) (MPE_CHn_KEY_TICK_HI n)) with
      | (.inr st, d) => d.wf (MPE_CHn_KEY_CTL_STATUS n) st
      | (.inl i, d) => (d.wf (MPE_CHn_KEY_CTL_SLOT n) i).wf (MPE_CHn_KEY_CTL_STATUS n) stDONE
    else d
  if v.getLsbD 1 then
    match (d.mch n).cutSlot with
    | some i => if (d.cut i).kind == kKEY && (d.cut i).target == n && d.cancellable i then d.failCut i stABORT false else d
    | none => d
  else d

def execKeyCutArm (_rq : Requester) (n : Fin 4) (v : Word) (s : State) : Out :=
  s.busTimed (fun d => d.access (MPE_CHn_KEY_CTL n) (fun d => d.keyCtlWrite n (v ||| 1)))

def execKeyCutCancel (_rq : Requester) (n : Fin 4) (v : Word) (s : State) : Out :=
  s.busTimed (fun d => d.access (MPE_CHn_KEY_CTL n) (fun d => d.keyCtlWrite n (v ||| 2)))

/-- The KEY Cut of a slot at its tick: ROTATING with B = 0, or ABORT where the channel has left READY (Table MPE-4). -/
def Dev.keyCutExecute (d : Dev) (i : Nat) : Dev :=
  let n := (d.cut i).target
  if d.estate n = eREADY then
    let d := d.cutExecuted i
    let d := d.setMch n { (d.mch n) with lastRot := none }
    (d.wf (MPE_CHn_STAT_STATE n) eROTATING).wf (MPE_CHn_BND_BOUND n) 0
  else (d.failCut i stABORT true).mpeLog 0x07 .warn [n, stABORT, 1, 0, 0]

/-- B comes to `b`; at S the old keys are erased and the rotation is complete. -/
def Dev.boundTo (d : Dev) (n b : Nat) : Dev :=
  if d.chanSectors ≤ b then
    let x := d.mch n
    let d := d.setMch n { x with key := x.newKey, lastRot := none }
    let d := ((d.wf (MPE_CHn_STAT_STATE n) eREADY).wf (MPE_CHn_BND_BOUND n) d.chanSectors).on MPE_STAT_ROT_DONE
    d.mpeLog 0x06 .info [n, d.rf (MPE_CHn_STAT_KEYGEN n), 0, 0, 0]
  else d.wf (MPE_CHn_BND_BOUND n) b

/-- ROT_GAP as it acts. -/
def Dev.rotGap (d : Dev) : Nat := max 4 (d.rf MPE_CFG_ROT_GAP)

/-- One step of the walk (R277, R279). -/
def Dev.rotateStep (d : Dev) (n : Nat) (env : SectorEnv) : Dev :=
  let b := d.rf (MPE_CHn_BND_BOUND n)
  let node := (List.range 8).map (fun i => b / 8 * 8 + i)
  if b % 8 = 0 && (node.all (fun c => (d.sector n c).ver == 0) || node.all (fun c => (d.retiredBy n c).isSome)) then
    d.boundTo n (b + 8)
  else if (d.retiredBy n b).isSome || (d.sector n b).ver == verMax then d.boundTo n (b + 1)
  else if (match (d.mch n).lastRot with | some t => decide (d.slate < t + d.rotGap) | none => false) then d
  else
    let new := (d.mch n).newKey
    let start := d.setMch n { (d.mch n) with lastRot := some d.slate }
    match start.sectorRead n b 4 env with
    | (.timeout, d1) => d1.cacheKeep d
    | (.good x, d1) => ((d1.sectorStore n b new x false).fillLine n b x false false).boundTo n (b + 1)
    | (.poisoned x, d1) => ((d1.sectorStore n b new x true).fillLine n b x true false).boundTo n (b + 1)
    | (.untrusted x, d1) =>
      if d1.beneathFailed n b then d1.boundTo n (b + 1)
      else (d1.sectorStore n b new x true).boundTo n (b + 1)

def execRotationRewrite (n : Fin 4) (env : SectorEnv) (back : CacheBack) (s : State) : Out :=
  s.act (fun d =>
    if d.estate n != eROTATING || !d.dmcLive n || d.qstate n != qRUN then d
    else (d.rotateStep n env).cachesBack back)

/-! ## Retirement (R280) -/

def execRetireEntryWrite (_rq : Requester) (n : Fin 4) (e : BitVec 8) (v : Word) (s : State) : Out :=
  s.busWrite (MPE_RETn_e n e.toNat) (fun d => d.plainWrite (MPE_RETn_e n e.toNat) v)

end Sys2Proof.Machine
end

