-- ==== Sys2Proof/Machine/Mover.lean ====
section
/-! DEFINITION. The Dolly movers (06_signal_engines, R151 to R154). -/
namespace Sys2Proof.Machine
open Reg

/-- Mover states (DLM_STAT). -/
def vIDLE : Nat := 0
def vBUSY : Nat := 1
def vHALTED : Nat := 2

/-- The status ALIGN, added for this block (R151). -/
def stALIGN : Nat := 8

/-- A word of a mover's descriptor ring. -/
def Dev.ringWord (d : Dev) (n w : Nat) : Word := SMap.at 0 d.se.ring (n * 128 + w)
def Dev.setRingWord (d : Dev) (n w : Nat) (v : Word) : Dev :=
  { d with se := { d.se with ring := SMap.set 0 d.se.ring (n * 128 + w) v } }

/-- The 32 bytes of descriptor `i` as one number, byte 0 lowest (Table SE-13). -/
def Dev.descriptor (d : Dev) (n i : Nat) : Nat :=
  ((List.range 8).map (fun k => (d.ringWord n (i * 8 + k)).toNat * 2 ^ (32 * k))).sum

def descField (x lo w : Nat) : Nat := x / 2 ^ lo % 2 ^ w
def descLen (x : Nat) : Nat := descField x 0 13
def descSrcSpace (x : Nat) : Nat := descField x 16 4
def descDstSpace (x : Nat) : Nat := descField x 20 4
def descSrc (x : Nat) : Nat := descField x 32 40
def descDst (x : Nat) : Nat := descField x 72 40
def descAfter (x : Nat) : Nat := descField x 128 64
def descEvent (x : Nat) : Bool := descField x 24 1 == 1

/-- Are the reserved fields zero? STATUS [7:4] is one of them. -/
def descReservedZero (x : Nat) : Bool :=
  descField x 13 3 == 0 && descField x 25 7 == 0 && descField x 116 12 == 0 && descField x 192 64 == 0

/-- The size of a space (Table SE-14). -/
def spaceSize (s : Nat) : Nat := if s = 0 then 2 ^ 38 else if s = 1 then 262144 else if s = 2 then 65536 else 32768

/-- Does a range lie in its space? A DRAM address is a 40-bit one of R26. -/
def inSpace (s a len : Nat) : Bool :=
  if s = 0 then decide (dramOfs a + len ≤ spaceSize 0) else decide (a + len ≤ spaceSize s)

/-- The checks of R151 in their order; `assigned`: a bridge data channel is assigned to the mover. -/
def descCheck (x : Nat) (assigned : Bool) : Option Nat :=
  let s := descSrcSpace x
  let t := descDstSpace x
  let len := descLen x
  if len = 0 then some stDONE
  else if 3 < s || 3 < t || !descReservedZero x || s == 2 || s == 3 || (s == 0 && t == 0) || ((s == 0 || t == 0) && !assigned) then
    some stACCESS
  else if len % 128 != 0 || descSrc x % 128 != 0 || descDst x % 128 != 0 then some stALIGN
  else if 4096 < len || !inSpace s (descSrc x) len || !inSpace t (descDst x) len then some stLENGTH
  else none

/-- A descriptor ends: STATUS in it and in LAST, HEAD advances, and what its status raises (R152, R153). -/
def Dev.descEnd (d : Dev) (n st : Nat) : Dev :=
  let h := d.rf (DLM_STAT_HEAD n)
  let x := d.descriptor n h
  let w := d.ringWord n (h * 8 + 3)
  let d := d.setRingWord n (h * 8 + 3) (fieldSet 16 8 st w)
  let d := { d with se := { d.se with move := SMap.set none d.se.move n none } }
  let d := ((d.wf (DLM_STAT_LAST n) st).wf (DLM_STAT_HEAD n) ((h + 1) % 16)).wf (DLM_STAT_STATE n) vIDLE
  let d := if descEvent x && d.bit (DLM_CTL_EVT_EN n) then d.evPulse (128 + n) else d
  if st = stDONE then
    (((d.on (DLM_STAT_DONE n)).inc (DLM_CNT_DONE_COUNT n)).inc (CSH_ENGn_MVDONE_COUNT n))
  else
    let d := d.on (DLM_STAT_ERR n)
    if st = stPOISON then
      ((d.wf (DLM_STAT_STATE n) vHALTED).on (DLM_STAT_HALT n)).log 0x19 0x02 .error [n, h, descSrcSpace x, 0, 0]
    else if st = stABORT then d
    else d.log 0x19 0x01 .warn [n, h, st, 0, 0]

/-- Read a scratchpad block into the staging buffer; `errs`: the elements whose code finds an error, and whether it is
uncorrectable. None where a word is poisoned. -/
def Dev.stageSpad (d : Dev) (n a len : Nat) (errs : SMap Bool) : Option (List Byte) × Dev :=
  let es := (List.range (len / 4)).map (fun i => a / 4 + i)
  let d := es.foldl (fun d e =>
    match errs.find? (fun p => p.1 == e) with
    | some (_, true) => d.seUe n 0 e
    | some (_, false) => d.seCe n 0 e
    | none => d) d
  if es.any (fun e => (d.spadElem n e).p || errs.any (fun p => p.1 == e && p.2)) then (none, d)
  else (some (es.flatMap (fun e => leBytes 4 (d.spadElem n e).v.toNat)), d)

/-- The source read whole: its bytes, or the status that ends the descriptor. -/
def Dev.descRead (d : Dev) (n x : Nat) (errs : SMap Bool) (envs : List SectorEnv) (back : CacheBack) : (Nat ⊕ List Byte) × Dev :=
  if descSrcSpace x = 0 then
    let ofs := dramOfs (descSrc x)
    match d.requestBar 0 ofs (descLen x) with
    | some d => (.inl stACCESS, d)
    | none =>
      let (r, d1) := d.rangeRead ofs (descLen x) 3 envs
      if r.timeout then (.inl stTIMEOUT, d1.cacheKeep d)
      else if r.bad then (.inl stPOISON, d1.cachesBack back)
      else (.inr r.bytes, d1.cachesBack back)
  else
    match d.stageSpad n (descSrc x) (descLen x) errs with
    | (some b, d) => (.inr b, d)
    | (none, d) => (.inl stPOISON, d)

/-- The mover and its engine's group: up and clocked. -/
def Dev.moverLive (d : Dev) (n : Nat) : Bool := d.domainUp (19 + n / 16) && !d.engineIsolated n && d.clocked (DLM_CTL n)

/-- The descriptor at HEAD starts (R151): checked in order, and its block read whole into the staging buffer (R152). -/
def execDescriptorStart (n : Fin 64) (assigned : Bool) (errs : SMap Bool) (envs : List SectorEnv) (back : CacheBack)
    (s : State) : Out :=
  s.act (fun d =>
    let h := d.rf (DLM_STAT_HEAD n)
    let x := d.descriptor n h
    if !d.moverLive n || !d.bit (DLM_CTL_EN n) || d.rf (DLM_STAT_STATE n) != vIDLE || h == d.rf (DLM_TAIL_TAIL n) ||
        decide (d.slate < descAfter x) then d
    else match descCheck x assigned with
      | some st => d.descEnd n st
      | none =>
        match d.descRead n x errs envs back with
        | (.inl st, d) => d.descEnd n st
        | (.inr b, d) =>
          { d with se := { d.se with move := SMap.set none d.se.move n (some b) } }.wf (DLM_STAT_STATE n) vBUSY)

/-- Write the staged block to an engine memory. -/
def Dev.moveOut (d : Dev) (n space a : Nat) (b : List Byte) : Dev :=
  (List.range (b.length / 4)).foldl (fun d i =>
    let w : Word := BitVec.ofNat 32 (leNat (bytesAt b (4 * i) 4))
    let e := a / 4 + i
    if space = 1 then d.setSpad n e { v := w, p := false }
    else d.ramExtWrite n (if space = 2 then .coefficient else .program) e w) d

/-- The descriptor in service writes its whole destination and ends (R152, R153). -/
def execDescriptorComplete (n : Fin 64) (envs : List SectorEnv) (back : CacheBack) (s : State) : Out :=
  s.act (fun d =>
    if !d.moverLive n then d else
    match SMap.at none d.se.move n with
    | none => d
    | some b =>
      let x := d.descriptor n (d.rf (DLM_STAT_HEAD n))
      if descDstSpace x = 0 then
        let ofs := dramOfs (descDst x)
        match d.requestBar 0 ofs b.length with
        | some d => d.descEnd n stACCESS
        | none =>
          let (st, d) := d.mpeWrite ofs b false envs
          (d.cachesBack back).descEnd n st
      else (d.moveOut n (descDstSpace x) (descDst x) b).descEnd n stDONE)

def execDlmTailWrite (_rq : Requester) (n : Fin 64) (v : Word) (s : State) : Out :=
  s.busWrite (DLM_TAIL n) (fun d => d.plainWrite (DLM_TAIL n) v)

/-- A write of DLM_CTL: RESUME leaves HALTED (R153). -/
def Dev.dlmCtlWrite (d : Dev) (n : Nat) (v : Word) : Dev :=
  let d := d.plainWrite (DLM_CTL n) v
  if v.getLsbD 1 && d.rf (DLM_STAT_STATE n) == vHALTED then d.wf (DLM_STAT_STATE n) vIDLE else d

def execMoverResume (_rq : Requester) (n : Fin 64) (v : Word) (s : State) : Out :=
  s.busWrite (DLM_CTL n) (fun d => d.dlmCtlWrite n (v ||| 2))

/-- The mover of an engine whose group goes off: a descriptor in service ends with ABORT (Table SE-18). -/
def Dev.moverAbort (d : Dev) (n : Nat) : Dev := if d.rf (DLM_STAT_STATE n) = vBUSY then d.descEnd n stABORT else d

end Sys2Proof.Machine
end

