-- ==== Sys2Proof/Machine/Clocks.lean ====
section
/-! DEFINITION. The clock controller (17_clocks_and_power): the crystal monitor, fabric synthesisers, clock enables and the
frequency counter. -/
namespace Sys2Proof.Machine
open Reg

def Dev.setGaf (d : Dev) (x : Gaf) : Dev := { d with gaf := x }
def Dev.ckcLog (d : Dev) (code : Nat) (sev : Sev) (det : List Nat) : Dev := d.log 0x0F code sev det

/-- A refused enable bit or USE_XTAL. -/
def Dev.ckcRefused (d : Dev) (a bit : Nat) : Dev :=
  (d.on CKC_STAT_REFUSED).ckcLog 0x04 .warn [a - CKC_CTL, (a - CKC_CTL) / 256, bit, 0, 0]

/-! ## The crystal (R371, R372) -/

/-- D4 moves to the crystal PLL. -/
def Dev.d4ToCrystal (d : Dev) (how : Nat) : Dev :=
  if d.bit CKC_STAT_ON_RC then (d.off CKC_STAT_ON_RC).ckcLog 0x02 .note [how, 0, 0, 0, 0] else d

/-- The crystal fails. -/
def Dev.crystalFails (d : Dev) (count : Nat) : Dev :=
  let d := d.setGaf { d.gaf with xtalGood := 0, xtalFailed := true }
  let d := ((d.off CKC_STAT_XTAL_OK).on CKC_STAT_ON_RC).on CKC_STAT_XTAL_FAIL
  let d := (d.nmi 1).ckcLog 0x01 .error [count, count / 256, 0, 0, 0]
  (List.range 4).foldl Dev.clockLoss d

/-- A good window. -/
def Dev.goodWindow (d : Dev) : Dev :=
  let d := d.setGaf { d.gaf with xtalBad := 0 }
  if d.bit CKC_STAT_XTAL_OK then d
  else
    let n := d.gaf.xtalGood + 1
    let d := d.setGaf { d.gaf with xtalGood := n }
    if n < (if d.gaf.xtalFailed then 64 else 8) then d
    else
      let auto := d.bit CKC_CTL_AUTO && !d.gaf.xtalFailed
      let d := (d.setGaf { d.gaf with xtalEver := true }).on CKC_STAT_XTAL_OK
      if auto then (d.d4ToCrystal 0).off CKC_CTL_AUTO else d

/-- A window of 4,096 D0 cycles ends with `count` crystal edges. -/
def Dev.crystalWindow (d : Dev) (count : Nat) : Dev :=
  if 2091 ≤ count ∧ count ≤ 2175 then d.goodWindow
  else
    let n := d.gaf.xtalBad + 1
    let d := d.setGaf { d.gaf with xtalGood := 0, xtalBad := min n 2 }
    if 2 ≤ n ∧ d.bit CKC_STAT_XTAL_OK then d.crystalFails count else d

def execCrystalWindow (count : Nat) (s : State) : Out :=
  s.act (fun d => if d.gaf.d0Stop || !d.gaf.good then d else d.crystalWindow count)

/-- A write of CKC_CTL. -/
def Dev.ckcCtlWrite (d : Dev) (v : Word) : Dev :=
  let d := d.plainWrite CKC_CTL v
  if !v.getLsbD 0 then d
  else if d.bit CKC_STAT_XTAL_OK then d.d4ToCrystal 1
  else d.ckcRefused CKC_CTL 0

def execUseXtal (_rq : Requester) (v : Word) (s : State) : Out := s.busWrite CKC_CTL (fun d => d.ckcCtlWrite (v ||| 1))

/-! ## Fabric synthesisers (R374, R375) -/

/-- The fabric clock limit of the speed grade, in MHz (Table SCOPE-3). -/
def fabricLimit : Nat := if Config.grade2 then 875 else 1000

/-- Does P cycles in Q Slate ticks lie from 100 MHz to the limit? -/
def synthInRange (p q limit : Nat) : Bool :=
  q != 0 && decide (100 * 100 * q ≤ 24576 * p) && decide (24576 * p ≤ limit * 100 * q)

/-- Does a loaded region use the synthesiser? -/
def Dev.synthInUse (d : Dev) (f : Nat) : Bool :=
  d.cfg.active.any (fun e =>
    match d.frameRegion e.1 with
    | some r => d.rstate r == rLOADED && Config.frameUsesSynth e.2 f
    | none => false)

/-- What refuses a synthesiser write: the cause of CKC 0x07. -/
def Dev.synthBar (d : Dev) (f : Nat) (v : Word) : Option Nat :=
  if d.synthInUse f then some 1
  else if [0, 1].any (fun die => d.capActive die && d.rf (FAB_CAP_CTL_CLK die) == f) then some 2
  else if v.getLsbD 31 && !synthInRange (fieldGet 0 16 v) (fieldGet 16 14 v) fabricLimit then some 0
  else none

def Dev.synLock (d : Dev) (f : Nat) (b : Bool) : Dev := d.wb ⟨CKC_STAT, 8 + f, 1⟩ b
def Dev.synLocked (d : Dev) (f : Nat) : Bool := d.bit ⟨CKC_STAT, 8 + f, 1⟩

/-- A write of CKC_SYNf_CFG: the synthesiser locks anew. -/
def Dev.synthWrite (d : Dev) (f : Nat) (v : Word) : Dev :=
  match d.synthBar f v with
  | some c => (d.on CKC_STAT_REFUSED).ckcLog 0x07 .warn [f, c, 0, 0, 0]
  | none =>
    let same := fieldGet 0 30 v == fieldGet 0 30 (d.rd (CKC_SYNf_CFG f)) && v.getLsbD 31 && d.bit (CKC_SYNf_CFG_EN f)
    let d := d.plainWrite (CKC_SYNf_CFG f) v
    if same then d
    else (d.synLock f false).setGaf { d.gaf with synRelock := SMap.set false d.gaf.synRelock f false }

def execSynthConfigWrite (_rq : Requester) (f : Fin 8) (v : Word) (s : State) : Out :=
  s.busWrite (CKC_SYNf_CFG f) (fun d => d.synthWrite f v)

/-- A synthesiser locks: its first edge is the first of a TICK cycle, that of the next tick (R375). -/
def Dev.synLocks (d : Dev) (f : Nat) : Dev :=
  ({ d with fab := { d.fab with ran := SMap.set 0 d.fab.ran f 64 } }).synLock f true

def execSynthLock (f : Fin 8) (s : State) : Out :=
  s.act (fun d => if d.bit (CKC_SYNf_CFG_EN f) && !SMap.at false d.gaf.synRelock f && !d.synLocked f then d.synLocks f else d)

/-- A synthesiser loses lock and stops its output. -/
def execSynthUnlock (f : Fin 8) (s : State) : Out :=
  s.act (fun d =>
    if !d.synLocked f then d else
    let d := d.setGaf { d.gaf with synRelock := SMap.set false d.gaf.synRelock f true }
    (((d.synLock f false).on CKC_STAT_SYN_UNLOCK).ckcLog 0x05 .error [f, 0, 0, 0, 0]).capClockStops f)

def execSynthRelock (f : Fin 8) (lost : BitVec 16) (s : State) : Out :=
  s.act (fun d =>
    if !SMap.at false d.gaf.synRelock f || !d.bit (CKC_SYNf_CFG_EN f) then d else
    let d := d.setGaf { d.gaf with synRelock := SMap.set false d.gaf.synRelock f false }
    (d.synLocks f).ckcLog 0x06 .info [f, lost.toNat, lost.toNat / 256, 0, 0])

/-! ## Clock enables (R376) -/

/-- Is the block of an enable bit active (Table CKC-2)? -/
def Dev.hubActive (d : Dev) (b : Nat) : Bool :=
  if b = 0 then !d.sup.uart.tx.isEmpty
  else if b = 1 then d.bit TWI_MCTL_BUSY || d.sup.twi.stretch.isSome
  else if b = 3 then d.loadBusy
  else if b = 4 then d.nvs.op.isSome
  else if b = 5 then d.spliceBusy
  else if b = 6 then d.rf CSH_STAT_STATE != 0
  else if 7 ≤ b ∧ b ≤ 10 then d.qstate (b - 7) != qOFF && d.qstate (b - 7) != qSTANDBY
  else if b = 12 then d.bit MSH_CFG_EN
  else false

def Dev.enableActive (d : Dev) (r : EnableReg) (b : Nat) : Bool :=
  match r with
  | .hub => d.hubActive b
  | .iface die => if b < 16 then d.bit (ETH_CFG_EN (die.val * 16 + b)) else d.bit (JLK_CFG_EN (die.val * 16 + b - 16))
  | .engines die => let n := die.val * 32 + b; d.seState n != seIDLE || d.rf (DLM_STAT_STATE n) == vBUSY
  | .quads die k =>
    let q := die.val * 64 + k.val * 32 + b
    d.bit (LNQ_PLLp_CFG_EN q 0) || d.bit (LNQ_PLLp_CFG_EN q 1) || (quadLanes q).any (fun l => d.txState l != lOFF || d.rxState l != lOFF)

def enableAddr : EnableReg → Nat
  | .hub => CKC_EN_HUB
  | .iface die => CKC_EN_IFd die
  | .engines die => CKC_EN_SEd die
  | .quads die k => CKC_EN_LNQd_k die k

/-- A write of a clock-enable register: the bits of active blocks that it would clear stay set, each with its record. -/
def Dev.enableWrite (d : Dev) (r : EnableReg) (v : Word) : Dev :=
  let a := enableAddr r
  let old := d.rd a
  let held := (List.range 32).filter (fun b => old.getLsbD b && !v.getLsbD b && d.enableActive r b)
  let d := d.plainWrite a (held.foldl (fun x b => x ||| ((1 : Word) <<< b)) v)
  held.foldl (fun d b => d.ckcRefused a b) d

def execClockEnableWrite (_rq : Requester) (r : EnableReg) (v : Word) (s : State) : Out :=
  s.busWrite (enableAddr r) (fun d => d.enableWrite r v)

/-! ## The frequency counter (R378) -/

/-- A count ends. -/
def Dev.fcntEnd (d : Dev) (st : Nat) : Dev :=
  (((d.setGaf { d.gaf with fcnt := none }).on CKC_FCNT_CTL_DONE).wf CKC_FCNT_CTL_STATUS st)

/-- A write of CKC_FCNT_CTL; START while a count runs is ignored. -/
def Dev.fcntWrite (d : Dev) (v : Word) : Dev :=
  let d := d.plainWrite CKC_FCNT_CTL v
  if !v.getLsbD 0 || d.gaf.fcnt.isSome then d
  else if d.rd CKC_FCNT_GATE = 0 then (d.wr CKC_FCNT_RES 0).fcntEnd stDONE
  else (d.setGaf { d.gaf with fcnt := some d.slate }).off CKC_FCNT_CTL_DONE

def execFcntStart (_rq : Requester) (v : Word) (s : State) : Out := s.busWrite CKC_FCNT_CTL (fun d => d.fcntWrite (v ||| 1))

/-- The gate has ended with `count` edges of MEAS. -/
def execFcntDone (count : Nat) (s : State) : Out :=
  s.act (fun d => if d.gaf.fcnt.isSome then (d.wf CKC_FCNT_RES_COUNT (satU 32 count)).fcntEnd stDONE else d)

/-- REF has delivered no edge for `idleNs` of D0. -/
def execFcntTimeout (idleNs : Nat) (s : State) : Out :=
  s.act (fun d => if d.gaf.fcnt.isSome && decide (2000000000 ≤ idleNs) then d.fcntEnd stTIMEOUT else d)

end Sys2Proof.Machine
end

