-- ==== Sys2Proof/Machine/Scrub.lean ====
section
/-! DEFINITION. Scrubbing (14_splice_and_scrub): passes, the reads of their slots, and the repair of frames. -/
namespace Sys2Proof.Machine
open Reg

/-- Ticks from one pass start to the next, of a slot, and of a pass (R325). -/
def passPeriod : Nat := 3686400
def slotTicks : Nat := 127
def passTicks : Nat := 28872 * slotTicks

/-- Is the Splice and scrub block running: powered, clocked and not held in reset? -/
def Dev.splUp (d : Dev) : Bool := d.domainUp 2 && d.clocked SPL_CTL

/-- The pass under way ends. -/
def Dev.passEnd (d : Dev) : Dev :=
  ((d.setCfg { d.cfg with passAt := none }).off SPL_SCRUB_STAT_ACTIVE).wf SPL_SCRUB_STAT_SLOT 0

/-- A pass starts (R325, R328, R332). -/
def execScrubPassStart (s : State) : Out :=
  s.act (fun d =>
    if !d.splUp || !d.bit SPL_SCRUB_CTL_EN || d.slate % passPeriod != 0 then d else
    let d := d.setCfg { d.cfg with passAt := some d.slate,
                                   skip := d.cfg.skip.filter (fun r => d.bit (SPL_REGr_STAT_STAGING r)) }
    ((d.on SPL_SCRUB_STAT_ACTIVE).wf SPL_SCRUB_STAT_SLOT 0).out .reportRequest)

/-- On a Slate tick: the slot of the pass in progress, and its end after the last slot. -/
def Dev.scrubTick (d : Dev) : Dev :=
  match d.cfg.passAt with
  | none => d
  | some t => if t + passTicks ≤ d.slate then d.passEnd else d.wf SPL_SCRUB_STAT_SLOT ((d.slate - t) / slotTicks)

/-- A write of SPL_SCRUB_CTL: clearing EN ends the pass in progress. -/
def Dev.scrubCtlWrite (d : Dev) (v : Word) : Dev :=
  let d := d.plainWrite SPL_SCRUB_CTL v
  if v.getLsbD 0 then d else d.passEnd

/-! ## Reads (R326, R327, R329) -/

/-- Is the slot `i` of a pass that started at `t` served on the present tick? -/
def Dev.slotNow (d : Dev) (i : Nat) : Bool :=
  match d.cfg.passAt with
  | some t => decide (t + slotTicks * i ≤ d.slate) && decide (d.slate < t + slotTicks * (i + 1))
  | none => false

/-- Is the readback of the slot lost on its bridge (R20)? Its frame then stays unread in this pass. -/
def Dev.readbackLost (d : Dev) (die slot : Nat) : Bool :=
  d.hub.lost.any (fun u => u.die == die && (match u.load with | .readback x => x.val == slot | _ => false))

/-- Is a frame excluded (R326)? -/
def Dev.frameExcluded (d : Dev) (k : Nat) : Bool := SMap.at false d.cfg.excl k

/-- The region whose frame the pass reads, if it reads it. -/
def Dev.scrubRegion (d : Dev) (k : Nat) : Option Nat :=
  match d.frameRegion k with
  | some r =>
    if d.rstate r == rLOADED && !d.bit (SPL_REGr_STAT_STAGING r) && !d.cfg.skip.contains r && d.cfg.load.isNone &&
        !d.frameExcluded k then some r else none
  | none => none

/-- Bits of a frame inverted. -/
def flipBits (x : BitVec 16384) (l : List (BitVec 14)) : BitVec 16384 :=
  l.foldl (fun x i => x ^^^ ((1 : BitVec 16384) <<< i.toNat)) x

def Dev.setActive (d : Dev) (k : Nat) (x : BitVec 16384) : Dev :=
  d.setCfg { d.cfg with active := SMap.set 0 d.cfg.active k x }

/-- A mismatch of a frame of region `r` (R329). -/
def Dev.scrubMismatch (d : Dev) (r k : Nat) : Dev :=
  let d := ((d.inc (SPL_REGr_STAT_MISMATCH r)).inc SPL_SCRUB_CNT_MISMATCH).on SPL_SCRUB_STAT_MISMATCH
  let d := if d.bit SPL_SCRUB_ERR_VALID then d
    else (d.wf SPL_SCRUB_ERR_FRAME (frameAddr k / 2 ^ 15 + r * 2 ^ 17)).on SPL_SCRUB_ERR_VALID
  if d.cfg.repairs.contains k then d
  else if 16 ≤ d.cfg.repairs.length then d.inc SPL_SCRUB_CNT_DEFERRED
  else (d.setCfg { d.cfg with repairs := d.cfg.repairs ++ [k] }).queueShow

/-- A slot of a pass. `upsets`: configuration bits of the frame that have changed in the active plane since it was last
read; `goldLost`: the golden signature is beyond its code (R327). -/
def execScrubSlot (die : Fin 2) (slot : Fin 28872) (upsets : List (BitVec 14)) (goldLost : Bool) (s : State) : Out :=
  s.act (fun d =>
    let k := frameKey die slot
    let d := if upsets.isEmpty then d else d.setActive k (flipBits (SMap.at 0 d.cfg.active k) upsets)
    if !d.splUp || !d.slotNow slot || d.readbackLost die slot then d else
    match d.scrubRegion k with
    | none => d
    | some r =>
      match SMap.at none d.cfg.golden k with
      | none => d
      | some g =>
        if goldLost then
          (d.setCfg { d.cfg with golden := SMap.set none d.cfg.golden k none }).splLog 0x0A .warn (r :: frameDetail k)
        else if frameSig (SMap.at 0 d.cfg.active k) = g.1 then d
        else d.scrubMismatch r k)

/-! ## Repair (R330, R331) -/

/-- The region is isolated by scrubbing. -/
def Dev.scrubIsolate (d : Dev) (r k cause : Nat) : Dev :=
  let a := frameAddr k / 2 ^ 17 % 2 ^ 13
  let d := ((d.isolateRegion r).on (SPL_REGr_STAT_HARD r)).on SPL_SCRUB_STAT_ISOLATED
  d.splLog 0x07 .error [r, cause, a, a / 2 ^ 8, 0]

/-- The copy of a frame taken from its repair source. -/
def Dev.repairCopy (d : Dev) (src : RepairSrc) (ofs : Nat) : List Byte :=
  let l := d.storeBytes (src.base + ofs) 2048
  match d.imageKey src.key with
  | some k => gcmPlain k src.iv (ofs - 256) l
  | none => l

/-- The repair of the frame at the head of the queue, with what its pages read and the bits of it that do not take what is
written. -/
def Dev.repairHead (d : Dev) (k r : Nat) (g : BitVec 64 × Nat) (src : RepairSrc) (pages : List PageErr)
    (stuck : List (BitVec 14)) : Dev :=
  match d.pagesRead (src.base + g.2) 2048 pages with
  | (some _, d) => d.scrubIsolate r k 3
  | (none, d) =>
    let copy := d.repairCopy src g.2
    if crc64 copy ≠ g.1 then d.scrubIsolate r k 1
    else
      let old := SMap.at 0 d.cfg.active k
      let mask := flipBits 0 stuck
      let new := (frameOfBytes copy &&& ~~~mask) ||| (old &&& mask)
      let d := d.setActive k new
      if frameSig new ≠ g.1 then d.scrubIsolate r k 2
      else (d.on (SPL_REGr_STAT_REPAIRED r)).splLog 0x06 .warn (r :: frameDetail k)

/-- The oldest queued repair. While its bank is busy the operation is being suspended and the repair waits (R303). -/
def execFrameRepair (pages : List PageErr) (stuck : List (BitVec 14)) (s : State) : Out :=
  s.act (fun d =>
    if !d.splUp then d else
    match d.cfg.repairs with
    | [] => d
    | k :: rest =>
      let gone := (d.setCfg { d.cfg with repairs := rest }).queueShow
      match d.frameRegion k, SMap.at none d.cfg.golden k with
      | some r, some g =>
        match SMap.at none d.cfg.source r with
        | none => gone.scrubIsolate r k 0
        | some src =>
          if d.rangeBusy (src.base + g.2) 2048 then d.nvsHold 2
          else (gone.repairHead k r g src pages stuck).nvsUnhold 2
      | _, _ => gone)

end Sys2Proof.Machine
end

