-- ==== Sys2Proof/Machine/Power.lean ====
section
/-! DEFINITION. The Gaffer (17_clocks_and_power): how domains power up and go down, votes, power Cuts, sleep and wake, and the
release of isolated units. -/
namespace Sys2Proof.Machine
open Reg

def Dev.gafLog (d : Dev) (code : Nat) (sev : Sev) (det : List Nat) : Dev := d.log 0x10 code sev det

/-- A refused GAF request. -/
def Dev.gafRefused (d : Dev) (a st : Nat) : Dev :=
  (d.on GAF_STAT_REFUSED).gafLog 0x04 .warn [a - GAF_DOMd_STAT 0, (a - GAF_DOMd_STAT 0) / 256, st, 0, 0]

/-! ## Going down (R382) -/

/-- The lanes of the mesh ports are OFF (Table GAF-4). -/
def Dev.meshLanesOff (d : Dev) : Dev :=
  (List.range 16).foldl (fun d p =>
    if !d.bit (MSH_PORTp_CFG_EN p) then d else
    (d.portLanes p).foldl (fun d l =>
      if d.laneOwner l ≠ 4 then d else
      let d := (((d.rxUnlock l).wf (LNQ_Li_PWR_TX_STATE l) lOFF).wf (LNQ_Li_PWR_RX_STATE l) lOFF)
      ((d.wf (LNQ_Li_PWR_TX_REQ l) 0).wf (LNQ_Li_PWR_RX_REQ l) 0).eqDiscard l |>.setLane l Lane.idle) d) d

/-- The registers of the mesh block at their reset values; the strap and the serial stay what they are. -/
def Dev.meshFresh (d : Dev) : Dev :=
  let a := d.rd MSH_ID
  let b := d.rd MSH_SERIAL
  ((d.resetRange 0x02600000 0x0260FFFF).wr MSH_SERIAL b).wf MSH_ID_STRAP (fieldGet MSH_ID_STRAP.lo MSH_ID_STRAP.w a)

/-- Registers of one engine and its mover. -/
def Dev.engineFresh (d : Dev) (n : Nat) : Dev :=
  (d.resetRange (SE_CTL n) (SE_CTL n + 0x1FFFF)).resetRange (DLM_CTL n) (DLM_CTL n + 0x7FF)

/-- An engine group's operations end with ABORT and its contents are lost (Table SE-18, R127). -/
def Dev.groupDown (d : Dev) (g : Nat) : Dev :=
  let ns := (List.range 16).map (16 * g + ·)
  let d := ns.foldl (fun d n => ((d.moverAbort n).seAbort n)) d
  let inG := fun (size k : Nat) => k / size / 16 == g
  let d := { d with se := { d.se with
    eng := SMap.clear (inG 1) d.se.eng, spad := SMap.clear (inG 65536) d.se.spad, coef := SMap.clear (inG 16384) d.se.coef,
    prog := SMap.clear (inG 2048) d.se.prog, ring := SMap.clear (inG 128) d.se.ring, move := SMap.clear (inG 1) d.se.move } }
  (ns.foldl (fun d n => (d.engineFresh n).setEngine n { Engine.idle with rest := d.slate }) d).evcGroupOff g

/-- A DRAM channel loses its power: keys, tree and, unless it went through SELFREF, contents are lost (R259, R275). -/
def Dev.channelDown (d : Dev) (n : Nat) : Dev :=
  (((d.dmcSelfRef n).dmcOff n).mpeOff n).resetRange (DMC_CFG n) (DMC_CFG n + 0xFFFF)

/-- The blocks of P27. -/
def Dev.linksDown (d : Dev) : Dev :=
  let d := d.ethOff
  [0x10000000, 0x18000000].foldl (fun d b => d.resetRange (b + 0x200000) (b + 0x21FFFF)) d

/-- A fabric region. -/
def Dev.fabricDown (d : Dev) (p : Nat) (work : Bool) : Dev :=
  let die := if p ≤ 10 then 0 else 1
  let d := (((d.regionsDown p work).gpioOff p).marchPowerOff p).regionRamsZero die ((p - 3) % 8)
  -- the votes of the ports hosted in columns 63 and 64 are zero (R380)
  if p = columnDomain die 63 then
    [2 * die, 2 * die + 1].foldl (fun d i =>
      let d := d.setGaf { d.gaf with portVotes := SMap.set 0 d.gaf.portVotes i 0 }
      (List.range 30).foldl (fun d q => if votable q && q != p then d.vote (4 + i) q false else d) d) d
  else d

/-- P1's drop: an active source of target 0 leaves active, and core, SRAM, WDG, MON and the core's half of the EVC are
lost (R417, R384). -/
def Dev.p1Down (d : Dev) : Dev :=
  let d := d.evcP1Down.p1Fresh
  d.setSup { d.sup with sram := [], boot := { d.sup.boot with phase := 0, full := false } }

/-- What the blocks of a domain lose as it enters DOWN. P2's registers and stores keep what they hold (log entry 60). -/
def Dev.blocksDown (d : Dev) (p : Nat) (work : Bool) : Dev :=
  if p = 1 then d.p1Down
  else if p = 2 then
    let d := (if d.cfg.passAt.isSome then d.passEnd else d)
    (d.setNvs { d.nvs with worn := [] }).setSup { d.sup with boot := { d.sup.boot with scanned := false } }
  else if 3 ≤ p ∧ p ≤ 18 then d.fabricDown p work
  else if 19 ≤ p ∧ p ≤ 22 then (d.marchPowerOff p).groupDown (p - 19)
  else if 23 ≤ p ∧ p ≤ 26 then d.channelDown (p - 23)
  else if p = 27 then d.linksDown
  else if p = 29 then d.meshOff.meshLanesOff.meshFresh
  else d

/-- Has a domain work that its power-down ends? One still in its ramp, or whose ramp has ended and which stays isolated for a
POWER_ON Cut, has none: its units have been isolated throughout (R382, R383). -/
def Dev.domainWorks (d : Dev) (p : Nat) : Bool :=
  !(d.domState p == dRAMP || (d.domState p == dON && d.bit (GAF_DOMd_STAT_ISOLATED p)))

/-- A domain enters DOWN by an event of class `cls`: every unit of it is isolated and its work ends. -/
def Dev.domainDown (d : Dev) (p cls : Nat) : Dev :=
  let work := d.domainWorks p
  let d := ((d.wf (GAF_DOMd_STAT_STATE p) dDOWN).on (GAF_DOMd_STAT_ISOLATED p)).off (GAF_DOMd_STAT_QUEUED p)
  let d := { d with marks := d.marks ++ [(domainMark p, cls)] }
  let d := d.setGaf { d.gaf with downAt := SMap.set 0 d.gaf.downAt p d.slate, downNext := d.gaf.downNext.filter (· != p) }
  (d.blocksDown p work).capWatches

/-- On a Slate tick: the domains that the last tick sent down. -/
def Dev.downTick (d : Dev) : Dev :=
  let l := d.gaf.downNext
  l.foldl (fun d p =>
    let s := d.domState p
    if (d.rf (GAF_DOMd_STAT_VOTES p) = 0 ∨ SMap.at false d.gaf.blocked p) ∧ (s = dON ∨ s = dDRAIN ∨ s = dRAMP) then
      d.domainDown p (if SMap.at false d.gaf.blocked p then 2 else if SMap.at false d.gaf.byCut p then 6 else 7)
    else d) (d.setGaf { d.gaf with downNext := [] })

/-- The drop condition of a draining domain holds: it enters DOWN on the next tick. A DRAM channel first goes to SELFREF
(R259). -/
def execDrainEnd (p : Fin 30) (s : State) : Out :=
  s.act (fun d =>
    let q := p.val
    if d.domState q ≠ dDRAIN then d.emulate q else
    let d := if 23 ≤ q ∧ q ≤ 26 then d.dmcSelfRef (q - 23) else d
    if d.dropReady q && !d.gaf.downNext.contains q then d.setGaf { d.gaf with downNext := d.gaf.downNext ++ [q] } else d)

/-- The supply of a domain in DOWN is off: OFF, GAF 0x02; a vote or a POWER_ON Cut that has arrived starts its ramp. -/
def execDomainOff (p : Fin 30) (s : State) : Out :=
  s.act (fun d =>
    let q := p.val
    if d.domState q ≠ dDOWN then d else
    let d := (d.wf (GAF_DOMd_STAT_STATE q) dOFF).gafLog 0x02 .info [q, (SMap.at false d.gaf.byCut q).toNat, 0, 0, 0]
    let d := if q = 1 ∧ d.gaf.sleepD0 then d.setGaf { d.gaf with d0Stop := true } else d
    if (d.rf (GAF_DOMd_STAT_VOTES q) ≠ 0 ∧ !SMap.at false d.gaf.blocked q) ∨ d.onCutNames q then d.enterRamp q else d)

/-! ## Coming up (R381) -/

/-- The domain is first among those of its die that wait for a ramp place. -/
def Dev.rampFirst (d : Dev) (p : Nat) : Bool :=
  (List.range 30).all (fun q =>
    q == p || fabricDie q != fabricDie p || !d.bit (GAF_DOMd_STAT_QUEUED q) ||
    decide (SMap.at 0 d.gaf.rampEnter p < SMap.at 0 d.gaf.rampEnter q) ||
    (SMap.at 0 d.gaf.rampEnter p == SMap.at 0 d.gaf.rampEnter q && decide (p < q)))

/-- A ramp place of its die has freed. -/
def execRampStart (p : Fin 30) (s : State) : Out :=
  s.act (fun d =>
    match fabricDie p with
    | some die =>
      if d.domState p = dRAMP ∧ d.bit (GAF_DOMd_STAT_QUEUED p) ∧ d.ramping die < 2 ∧ d.rampFirst p then d.startRamp p else d
    | none => d)

/-- The agents' copies of the items of a domain that restarts are as at power-up, and so is what the hub has commanded. -/
def Dev.copiesFresh (d : Dev) (p : Nat) : Dev :=
  let f := fun k =>
    if 2048 ≤ k then 19 ≤ p && k < 2112 && (k - 2048) / 16 == p - 19
    else 512 ≤ k && k < 576 && d.regionDomain (k - 512) == p
  { d with hub := { d.hub with agentCopy := SMap.clear f d.hub.agentCopy, told := SMap.clear f d.hub.told } }

/-- The isolation of a domain's units ends with its power cycle, whatever item isolated them, and the hub's record of each
is new (R17). -/
def Dev.unitsFresh (d : Dev) (p : Nat) : Dev :=
  let d := d.copiesFresh p
  let d := d.setGaf { d.gaf with isoDomain := SMap.set false d.gaf.isoDomain p false }
  if 19 ≤ p ∧ p ≤ 22 then
    let d := d.setGaf { d.gaf with isoEngine := SMap.clear (fun n => n / 16 == p - 19) d.gaf.isoEngine }
    if d.cfg.load.isSome then d else d.setCfg { d.cfg with groupHeld := SMap.set false d.cfg.groupHeld (p - 19) false }
  else d

/-- The ROM's first instructions enable MON and TWI (R377), and it waits to load or to read the firmware descriptor. With
ATTACH set a reset leaves the core halted at its reset vector instead (R364). -/
def Dev.romStart (d : Dev) : Dev :=
  let d := (d.wf ⟨CKC_EN_HUB, 0, 1⟩ 1).wf ⟨CKC_EN_HUB, 1, 1⟩ 1
  d.setSup { d.sup with boot := { d.sup.boot with phase := if d.sup.boot.full then 1 else 3, loads := 0, slot := 0 } }

/-- The core starts at its reset vector. `held`: by a reset that ATTACH meets. -/
def Dev.coreStart (d : Dev) (held : Bool) : Dev :=
  if held && d.sup.dbg.attach then
    (d.setCore { Core.reset with state := cHALTED, reason := 3 }).monLog 0x02 .info [3, 0, 0, 0, 0]
  else d.romStart

/-- On a Slate tick: a core that runs and whose ROM has not started does so. -/
def Dev.romTick (d : Dev) : Dev := if d.coreRuns && d.sup.boot.phase == 0 then d.romStart else d

/-- A ramp ends: ON, GAF 0x01; with a vote the units leave power isolation; a POWER_ON Cut is confirmed. -/
def Dev.rampEnd (d : Dev) (p : Nat) : Dev :=
  let v := d.rf (GAF_DOMd_STAT_VOTES p)
  let d := (((d.unitsFresh p).wf (GAF_DOMd_STAT_STATE p) dON).gpioFollow d).gafLog 0x01 .info [p, v, (v == 0).toNat, 0, 0]
  let d := d.setGaf { d.gaf with byCut := SMap.set false d.gaf.byCut p (v == 0) }
  let d := if v = 0 then d else d.off (GAF_DOMd_STAT_ISOLATED p)
  let d := (List.range 32).foldl (fun d i =>
    let c := d.cut i
    if c.state == .armed && c.kind == kPOWERON && c.target == p then d.confirmCut i else d) d
  let d := d.regionsUp p
  if p = 2 then d.setSup { d.sup with boot := { d.sup.boot with scanAt := d.slate } }
  else if p = 1 ∧ v ≠ 0 then d.coreStart d.sup.boot.full else d

/-- The ramp count of a domain has gone by with its supply good, which it reports within twice that count (R381). -/
def execRampEnd (p : Fin 30) (s : State) : Out :=
  s.act (fun d =>
    match SMap.at none d.gaf.rampStart p with
    | some t => if d.domState p = dRAMP ∧ t + rampTicks p ≤ d.slate ∧ d.slate ≤ t + 2 * rampTicks p then d.rampEnd p else d
    | none => d)

/-- The supply has not reported good within twice the ramp count: OFF with FAULT. -/
def execRampFault (p : Fin 30) (s : State) : Out :=
  s.act (fun d =>
    match SMap.at none d.gaf.rampStart p with
    | some t =>
      if d.domState p = dRAMP ∧ t + 2 * rampTicks p ≤ d.slate then
        let d := ((d.wf (GAF_DOMd_STAT_STATE p) dOFF).on (GAF_DOMd_STAT_FAULT p)).on GAF_STAT_RAMP_FAULT
        (d.setGaf { d.gaf with blocked := SMap.set false d.gaf.blocked p true }).gafLog 0x08 .error [p, 0, 0, 0, 0]
      else d
    | none => d)

/-- A supply reports not good for 1 µs while its domain is ON or in DRAIN: DOWN on the next tick. -/
def execSupplyLoss (p : Fin 30) (lowNs : Nat) (s : State) : Out :=
  s.act (fun d =>
    let q := p.val
    if !votable q || (d.domState q != dON && d.domState q != dDRAIN) || decide (lowNs < 1000) then d else
    let d := d.setGaf { d.gaf with blocked := SMap.set false d.gaf.blocked q true,
                                   downNext := d.gaf.downNext.filter (· != q) ++ [q] }
    (d.on (GAF_DOMd_STAT_FAULT q)).gafLog 0x08 .error [q, 1, 0, 0, 0])

/-! ## Votes (R380) -/

/-- The supervisor's votes become those of GAF_SVOTE. -/
def Dev.svoteWrite (d : Dev) (v : Word) : Dev :=
  let d := d.plainWrite GAF_SVOTE v
  (List.range 30).foldl (fun d p => if votable p then d.vote 0 p (v.getLsbD p) else d) d

/-- Is the host tile of a fabric vote port off or isolated? -/
def Dev.votePortDead (d : Dev) (i : Nat) : Bool := (d.tileDead (i / 2) (63 + i % 2) 0).isSome

/-- A fabric vote port samples its VOTE inputs: the votes that have changed since its last sample change. -/
def Dev.portVote (d : Dev) (i : Nat) (v : BitVec 30) : Dev :=
  if d.votePortDead i then d else
  let old := SMap.at 0 d.gaf.portVotes i
  let d := d.setGaf { d.gaf with portVotes := SMap.set 0 d.gaf.portVotes i v.toNat }
  (List.range 30).foldl (fun d p =>
    if votable p && old.testBit p != v.getLsbD p then d.vote (4 + i) p (v.getLsbD p) else d) d

/-- What a vote port drives on ON: the domains ON and out of power isolation. -/
def Dev.portOn (d : Dev) (i : Nat) : Nat :=
  if d.votePortDead i then 0
  else ((List.range 30).map (fun p => if d.domState p = dON && !d.bit (GAF_DOMd_STAT_ISOLATED p) then 2 ^ p else 0)).sum

def execVoteChange (by_ : VoteBy) (s : State) : Out :=
  match by_ with
  | .svote _ v => s.busWrite GAF_SVOTE (fun d => d.svoteWrite v)
  | .port p v => s.act (fun d =>
      if d.votePortDead p then d else let d := d.portVote p v; d.out (.voteOn p (d.portOn p)))

/-! ## Power Cuts (R383) -/

/-- Does the drop condition of a POWER_OFF Cut hold? A DRAM channel drains and enters self-refresh from T on. -/
def Dev.offReady (d : Dev) (p : Nat) : Bool := (decide (23 ≤ p) && decide (p ≤ 26)) || d.dropReady p

/-- Request a power Cut for a client: a POWER_ON Cut of an OFF domain starts its ramp. -/
def Dev.armPower (d : Dev) (off : Bool) (p client t : Nat) : (Nat ⊕ Nat) × Dev :=
  let kind := if off then kPOWEROFF else kPOWERON
  if !votable p then (.inr stACCESS, d.cutRefused kind p stACCESS)
  else
    match d.requestCut kind p t with
    | (.inr st, d) => (.inr st, d)
    | (.inl i, d) =>
      let d := d.setGaf { d.gaf with cutClient := SMap.set 0 d.gaf.cutClient i client }
      if off then (.inl i, if d.offReady p then d.confirmCut i else d)
      else
        let d := d.setGaf { d.gaf with blocked := SMap.set false d.gaf.blocked p false }
        let st := d.domState p
        (.inl i, if st = dOFF && !SMap.at false d.gaf.emu p then d.enterRamp p
          else if st = dON || st = dDRAIN || SMap.at false d.gaf.emu p then d.confirmCut i else d)

/-- A POWER_ON Cut that fails or is cancelled leaves a domain without votes, and without another such Cut, to enter DOWN
at once. -/
def Dev.powerCutGone (d : Dev) (kind p : Nat) : Dev :=
  if kind = kPOWERON ∧ d.rf (GAF_DOMd_STAT_VOTES p) = 0 ∧ !d.onCutNames p ∧ (d.domState p = dRAMP ∨ d.domState p = dON) then
    d.domainDown p 6
  else d

/-- A write of GAF_CUT_CTL. -/
def Dev.gafCutWrite (d : Dev) (v : Word) : Dev :=
  let d := d.plainWrite GAF_CUT_CTL v
  let d := if !v.getLsbD 0 then d else
    match d.armPower (d.bit GAF_CUT_CTL_OFF) (d.rf GAF_CUT_CTL_DOMAIN) (d.rf GAF_CUT_CTL_CLIENT) (d.rd64 GAF_CUT_TICK_LO GAF_CUT_TICK_HI) with
    | (.inl i, d) => ((d.wf GAF_CUT_CTL_SLOT i).wf GAF_CUT_CTL_STATUS stDONE)
    | (.inr st, d) => (d.wf GAF_CUT_CTL_STATUS st)
  if !v.getLsbD 1 then d else
  let i := d.rf GAF_CUT_CTL_SLOT
  let c := d.cut i
  if (c.kind = kPOWERON ∨ c.kind = kPOWEROFF) ∧ d.cancellable i then (d.failCut i stABORT false).powerCutGone c.kind c.target else d

def execPowerCutArm (_rq : Requester) (v : Word) (s : State) : Out :=
  s.busTimed (fun d => d.access GAF_CUT_CTL (fun d => d.gafCutWrite (v ||| 1)))

def execPowerCutCancel (_rq : Requester) (v : Word) (s : State) : Out :=
  s.busTimed (fun d => d.access GAF_CUT_CTL (fun d => d.gafCutWrite (v ||| 2)))

/-- A POWER_ON Cut executes: the domain leaves power isolation and the client's vote is placed. -/
def Dev.powerOnCut (d : Dev) (i : Nat) : Dev :=
  let p := (d.cut i).target
  let d := d.cutExecuted i
  let d := if d.domState p = dON then d.off (GAF_DOMd_STAT_ISOLATED p) else d
  d.vote (SMap.at 0 d.gaf.cutClient i) p true

/-- A POWER_OFF Cut executes: every vote is cleared and the domain enters DOWN; a DRAM domain whose channel has still to reach
SELFREF drains first (R259, R383). With ATTACH set a drop of P1 or P2 is emulated and the debugger's vote stays (R364). -/
def Dev.powerOffCut (d : Dev) (i : Nat) : Dev :=
  let p := (d.cut i).target
  let d := d.cutExecuted i
  let d := d.setGaf { d.gaf with byCut := SMap.set false d.gaf.byCut p true }
  if d.sup.dbg.attach ∧ (p = 1 ∨ p = 2) then (d.wf (GAF_DOMd_STAT_VOTES p) 2).emulate p
  else
    let d := d.wf (GAF_DOMd_STAT_VOTES p) 0
    if d.domState p = dOFF ∨ d.domState p = dDOWN then d
    else if (d.domState p = dON ∨ d.domState p = dDRAIN) ∧ !d.dropReady p ∧ 23 ≤ p ∧ p ≤ 26 then d.wf (GAF_DOMd_STAT_STATE p) dDRAIN
    else d.domainDown p 6

/-! ## Sleep and wake (R384, R385) -/

/-- The supervisor's vote, with GAF_SVOTE following it. -/
def Dev.svote (d : Dev) (p : Nat) (b : Bool) : Dev := (d.wb ⟨GAF_SVOTE, p, 1⟩ b).vote 0 p b

/-- The wait-for-event instruction. -/
def Dev.waitForEvent (d : Dev) : Dev :=
  let m := d.rf GAF_SLEEP_MODE
  let d0 := d.bit GAF_SLEEP_D0_STOP
  let att := d.sup.dbg.attach
  if m = 1 then
    let d := d.setCore { d.sup.core with sleep := 2, emuSleep := att }
    if att then d else d.setGaf { d.gaf with d4Stop := true, d0Stop := d.gaf.d0Stop || d0 }
  else if m = 2 then
    ((d.setCore { d.sup.core with sleep := 3 }).setGaf { d.gaf with sleepD0 := d0 && !att }).svote 1 false
  else d.setCore { d.sup.core with sleep := 1 }

def execWaitForEvent (s : State) : Out := s.act (fun d => if d.coreRuns then d.waitForEvent else d)

/-- The core goes on after its wait, with D4 running. -/
def Dev.coreAwake (d : Dev) : Dev :=
  (d.setCore { d.sup.core with sleep := 0, emuSleep := false }).setGaf { d.gaf with d4Stop := false }

/-- On a Slate tick: an event that waits for the core ends a wait of MODE 0 or 1. -/
def Dev.wakeTick (d : Dev) : Dev :=
  let c := d.sup.core
  if (c.sleep = 1 ∨ c.sleep = 2) ∧ (d.rf EVC_NMI_NMI ≠ 0 ∨ (d.candidate 0).isSome) then d.coreAwake else d

/-- Does the device sleep in any way a wake source ends? -/
def Dev.asleep (d : Dev) : Bool :=
  d.gaf.d4Stop || d.gaf.d0Stop || d.domState 1 != dON || d.sup.core.sleep == 2 || d.sup.core.sleep == 3

/-- A wake. -/
def Dev.wake (d : Dev) (by_ : WakeBy) : Dev :=
  let en := match by_ with | .twi => d.bit GAF_WAKE_EN_TWI | .latch => d.bit GAF_WAKE_EN_LATCH | .alarm => d.bit GAF_WAKE_EN_ALARM
  let src := d.sup.latch.headD 0
  if !en || !d.asleep || (by_ == .latch && d.sup.latch.isEmpty) then d else
  let d := d.setGaf { d.gaf with d4Stop := false, d0Stop := false, sleepD0 := false }
  let bits := match by_ with | .twi => 2 | .latch => 4 | .alarm => 8
  let s := match by_ with | .latch => src | _ => 0
  let d := (d.wf ⟨GAF_WAKE_CAUSE, 0, 4⟩ bits).wf GAF_WAKE_CAUSE_SOURCE s
  let d := if d.sup.core.sleep = 2 then d.coreAwake else d
  let d := d.gafLog 0x06 .info [bits, s, 0, 0, 0]
  let d := d.svote 1 true
  if d.bit GAF_WAKE_EN_P2 then d.svote 2 true else d

def execWake (by_ : WakeBy) (s : State) : Out :=
  s.act (fun d => if by_ == .alarm && !d.bit CTY_STAT_ALARM then d else d.wake by_)

/-! ## Supplies (R386) -/

/-- A rail is below its warning level for `dipNs`. -/
def execPowerFailWarning (rail : BitVec 4) (dipNs : Nat) (s : State) : Out :=
  s.act (fun d =>
    if rail = 0 ∨ 9 < rail.toNat ∨ dipNs < 1000 then d
    else ((d.on GAF_STAT_PFW).nmi 3).gafLog 0x05 .error [rail.toNat, 0, 0, 0, 0])

/-! ## Release (R388) -/

/-- The unit of a release: whether it is isolated and may be released, and the device with it released. -/
def Dev.releaseOf (d : Dev) (kind unit : Nat) : Option Dev :=
  if kind = 2 then
    if unit < 30 ∧ SMap.at false d.gaf.isoDomain unit ∧ d.domState unit = dON then
      some (d.setGaf { d.gaf with isoDomain := SMap.set false d.gaf.isoDomain unit false })
    else none
  else if kind = 3 then
    if SMap.at false d.gaf.isoQuad unit then some (d.setGaf { d.gaf with isoQuad := SMap.set false d.gaf.isoQuad unit false })
    else none
  else if kind = 4 then
    if unit < 64 ∧ SMap.at false d.gaf.isoEngine unit ∧ d.domState (19 + unit / 16) = dON then
      some (d.setGaf { d.gaf with isoEngine := SMap.set false d.gaf.isoEngine unit false })
    else none
  else none

/-- A write of GAF_RELEASE. -/
def Dev.releaseWrite (d : Dev) (v : Word) : Dev :=
  if !v.getLsbD 31 then d else
  let k := fieldGet 0 3 v
  let u := fieldGet 3 7 v
  match d.releaseOf k u with
  | some d => d.gafLog 0x07 .info [k, u, 0, 0, 0]
  | none => d.gafRefused GAF_RELEASE stACCESS

def execUnitRelease (_rq : Requester) (v : Word) (s : State) : Out :=
  s.busWrite GAF_RELEASE (fun d => d.releaseWrite (v ||| fieldMask 31 1))

end Sys2Proof.Machine
end

