-- ==== Sys2Proof/Machine/Cuts.lean ====
section
/-! DEFINITION. Cuts (02_slate_and_device_rules): USER Cuts by software and by the Cut sites, the decision at T − 64, and
the execution on T. -/
namespace Sys2Proof.Machine
open Reg

/-! ## A Cut that ends without executing -/

/-- What the arming block does as its Cut ends without executing, with the slot's contents `c` as they were (R161, R324,
R383). A Splice whose Cut goes so ends with the old state kept (Table SPL-4, last row). -/
def Dev.cutGone (d : Dev) (i : Nat) (c : CutSlot) (st : Nat) : Dev :=
  if c.kind = kPOWERON then d.powerCutGone c.kind c.target
  else if c.kind = kCONFIG then
    match d.cfg.splice with
    | some im => if im.left.contains c.target then d.spliceEnd st (im.reached true) false else d
    | none => d
  else if c.kind = kSCHEDULE then
    match d.csh.staged with
    | some (_, j) => if j = i then d.cshCutEnded else d
    | none => d
  else d

/-- Every live Cut that `p` selects ends with a status, and its block acts; the records of the Cuts, of class 6, follow those
of their blocks' endings (R45). -/
def Dev.failCuts (d : Dev) (p : CutSlot → Bool) (st : Nat) (logs : Bool) : Dev :=
  let l := ((List.range 32).filter (fun i => (d.cut i).live && p (d.cut i))).map (fun i => (i, d.cut i))
  let d := l.foldl (fun d x => d.failCut x.1 st false) d
  let d := l.foldl (fun d x => d.cutGone x.1 x.2 st) d
  if logs then l.foldl (fun d x => d.cutFailed x.1 x.2 st) d else d

/-! ## Software and the slots (R49) -/

/-- The slot that SLT_CUT_SEL names. -/
def Dev.selSlot (d : Dev) : Nat := d.rf SLT_CUT_SEL_SLOT

/-- A write of T or TARGET: only while the slot is FREE, which it reserves. -/
def Dev.cutReserve (d : Dev) (f : CutSlot → CutSlot) : Dev :=
  let i := d.selSlot
  let c := d.cut i
  if c.state = .free then d.setCut i { f c with reserved := true } else d

def CutSlot.setTickLo (c : CutSlot) (v : Word) : CutSlot := { c with tick := c.tick / 2 ^ 32 * 2 ^ 32 + v.toNat }
def CutSlot.setTickHi (c : CutSlot) (v : Word) : CutSlot := { c with tick := v.toNat * 2 ^ 32 + c.tick % 2 ^ 32 }
def CutSlot.setTarget (c : CutSlot) (v : Word) : CutSlot := { c with target := v.toNat / 2 ^ 16 }

/-- A USER Cut request on a FREE slot: its status and, where it is accepted, the armed and confirmed slot. -/
def Dev.userArm (d : Dev) (i target t : Nat) : Nat × Dev :=
  let st := if 15 < target then stACCESS else if !d.leadOk t then stLEAD else stDONE
  if st = stDONE then (st, d.setCut i { armedSlot kUSER target t with confirmed := true })
  else (st, (d.cutRefused kUSER target st).setCut i { (d.cut i) with status := st, reserved := false })

/-- ARM, to the selected slot. -/
def Dev.sltArm (d : Dev) : Dev :=
  let i := d.selSlot
  let c := d.cut i
  if c.state = .free then (d.userArm i c.target c.tick).2 else d

/-- A slot that is FREE again keeps what its T, TARGET and STATUS show. -/
def CutSlot.freed (c : CutSlot) : CutSlot := { c with state := .free, kind := 0, reserved := false, confirmed := false }

/-- CANCEL, to the selected slot (R43, R49). -/
def Dev.sltCancel (d : Dev) : Dev :=
  let i := d.selSlot
  let c := d.cut i
  if c.state = .free ∨ c.state = .done ∨ c.state = .failed then d.setCut i c.freed
  else if d.cancellable i then (d.failCut i stABORT false).cutGone i c stABORT
  else d

/-- A write of SLT_CUT_CTL. -/
def Dev.sltCutWrite (d : Dev) (v : Word) : Dev :=
  let d := d.cutReserve (·.setTarget v)
  let d := if v.getLsbD 0 then d.sltArm else d
  if v.getLsbD 1 then d.sltCancel else d

def execUserCutArm (_rq : Requester) (v : Word) (s : State) : Out :=
  s.timedWrite SLT_CUT_CTL (fun d => d.sltCutWrite (v ||| 1))

def execCutCancel (_rq : Requester) (v : Word) (s : State) : Out :=
  s.timedWrite SLT_CUT_CTL (fun d => d.sltCutWrite (v ||| 2))

/-- A write of T or TARGET that neither arms nor cancels. -/
def execCutSlotReserve (_rq : Requester) (which : CutReg) (v : Word) (s : State) : Out :=
  match which with
  | .tickLo => s.timedWrite SLT_CUT_TICK_LO (fun d => d.cutReserve (·.setTickLo v))
  | .tickHi => s.timedWrite SLT_CUT_TICK_HI (fun d => d.cutReserve (·.setTickHi v))
  | .target => s.timedWrite SLT_CUT_CTL (fun d => d.sltCutWrite (v &&& ~~~3))

/-! ## Cut sites (R48, R50) -/

/-- Is a die's Cut site, host tile (57, 0), in a region that is isolated or off? -/
def Dev.cutSiteDead (d : Dev) (die : Nat) : Bool := (d.tileDead die 57 0).isSome

/-- User logic raises ARM; the request is sampled on this tick. -/
def execCutSiteArm (die : Fin 2) (port : BitVec 4) (time : BitVec 64) (s : State) : Out :=
  s.timed (fun d =>
    if d.cutSiteDead die ∨ (SMap.at none d.hub.siteAck die).isSome then d else
    let (st, slot, d) := match d.requestCut kUSER port.toNat time.toNat with
      | (.inl i, d) => (stDONE, i, d.confirmCut i)
      | (.inr st, d) => (st, 0, d)
    { d with hub := { d.hub with siteAck := SMap.set none d.hub.siteAck die (some (d.slate + 1, st, slot)) } })

/-- The site raises ACK in the TICK cycle of the tick after the request was sampled. -/
def execCutSiteAck (die : Fin 2) (s : State) : Out :=
  s.timed (fun d =>
    match SMap.at none d.hub.siteAck die with
    | some (t, st, slot) =>
      if t ≤ d.slate then
        let d := { d with hub := { d.hub with siteAck := SMap.set none d.hub.siteAck die none } }
        if d.cutSiteDead die then d else d.out (.cutAck die st slot)
      else d
    | none => d)

/-! ## The decision and the execution (R43, R44) -/

/-- Has the unit that the Cut touches staged its new state? -/
def Dev.cutStaged (d : Dev) (i : Nat) : Bool :=
  let c := d.cut i
  if c.kind = kPOWERON then d.domState c.target == dON || d.domState c.target == dDRAIN || SMap.at false d.gaf.emu c.target
  else if c.kind = kCONFIG then d.splState == pSTAGED
  else if c.kind = kSCHEDULE then false       -- its confirmation is that of the staging check (R161)
  else if c.kind = kPOWEROFF then d.offReady c.target
  else true

/-- A unit confirms; a confirmation sampled on T − 64 itself counts. -/
def execCutConfirm (slot : Fin 32) (s : State) : Out :=
  s.timed (fun d =>
    if d.cutStaged slot then d.confirmCut slot else d)

/-- On T − 64: confirmed Cuts are PREPARED, the others FAILED with TIMEOUT. -/
def Dev.cutsDecide (d : Dev) : Dev :=
  let due := fun (c : CutSlot) => c.state == .armed && c.decided d.slate
  let d := (List.range 32).foldl (fun d i =>
    let c := d.cut i
    if due c && c.confirmed then d.setCut i { c with state := .prepared } else d) d
  d.failCuts due stTIMEOUT true

def execCutPrepare (s : State) : Out := s.timed Dev.cutsDecide

/-- A USER Cut executes: PULSE[p] of the Cut site of each die (R48). -/
def Dev.userCut (d : Dev) (i : Nat) : Dev :=
  let p := (d.cut i).target
  [0, 1].foldl (fun d die => if d.cutSiteDead die then d else d.out (.cutPulse die p)) (d.cutExecuted i)

/-- The PREPARED Cut of a slot executes. -/
def Dev.cutRun (d : Dev) (i : Nat) : Dev :=
  let c := d.cut i
  if c.kind = kPOWERON then d.powerOnCut i
  else if c.kind = kCONFIG then d.configCut i
  else if c.kind = kKEY then d.keyCutExecute i
  else if c.kind = kSCHEDULE then (d.cutExecuted i).cshSwitch c.target
  else if c.kind = kUSER then d.userCut i
  else d.powerOffCut i

/-- The slots whose Cut executes on this tick, in ascending order of kind, then of slot. -/
def Dev.cutsDue (d : Dev) : List Nat :=
  [kPOWERON, kCONFIG, kKEY, kSCHEDULE, kUSER, kPOWEROFF].flatMap (fun k =>
    (List.range 32).filter (fun i => let c := d.cut i; c.state == .prepared && c.tick == d.slate && c.kind == k))

/-- Run one due slot, if it is still PREPARED when its turn comes. -/
def Dev.cutTurn (d : Dev) (i : Nat) : Dev := if (d.cut i).state = .prepared then d.cutRun i else d

def execCutExecute (s : State) : Out := s.timed (fun d => d.cutsDue.foldl Dev.cutTurn d)

end Sys2Proof.Machine
end

