-- ==== Sys2Proof/Machine/Reset.lean ====
section
/-! DEFINITION. Resets (18_startup_reset_recovery): their sources, scopes and what each clears and keeps (Tables RST-4 and
RST-5, R396 to R398), and power-good (R404). -/
namespace Sys2Proof.Machine
open Reg

/-- Scope codes of GAF_RST_CAUSE. -/
def sCORE : Nat := 1
def sSYSTEM : Nat := 2
def sFULL : Nat := 3

/-- The key, in `Dev.marks`, of the reset taken on this tick; its class field holds scope × 16 + cause. -/
def takenMark : Nat := 0x700

/-- The blocks of Table SLT-7 that a reset of each scope clears. -/
def scopeBlocks (scope : Nat) : List Nat :=
  if scope = sCORE then [0x0E, 0x11, 0x12]
  else if scope = sSYSTEM then [0x03, 0x04, 0x05, 0x06, 0x07, 0x08, 0x09, 0x0A, 0x0E, 0x0F, 0x10, 0x11, 0x12, 0x15, 0x16, 0x17, 0x18, 0x19]
  else (List.range 0x1A).map (· + 1)

/-- A reset is taken: the blocks it clears refuse the control writes of its tick (R34), and GAF_RST_CAUSE and GAF 0x09 tell
of it. -/
def Dev.resetTaken (d : Dev) (scope cause rail cls : Nat) : Dev :=
  let d := { d with marks := d.marks ++ (takenMark, scope * 16 + cause) :: (scopeBlocks scope).map (fun b => (resetMark b, cls)) }
  let d := ((d.wf GAF_RST_CAUSE_CAUSE cause).wf GAF_RST_CAUSE_SCOPE scope).wf GAF_RST_CAUSE_RAIL rail
  d.gafLog 0x09 .warn [cause, scope, rail, 0, 0]

/-- Reservations of Cut slots end (R49). -/
def Dev.reservationsEnd (d : Dev) : Dev :=
  (List.range 32).foldl (fun d i => if (d.cut i).reserved then d.setCut i { (d.cut i) with reserved := false } else d) d

/-- The supervisor side that every scope resets: core, EVC, WDG and MON. The core starts once P1 is ON. -/
def Dev.supervisorReset (d : Dev) (full : Bool) : Dev :=
  let d := d.evcReset
  let d := (d.resetRange WDG_CTL 0x0203FFFF).resetRange MON_CFG 0x0204FFFF
  let d := d.setSup { d.sup with core := Core.reset, uart := Uart.reset, wdgAcc := 0, wdgWarned := false, wdgFrozen := false,
                                 boot := { d.sup.boot with phase := 0, full := full } }
  let d := (d.setGaf { d.gaf with d4Stop := false }).reservationsEnd
  if d.domState 1 = dON then d.coreStart true else d

/-- Flags that hardware sets on the tick of the reset, by an event of a higher class, stay set (R35). -/
def Dev.setsKept (d : Dev) (old : Dev) : Dev :=
  old.sets.foldl (fun d p =>
    match rowAt p.1 with
    | some r => d.wr p.1 (d.rd p.1 ||| (p.2 &&& w1cMask r &&& old.rd p.1))
    | none => d) d

/-! ## CORE -/

def Dev.coreReset (d : Dev) : Dev := ((d.resetTaken sCORE 8 0 1).supervisorReset false).setsKept d

/-! ## SYSTEM -/

/-- Work of the loader, of a Splice and of the Reel store ends with ABORT (R398). -/
def Dev.workEnds (d : Dev) : Dev :=
  let d := d.nvsReset true
  let d := d.loadAbort
  match d.cfg.splice with
  | some im => (d.setSplice (some { im with left := [] })).spliceEnd stABORT (im.reached true) true
  | none => d

/-- Every armed Cut is cancelled with ABORT and SLT 0x02. -/
def Dev.cutsAbort (d : Dev) : Dev :=
  (List.range 32).foldl (fun d i => if (d.cut i).live then d.failCut i stABORT true else d) d

/-- The domains that a SYSTEM reset takes down and ramps again: fabric regions, engine groups and P27. -/
def reRamped : List Nat := (List.range 20).map (· + 3) ++ [27]

/-- What is kept of the key store and the fuses. -/
def Dev.cfgKept (d : Dev) : Cfg :=
  { Cfg.reset with fuseKey := d.cfg.fuseKey, storeKey := d.cfg.storeKey, keyErased := d.cfg.keyErased,
                   keyTamper := d.cfg.keyTamper, keyRecs := d.cfg.keyRecs, blowing := d.cfg.blowing }

/-- The configuration side: CFG, NVS and SPL registers reset, planes zeroed, golden signatures lost. The store and the keys
stay. -/
def Dev.configReset (d : Dev) : Dev :=
  let k := d.rd CFG_KEY_STAT
  let d := (d.resetRange 0x02200000 0x0222FFFF).setCfg d.cfgKept
  let d := (d.wf CFG_KEY_STAT_OPTION (fieldGet CFG_KEY_STAT_OPTION.lo 1 k)).keyPowerUp
  let d := d.setNvs { d.nvs with op := none, lastCe := none }
  d.setSup { d.sup with boot := { d.sup.boot with scanned := false, scanAt := d.slate } }

/-- Both directions of every lane are OFF (R177), and the slots that a lane fed are lost (R197). -/
def Dev.lanesReset (d : Dev) : Dev :=
  let d := (List.range 8).foldl (fun d n => if d.rf (CTY_REFn_CFG_KIND n) == 3 then d.slotLost n .laneLock else d) d
  ((d.resetRange 0x10100000 0x101FFFFF).resetRange 0x18100000 0x181FFFFF) |> fun d => { d with lanes := [] }

/-- The scheduler is STOPPED with both banks FREE; the store stays. -/
def Dev.cshReset (d : Dev) : Dev :=
  let d := d.resetRange 0x02300000 0x0230FFFF
  { d with csh := { Csh.reset with entries := d.csh.entries, poison := d.csh.poison } }

/-- The votes that hold right after a SYSTEM reset: the supervisor's, the debugger's while ATTACH is set, and the mesh's. -/
def Dev.votesAfter (d : Dev) (p : Nat) : Nat :=
  1 + (if d.sup.dbg.attach ∧ (p = 1 ∨ p = 2) then 2 else 0) + (if p = 29 ∧ d.bit MSH_CFG_EN then 8 else 0)

/-- The CKC and GAF registers and the votes, with the states that the domains had. -/
def Dev.powerReset (d : Dev) : Dev :=
  let was := fun p => if SMap.at false d.gaf.emu p then dON else d.domState p
  let queued := fun p => d.bit (GAF_DOMd_STAT_QUEUED p)
  let c := d.rd GAF_RST_CAUSE
  let d := ((d.resetRange 0x02010000 0x0201FFFF).resetRange 0x02020000 0x0202FFFF).wr GAF_RST_CAUSE c
  let d := d.setGaf { d.gaf with gatedLog := [], downNext := [], byCut := [], cutClient := [], portVotes := [], emu := [], blocked := [],
                                 sleepD0 := false, d4Stop := false, d0Stop := false, xtalGood := 0, xtalBad := 0,
                                 xtalEver := false, xtalFailed := false, fcnt := none, synRelock := [] }
  let d := (List.range 30).foldl (fun d p =>
    if !votable p then d.wf (GAF_DOMd_STAT_STATE p) dON
    else
      let d := d.wf (GAF_DOMd_STAT_VOTES p) (d.votesAfter p)
      if reRamped.contains p ∨ was p = dOFF then d.enterRamp p
      else if was p = dON ∨ was p = dDRAIN then d.wf (GAF_DOMd_STAT_STATE p) dON
      else ((d.wf (GAF_DOMd_STAT_STATE p) (was p)).on (GAF_DOMd_STAT_ISOLATED p)).wb (GAF_DOMd_STAT_QUEUED p) (queued p)) d
  d.ctyVotes

def Dev.systemReset (d0 : Dev) (cause rail cls : Nat) : Dev :=
  let d := d0
  let d := (d.resetTaken sSYSTEM cause rail cls).workEnds.cutsAbort
  let d := reRamped.foldl (fun d p => if d.domState p = dDOWN ∨ d.domState p = dOFF then d else d.domainDown p cls) d
  let d := (List.range 4).foldl Dev.channelDown d
  let d := d.cshReset.lanesReset.configReset.powerReset
  let d := (List.range 8).foldl (fun d f => if d0.synLocked f && !d.synLocked f then d.capClockStops f else d) d
  ((d.setSup { d.sup with sram := [] }).supervisorReset true).setsKept d0

/-! ## FULL -/

/-- LO_IN of LO_SEL[2:0] (Table CTY-15). -/
def loHz (c : Nat) : Nat := [10000000, 12800000, 19200000, 20000000, 25000000, 38400000, 40000000, 100000000].getD c 0

/-- What straps give the registers. -/
def Dev.strapRegs (d : Dev) (st : Straps) : Dev :=
  let d := (d.wf MSH_ID_STRAP st.id.toNat).wf CTY_LO_CFG_NOM_HZ (loHz st.lo.toNat)
  (d.wf TWI_CFG_ADDR (0x58 + st.id.toNat % 8)).wf GAF_RST_CAUSE_BOOT_MODE st.boot.toNat

/-- The state a FULL reset leaves before its record: all is new but fuses, the Reel store and the key store. -/
def Dev.fullFresh (d : Dev) : Dev :=
  let k := fieldGet CFG_KEY_STAT_OPTION.lo 1 (d.rd CFG_KEY_STAT)
  let serial := d.rd MSH_SERIAL
  let x := (d.nvsReset false).nvs
  let e := Dev.reset
  let e := (e.wr DLY_STAT 0).wr GAF_RST_CAUSE 0
  let e := { e with
    free := d.free, outs := d.outs, hub := Hub.reset, nvs := { Nvs.reset with pages := x.pages, heads := x.heads },
    mem := { Mem.reset with draws := d.mem.draws + 1, start := d.mem.draws + 1 },
    cfg := { d.cfgKept with blowing := none },
    gaf := { e.gaf with held := d.gaf.held, good := d.gaf.good, rail := d.gaf.rail, straps := d.gaf.straps } }
  ((e.wr MSH_SERIAL serial).wf CFG_KEY_STAT_OPTION k).strapRegs d.gaf.straps

/-- A random source that has failed its start-up health test leaves every channel OFF (R275). -/
def Dev.rngTest (d : Dev) : Dev :=
  if d.gaf.straps.rng then d else (d.on MPE_STAT_RNG_FAIL).mpeLog 0x0D .fatal [0, 0, 0, 0, 0]

def Dev.fullReset (d : Dev) (cause rail cls : Nat) : Dev :=
  (d.fullFresh.resetTaken sFULL cause rail cls).rngTest.keyPowerUp

/-! ## Several resets on one tick (R398) -/

/-- The scope of a cause (Table RST-4). -/
def causeScope (cause : Nat) : Nat := if cause ≤ 3 then sFULL else if cause ≤ 7 then sSYSTEM else sCORE

/-- A reset of a cause. One of no wider scope than a reset already taken on this tick is part of it, and the lowest cause
code of that scope stands in GAF_RST_CAUSE. -/
def Dev.reset_ (d : Dev) (cause rail : Nat) : Dev :=
  let scope := causeScope cause
  let cls := if cause = 3 ∨ cause = 4 then 2 else 1
  match d.marks.find? (fun m => m.1 == takenMark && decide (scope * 16 ≤ m.2)) with
  | some m =>
    if m.2 / 16 = scope ∧ cause < d.rf GAF_RST_CAUSE_CAUSE then (d.wf GAF_RST_CAUSE_CAUSE cause).wf GAF_RST_CAUSE_RAIL rail
    else d
  | none =>
    if scope = sFULL then d.fullReset cause rail cls
    else if scope = sSYSTEM then d.systemReset cause rail cls
    else d.coreReset

/-! ## Sources -/

/-- A write of GAF_RST: without its key, or with a SCOPE that is not 1 or 2, it is refused. -/
def Dev.rstWrite (d : Dev) (v : Word) : Dev :=
  let sc := fieldGet 0 2 v
  if fieldGet 16 16 v ≠ 0xC3A5 ∨ (sc ≠ 1 ∧ sc ≠ 2) then d.gafRefused GAF_RST stACCESS
  else d.reset_ (if sc = 1 then 8 else 7) 0

def execCoreReset (_rq : Requester) (v : Word) (s : State) : Out :=
  s.busWrite GAF_RST (fun d => d.rstWrite (fieldSet 0 2 1 v))

def execSystemReset (_rq : Requester) (v : Word) (s : State) : Out :=
  s.busWrite GAF_RST (fun d => d.rstWrite (fieldSet 0 2 2 v))

/-- The watchdog's count has come to zero (R347). -/
def execWatchdogExpiry (s : State) : Out :=
  s.act (fun d =>
    if d.p1On && d.bit WDG_CTL_EN && !d.wdgHeld && d.rf WDG_COUNT_COUNT == 0 then
      (d.wdgLog 0x02 .fatal [0, 0, 0, 0, 0]).reset_ 5 0
    else d)

/-- RESET_N has been low for `lowNs`: after 1 µs a FULL reset, held while the pin stays low. -/
def execResetPin (lowNs : Nat) (s : State) : Out :=
  s.apply (fun d =>
    if lowNs < 1000 ∨ d.gaf.held then d
    else (d.setGaf { d.gaf with held := true }).reset_ 2 0)

/-- RESET_N rises after a held low: the reset is released with the straps sampled anew. -/
def execResetNRisingEdge (straps : Straps) (s : State) : Out :=
  s.apply (fun d =>
    if !d.gaf.held then d else
    let d := d.setGaf { d.gaf with held := false, straps := if d.gaf.good then straps else d.gaf.straps }
    if d.gaf.good then { d.fullReset 2 0 1 with marks := d.marks } else d)

/-- Power-good falls by rail 1, 2 or 3 (R404): nothing of the device runs until it returns. -/
def Dev.powerBad (d : Dev) (rail : Nat) : Dev :=
  if !d.gaf.good then d
  else { d.fullFresh with gaf := { d.fullFresh.gaf with good := false, rail := rail } }

def execPowerGoodFall (rail : Fin 3) (s : State) : Out := s.apply (fun d => d.powerBad (rail + 1))

/-- A rail below its brown-out level: rails 1 to 3 take power-good away, the others a SYSTEM reset. -/
def execBrownOut (rail : BitVec 4) (s : State) : Out :=
  s.apply (fun d =>
    let r := rail.toNat
    if r = 0 ∨ 9 < r then d
    else if r ≤ 3 then d.powerBad r
    else if d.live then d.reset_ 4 r else d)

/-- Power-good rises: the straps are sampled, and the device takes a FULL reset of cause 1, or 3 after a brown-out. -/
def execPowerGood (straps : Straps) (s : State) : Out :=
  s.apply (fun d =>
    if d.gaf.good then d else
    let r := d.gaf.rail
    let d := d.setGaf { d.gaf with good := true, straps := straps, rail := 0 }
    d.reset_ (if r = 0 then 1 else 3) r)

end Sys2Proof.Machine
end

