-- ==== Sys2Proof/Machine/Boot.lean ====
section
/-! DEFINITION. The boot ROM (18_startup_reset_recovery): the choice of the boot Reel (R392, R394) and the firmware
descriptor (R395). The ROM is a program of the supervisor core; it acts on Slate ticks while the core runs. -/
namespace Sys2Proof.Machine
open Reg

def Dev.setBoot (d : Dev) (b : Boot) : Dev := d.setSup { d.sup with boot := b }

def Dev.bootMode (d : Dev) : Nat := d.rf GAF_RST_CAUSE_BOOT_MODE

/-- The slot that a boot from the store loads first: CUR of a valid boot record, else 0. -/
def Dev.bootSlot (d : Dev) : Nat := if d.bit NVS_BOOT_STAT_VALID then d.rf NVS_BOOT_STAT_CUR else 0

/-- The region table of an image in the store, found section by section. -/
def Dev.bootTable (d : Dev) (im : Image) (h : List Byte) : Nat → Nat → Option (List Byte)
  | 0, _ => none
  | fuel + 1, o =>
    let stop := hdrLength h - 32
    if stop < o + 16 then none
    else
      let s := sectionOf (d.bodyBytes im false h o 16)
      if !s.formed (stop - o - 16) then none
      else if s.typ = secTABLE ∧ s.sub = 1 then some (d.bodyBytes im false h (o + 16) s.len)
      else d.bootTable im h fuel (o + 16 + s.padded)

/-- Is every fabric domain named by the MANIFEST of the image in a slot ON (R392)? -/
def Dev.bootDomainsOn (d : Dev) (slot : Nat) : Bool :=
  let im := Image.start 0 slot 0 (slot * 0x0A000000) 0 d.slate
  let h := d.imageBytes im false 0 256
  if (d.headerCheck h false false true).isSome then true
  else match d.bootTable im h 1000 256 with
    | none => true
    | some t =>
      let es := regionEntries t
      (hdrRegions h).all (fun r => match es[r]? with
        | some e => !entryDefines es r || d.domState (columnDomain e.die e.x0) == dON
        | none => true)

/-- The ROM writes START. -/
def Dev.bootStart (d : Dev) (src slot : Nat) : Dev :=
  let d := ((d.wf CFG_CTL_SRC src).wf CFG_CTL_SLOT slot).wf CFG_CTL_PORT 0
  let d := d.setBoot { d.sup.boot with phase := 2, loads := d.sup.boot.loads + 1, slot := slot }
  d.loadStart src slot 0

/-- On a Slate tick: a ROM that waits to load enables the clocks of CFG and NVS once P2 is ON, and starts its load. -/
def Dev.bootTick (d : Dev) : Dev :=
  if !d.coreRuns || d.sup.boot.phase != 1 || !d.domainUp 2 then d else
  let d := (d.on ⟨CKC_EN_HUB, 3, 1⟩).on ⟨CKC_EN_HUB, 4, 1⟩
  let m := d.bootMode
  if m = 0 then (if d.sup.boot.scanned && d.bootDomainsOn d.bootSlot then d.bootStart 0 d.bootSlot else d)
  else if m = 1 then d.bootStart 1 0
  else if m = 2 then d.bootStart 2 0
  else d.setBoot { d.sup.boot with phase := 3 }

/-- No image boots: CFG 0x0B, CFG_ERR high, and Tamop, by way of the firmware descriptor. -/
def Dev.bootNone (d : Dev) : Dev :=
  let d := d.cfgLog 0x0B .fatal [d.bootMode, d.rf CFG_STAT_STATUS, d.sup.boot.loads, 0, 0]
  let d := d.setCfg { d.cfg with errHigh := true }
  d.setBoot { d.sup.boot with phase := 3 }

/-- The ROM's load has failed and CLEARING has ended (R394). -/
def Dev.bootFallback (d : Dev) : Dev :=
  let m := d.bootMode
  let st := d.rf CFG_STAT_STATUS
  let b := d.sup.boot
  let prev := d.rf NVS_BOOT_STAT_PREV
  if m = 0 ∧ b.loads = 1 ∧ d.bit NVS_BOOT_STAT_VALID ∧ prev ≠ b.slot then
    (d.cfgLog 0x0A .warn [b.slot, st, prev, 0, 0]).bootStart 0 prev
  else if m = 1 ∧ st = stTIMEOUT ∧ b.loads < 16 then d.bootStart 1 0
  else d.bootNone

def execBootFallbackLoad (s : State) : Out :=
  s.act (fun d => if d.coreRuns && d.sup.boot.phase == 2 && d.cfgState == gFAILED then d.bootFallback else d)

/-- The firmware descriptor's store offset. -/
def fwBase : Nat := 0x28000000

/-- What is wrong with the descriptor and its body, in the order of the conditions of R395: magic, length, entry, CRC. -/
def fwBad (h body : List Byte) : Option Nat :=
  let len := hdrNat h 4 4
  let entry := hdrNat h 8 4
  if hdrNat h 0 4 ≠ 0x46574D52 then some 0
  else if len % 4 ≠ 0 ∨ 458752 < len then some 1
  else if entry < 0x100000 ∨ 0x100000 + len ≤ entry then some 2
  else if hdrNat h 12 4 ≠ (crc32c (h.take 12 ++ body)).toNat then some 3
  else none

/-- Words from word index `i` of the supervisor's SRAM on. -/
def sramPut (m : SMap Word) : Nat → List Word → SMap Word
  | _, [] => m
  | i, w :: ws => sramPut (SMap.set 0 m i w) (i + 1) ws

/-- Little-endian words of bytes. -/
def wordsOf (n : Nat) (b : List Byte) : List Word := (List.range n).map (fun i => BitVec.ofNat 32 (leNat (bytesAt b (4 * i) 4)))

/-- The ROM reads the firmware descriptor; what it cannot read fails as the CRC does. -/
def Dev.firmware (d : Dev) (pages : List PageErr) : Dev :=
  let h := d.storeBytes fwBase 16
  let len := hdrNat h 4 4
  let n := if len ≤ 458752 then len else 0
  let (bad, d) := d.pagesRead fwBase (16 + n) pages
  let body := d.storeBytes (fwBase + 16) n
  match (match bad with | some _ => some 3 | none => fwBad h body) with
  | some c => (d.cfgLog 0x0C .error [c, 0, 0, 0, 0]).setBoot { d.sup.boot with phase := 4 }
  | none =>
    let d := d.setSup { d.sup with sram := sramPut d.sup.sram 0 (wordsOf (len / 4) body) }
    (d.setCore { d.sup.core with pc := BitVec.ofNat 32 (hdrNat h 8 4) }).setBoot { d.sup.boot with phase := 5 }

def execFirmwareDescriptor (pages : List PageErr) (s : State) : Out :=
  s.act (fun d => if d.coreRuns && d.sup.boot.phase == 3 && d.domainUp 2 then d.firmware pages else d)

end Sys2Proof.Machine
end

