-- ==== Sys2Proof/Machine/FabArray.lean ====
section
/-! DEFINITION. User logic as the loaded frames configure it (04_fabric_logic_and_routing): the cells of every tile, the
crossbars and express links, the I/O tiles, the cycles of the fabric clocks, and the capture units that sample them. -/
namespace Sys2Proof.Machine
open Reg

/-! ## Configured tiles -/

/-- The configuration of a logic tile, from the active plane. -/
def Dev.tileCfg (d : Dev) (die tile : Nat) : Config.TileConfig :=
  Config.tileConfig (fun f => SMap.at 0 d.cfg.active (frameKey die (4 * tile + f.val)))

/-- The configuration of an I/O tile. -/
def Dev.ioCfg (d : Dev) (die i : Nat) : Config.IoTileConfig :=
  Config.ioConfig (fun f => SMap.at 0 d.cfg.active (frameKey die (28800 + 2 * i + f.val)))

/-- Is user logic clocked in a tile: a region that is LOADED holds it, in a domain that is powered (R316, R317)? -/
def Dev.tileRuns (d : Dev) (die tile : Nat) : Bool :=
  match d.regionOf die (tile % 120) (tile / 120) with
  | some r => d.rstate r == rLOADED && d.regionPowered r
  | none => false

/-- The region that holds the I/O tile of a column (R316). -/
def Dev.ioRegion (d : Dev) (die i : Nat) : Option Nat := (List.range 64).find? (fun r => d.regionHoldsIo r die (ioColumn i))

def Dev.ioRuns (d : Dev) (die i : Nat) : Bool :=
  match d.ioRegion die i with
  | some r => d.rstate r == rLOADED && d.regionPowered r
  | none => false

/-- Does an I/O tile drive zero and take nothing (R17, R86, R318)? -/
def Dev.ioDead (d : Dev) (die i : Nat) : Bool :=
  let p := columnDomain die (ioColumn i)
  !d.domainUp p || SMap.at false d.gaf.isoDomain p ||
  (match d.ioRegion die i with | some r => d.bit (SPL_REGr_STAT_ISOLATED r) | none => true)

/-! ## Registers of user logic -/

def cellKey (die tile cl c : Nat) : Nat := (die * 7200 + tile) * 256 + cl * 16 + c

def dirCode : Config.Dir → Nat
  | .left => 0 | .right => 1 | .down => 2 | .up => 3

def distCode : Config.Dist → Nat
  | .one => 0 | .four => 1 | .sixteen => 2

def distTiles : Config.Dist → Nat
  | .one => 1 | .four => 4 | .sixteen => 16

/-- Wires of a link between logic tiles (Table FAB-3). -/
def linkWidth : Config.Dist → Nat
  | .one => 32 | .four => 16 | .sixteen => 8

def allDirs : List Config.Dir := [.left, .right, .down, .up]
def allDists : List Config.Dist := [.one, .four, .sixteen]

/-- The receiving register of a wire, at the tile it enters; `dir`: the way the signal runs. -/
def wireKey (die tile : Nat) (dir : Config.Dir) (dist : Config.Dist) (wire : Nat) : Nat :=
  (((die * 7200 + tile) * 4 + dirCode dir) * 3 + distCode dist) * 32 + wire

def pinKey (die bank pin : Nat) : Nat := die * 288 + bank * 48 + pin

/-- A cell as its configuration leaves it: its initial values, and the stored bits that its table holds (R80, log entry 168). -/
def cellInit (k : Config.CellConfig) : CellState := { q1 := k.q1.init, q2 := k.q2.init, mem := k.table }

/-! ## A tile in one cycle (R79 to R84) -/

/-- What a tile's logic sees in a cycle. -/
structure TileView where
  cfg  : Config.TileConfig
  cell : Nat → Nat → CellState
  wire : Config.Dir → Config.Dist → Nat → Bool
  site : Nat → Nat → Bool
  time : Config.TimeWireBit → Bool

/-- A combinational value of a cell: one of its outputs, or its carry out. -/
inductive CellNet where
  | out (o : Config.CellOut) | carry
  deriving DecidableEq, Repr

/-- A source of the tile crossbar other than a cell. -/
def TileView.outer (v : TileView) : Config.TileSrc → Bool
  | .cell _ _ => false
  | .link dir dist w => v.wire dir dist w.val
  | .site p w => v.site p.val w
  | .time b => v.time b

/-- The address on I0 to I5. -/
def cellBits (f : Nat → Bool) : BitVec 6 :=
  BitVec.ofNat 6 ((f 0).toNat + 2 * (f 1).toNat + 4 * (f 2).toNat + 8 * (f 3).toNat + 16 * (f 4).toNat + 32 * (f 5).toNat)

/-- The outputs of a cell from its inputs I0 to I5, DX, its carry in and what it holds (Table FAB-2, R81 to R83). -/
def cellOut (k : Config.CellConfig) (s : CellState) (i : Nat → Bool) (cin : Bool) : CellNet → Bool
  | .out .q1 => s.q1
  | .out .q2 => s.q2
  | .out .la =>
    match k.mode with
    | .lut6 => cellBit k.table (cellBits i)
    | .lut5x2 => k.table.getLsbD ((cellBits i).toNat % 32)
    | .arith => (arithCell (i 0) (i 1) (i 2) cin).1
    | .shift | .ram => cellBit s.mem (cellBits i)
  | .out .lb =>
    match k.mode with
    | .lut6 => if k.lbQ2 then s.q2 else s.q1
    | .lut5x2 => k.table.getLsbD (32 + (cellBits i).toNat % 32)
    | .arith => (arithCell (i 0) (i 1) (i 2) cin).2
    | .shift => s.mem.getLsbD 63
    | .ram => i 6
  | .carry => k.mode == .arith && (arithCell (i 0) (i 1) (i 2) cin).2

/-- The value of a cell's output in the cycle, through at most `n` cells: its inputs by the cluster crossbar, a cluster's by the
tile crossbar (R84), the carry by the chain of R83 (from the cell before in its cluster, or from the last cell of the cluster
before). A design has no combinational loop and at most three table levels (R87, R90). -/
def TileView.net (v : TileView) : Nat → Fin 16 → Fin 16 → CellNet → Bool
  | 0, _, _, _ => false
  | n + 1, cl, c, w =>
    let k := (v.cfg.clusters cl).cells c
    let take := fun (s : Config.ClusterSrc) =>
      match s with
      | .cell m o => v.net n cl m (.out o)
      | .input j =>
        match (v.cfg.clusters cl).ins j with
        | .cell cl' c' => v.net n cl' c' (.out ((v.cfg.clusters cl').cells c').tile)
        | x => v.outer x
    let cin :=
      if !k.chained then k.carryIn
      else if c.val ≠ 0 then v.net n cl (c - 1) .carry
      else if cl.val ≠ 0 then v.net n (cl - 1) 15 .carry
      else k.carryIn
    cellOut k (v.cell cl.val c.val) (fun i => take (k.ins (Fin.ofNat 8 i))) cin w

/-- Cells that a value can pass in one cycle: three levels, and a chain through every cell of the tile. -/
def netDepth : Nat := 260

/-- A source of the tile crossbar. -/
def TileView.src (v : TileView) : Config.TileSrc → Bool
  | .cell cl c => v.net netDepth cl c (.out ((v.cfg.clusters cl).cells c).tile)
  | x => v.outer x

/-- A cluster input. -/
def TileView.clusterIn (v : TileView) (cl : Fin 16) (j : Fin 52) : Bool := v.src ((v.cfg.clusters cl).ins j)

/-- An input of a cell. -/
def TileView.cellIn (v : TileView) (cl c : Fin 16) (i : Fin 8) : Bool :=
  match ((v.cfg.clusters cl).cells c).ins i with
  | .cell m o => v.net netDepth cl m (.out o)
  | .input j => v.clusterIn cl j

/-- One of the cluster's two clock enables (inputs 48 and 49), or none: always high. -/
def TileView.enable (v : TileView) (cl : Fin 16) (e : Option (Fin 2)) : Bool :=
  match e with
  | none => true
  | some i => v.clusterIn cl (Fin.ofNat 52 (48 + i.val))

/-- One of its two synchronous resets (inputs 50 and 51), or none. -/
def TileView.reset (v : TileView) (cl : Fin 16) (e : Option (Fin 2)) : Bool :=
  match e with
  | none => false
  | some i => v.clusterIn cl (Fin.ofNat 52 (50 + i.val))

/-- A flip-flop at the edge that ends the cycle. -/
def TileView.flop (v : TileView) (cl : Fin 16) (f : Config.FlopConfig) (dIn q : Bool) : Bool :=
  flipFlop (v.reset cl f.reset) f.resetVal (v.enable cl f.enable) dIn q

/-- A cell after the edge that ends the cycle: Q1 from LA or DX, Q2 from DY or, in a LUT5×2 cell, LB; and the stored bits of a
SHIFT or RAM cell (Table FAB-2, R80 to R82). -/
def TileView.cellNext (v : TileView) (cl c : Fin 16) : CellState :=
  let k := (v.cfg.clusters cl).cells c
  let s := v.cell cl.val c.val
  let out := fun o => v.net netDepth cl c (.out o)
  let dx := v.cellIn cl c 6
  let en := v.enable cl k.memEn
  { q1 := v.flop cl k.q1 (if k.q1.table then out .la else dx) s.q1,
    q2 := v.flop cl k.q2 (if k.q2.table && k.mode == .lut5x2 then out .lb else v.cellIn cl c 7) s.q2,
    mem := match k.mode with
      | .shift => shiftCell en dx s.mem
      | .ram => ramCell en dx (cellBits (fun i => v.cellIn cl c (Fin.ofNat 8 i))) s.mem
      | .lut6 | .lut5x2 | .arith => s.mem }

/-! ## The array in one cycle (R85, R86, R91) -/

/-- A wire of the time bus in a cycle; `first`: it is the TICK cycle (R93, Table CTY-13). -/
def Dev.timeWireBit (d : Dev) (first : Bool) : Config.TimeWireBit → Bool
  | .tick => first
  | .slate b => d.slate.testBit b.val
  | .tod b => d.timeOfDay.testBit b.val
  | .state b => (d.rf CTY_STAT_STATE).testBit b.val
  | .bound b => (min 0xFFFF (d.rf CTY_TE_BOUND_BOUND / 1000)).testBit b.val
  | .alarm => d.bit CTY_STAT_ALARM

/-- What a tile sees in cycle `k` of synthesiser `f`. -/
def Dev.view (d : Dev) (die tile f k : Nat) (ins : List FabricInput) : TileView :=
  let cfg := d.tileCfg die tile
  { cfg := cfg,
    cell := fun cl c =>
      (SMap.at none d.fab.cells (cellKey die tile cl c)).getD
        (cellInit ((cfg.clusters (Fin.ofNat 16 cl)).cells (Fin.ofNat 16 c))),
    wire := fun dir dist w => SMap.at false d.fab.wires (wireKey die tile dir dist w),
    site := fun p w => ins.any (fun i => match i with
      | .site die' tile' p' w' f' k' => die'.val == die && tile'.val == tile && p'.val == p && w' == w && f'.val == f && k' == k
      | .pin _ _ _ _ _ | .capTrig _ _ => false),
    time := d.timeWireBit (k == 0) }

/-- The tile from which a link of a direction and distance enters tile (x, y): its column and row, if it lies in the array. -/
def linkFrom (x y : Nat) (dir : Config.Dir) (n : Nat) : Option (Nat × Nat) :=
  match dir with
  | .right => if n ≤ x then some (x - n, y) else none
  | .left => if x + n ≤ 119 then some (x + n, y) else none
  | .up => if n ≤ y then some (x, y - n) else none
  | .down => if y + n ≤ 59 then some (x, y + n) else none

/-- The I/O tile of a column, if it holds one (R91). -/
def ioOfColumn (x : Nat) : Option Nat := (List.range 36).find? (fun i => ioColumn i == x)

/-- The registers of a pin. -/
def Dev.pinRegs (d : Dev) (die i : Nat) (p : Fin 8) : PinRegs :=
  SMap.at PinRegs.idle d.fab.pins (pinKey die (i / 6) (i % 6 * 8 + p.val))

/-- What an I/O tile drives on a wire of its links into the array: the input of a pin, after its second register in
synchroniser mode (R91). -/
def Dev.ioWire (d : Dev) (die i : Nat) (dist : Config.Dist) (w : Fin 16) : Bool :=
  let cfg := d.ioCfg die i
  match cfg.links dist w with
  | some p => let r := d.pinRegs die i p; if (cfg.pins p).sync then r.sync else r.inp
  | none => false

/-- What stands at the end of a wire that enters a tile (R85, R86): zero from a tile that is isolated or off, and nothing enters
such a tile; a link from outside the array is there only from the I/O tile of its column. -/
def Dev.wireIn (d : Dev) (die x y f k : Nat) (ins : List FabricInput) (dir : Config.Dir) (dist : Config.Dist) (w : Fin 32) : Bool :=
  if (d.tileDead die x y).isSome then false
  else match linkFrom x y dir (distTiles dist) with
    | some (x', y') =>
      if (d.tileDead die x' y').isSome || decide (linkWidth dist ≤ w.val) then false
      else
        let v := d.view die (y' * 120 + x') f k ins
        v.src (v.cfg.links dir dist w)
    | none =>
      if dir = .down ∧ y + (distTiles dist) = 60 ∧ w.val < 16 then
        match ioOfColumn x with
        | some i => if d.ioDead die i then false else d.ioWire die i dist (Fin.ofNat 16 w.val)
        | none => false
      else false

/-- What stands at the end of a wire that enters an I/O tile from the logic tile one link towards the hub. -/
def Dev.ioIn (d : Dev) (die i f k : Nat) (ins : List FabricInput) (dist : Config.Dist) (w : Fin 16) : Bool :=
  let x := ioColumn i
  let y := 60 - (distTiles dist)
  if d.ioDead die i || (d.tileDead die x y).isSome then false
  else
    let v := d.view die (y * 120 + x) f k ins
    v.src (v.cfg.links .up dist (Fin.ofNat 32 w.val))

/-- The tiles of a die in which user logic is clocked. -/
def Dev.runningTiles (d : Dev) (die : Nat) : List Nat :=
  if d.definedRegions.any (fun r => d.rstate r == rLOADED && d.rf (SPL_REGr_DEF_DIE r) == die) then
    (List.range 7200).filter (d.tileRuns die)
  else []

def Dev.runningIo (d : Dev) (die : Nat) : List Nat :=
  if d.definedRegions.any (fun r => d.rstate r == rLOADED && d.bit (SPL_REGr_DEF_IO r) && d.rf (SPL_REGr_DEF_DIE r) == die) then
    (List.range 36).filter (d.ioRuns die)
  else []

/-- The registers of a tile that synthesiser `f` clocks, as they are after the edge that ends cycle `k`: `old` is the device in
that cycle. -/
def Dev.tileStep (d old : Dev) (die tile f k : Nat) (ins : List FabricInput) : Dev :=
  let v := old.view die tile f k ins
  let cfg := v.cfg
  let on := fun (b : Bool) => (cfg.clks b).val == f
  let cells := (List.finRange 16).foldl (fun m cl =>
    if !on (cfg.clusters cl).clk then m
    else (List.finRange 16).foldl (fun m c => SMap.set none m (cellKey die tile cl.val c.val) (some (v.cellNext cl c))) m) d.fab.cells
  let wires := allDirs.foldl (fun m dir => allDists.foldl (fun m dist => (List.finRange 32).foldl (fun m w =>
    if !on (cfg.linkClk dir dist w) then m
    else SMap.set false m (wireKey die tile dir dist w.val) (old.wireIn die (tile % 120) (tile / 120) f k ins dir dist w)) m) m) d.fab.wires
  { d with fab := { d.fab with cells := cells, wires := wires } }

/-- Is the level of a pin high at the edge that ends cycle `k`? -/
def pinHigh (die bank pin f k : Nat) (ins : List FabricInput) : Bool :=
  ins.any (fun i => match i with
    | .pin die' bank' pin' f' k' => die'.val == die && bank'.val == bank && pin'.val == pin && f'.val == f && k' == k
    | .site _ _ _ _ _ _ | .capTrig _ _ => false)

/-- What a pin drives. -/
def PinRegs.drive (r : PinRegs) : Option Bool := if r.oe then some r.out else none

/-- A pin takes new registers; what it drives goes out when it changes. -/
def Dev.setPin (d : Dev) (die bank pin : Nat) (r : PinRegs) : Dev :=
  let old := SMap.at PinRegs.idle d.fab.pins (pinKey die bank pin)
  let d := { d with fab := { d.fab with pins := SMap.set PinRegs.idle d.fab.pins (pinKey die bank pin) r } }
  if old.drive = r.drive then d else d.out (.ioPin die bank pin r.drive)

/-- The pins of an I/O tile that user logic owns and synthesiser `f` clocks, after the edge (R91). -/
def Dev.ioStep (d old : Dev) (die i f k : Nat) (ins : List FabricInput) : Dev :=
  let cfg := old.ioCfg die i
  (List.finRange 8).foldl (fun d p =>
    let c := cfg.pins p
    if !c.user || (cfg.clks c.clk).val != f then d
    else
      let r := old.pinRegs die i p
      let inn := fun (x : Option (Config.Dist × Fin 16)) =>
        match x with
        | some (dist, w) => old.ioIn die i f k ins dist w
        | none => false
      d.setPin die (i / 6) (i % 6 * 8 + p.val)
        { inp := pinHigh die (i / 6) (i % 6 * 8 + p.val) f k ins, sync := r.inp, out := inn c.out,
          oe := inn c.oe && !old.ioDead die i }) d

/-- The output-enable registers of isolated I/O tiles are zero (R318). -/
def Dev.ioIsolate (d : Dev) : Dev :=
  d.fab.pins.foldl (fun d e =>
    let die := e.1 / 288
    let i := e.1 % 288 / 8
    if e.2.oe && d.ioDead die i then d.setPin die (e.1 % 288 / 48) (e.1 % 48) { e.2 with oe := false } else d) d

/-- The edge of synthesiser `f` that ends cycle `k`, on both dies. -/
def Dev.fabricEdge (d : Dev) (f k : Nat) (ins : List FabricInput) : Dev :=
  [0, 1].foldl (fun e die =>
    let e := (d.runningTiles die).foldl (fun e t => e.tileStep d die t f k ins) e
    (d.runningIo die).foldl (fun e i => e.ioStep d die i f k ins) e) d

/-! ## Probes and captures in a cycle (R94 to R97) -/

/-- The output that code `o` of FAB_PRB_SELn.OUT selects. -/
def probeOut (o : Nat) : Config.CellOut := if o = 0 then .la else if o = 1 then .lb else if o = 2 then .q1 else .q2

/-- What probe `n` samples: zero where it is disabled or its cell is isolated or off (R94). -/
def Dev.probeValue (d : Dev) (die n f k : Nat) (ins : List FabricInput) : Bool :=
  d.bit (FAB_PRB_SELn_EN die n) && (d.probeDead die n).isNone &&
    let c := d.rf (FAB_PRB_SELn_CELL die n)
    (d.view die (d.rf (FAB_PRB_SELn_TILE die n)) f k ins).net netDepth (Fin.ofNat 16 (c / 16)) (Fin.ofNat 16 c)
      (.out (probeOut (d.rf (FAB_PRB_SELn_OUT die n))))

/-- The sample of a die's probes. -/
def Dev.sample (d : Dev) (die f k : Nat) (ins : List FabricInput) : BitVec 64 :=
  (List.range 64).foldl (fun x n => if d.probeValue die n f k ins then x ||| ((1 : BitVec 64) <<< n) else x) 0

/-- A probe history without the cycles before its first value other than zero. -/
def histOf (l : List (BitVec 64)) : List (BitVec 64) := if l.all (· == 0) then [] else l

/-- Cycle `k` of a die's capture clock: the probes are sampled, their PROBE pins follow 12 cycles later, and a capture takes the
sample. -/
def Dev.capCycle (d : Dev) (die f k : Nat) (ins : List FabricInput) : Dev :=
  if d.rf (FAB_CAP_CTL_CLK die) ≠ f then d else
  let x := d.sample die f k ins
  let h := histOf ((x :: SMap.at [] d.fab.hist die).take 13)
  let d := { d with fab := { d.fab with hist := SMap.set [] d.fab.hist die h } }
  let lev := d.probePins die h
  let d := if SMap.at 0 d.fab.probeOut die = lev then d
    else ({ d with fab := { d.fab with probeOut := SMap.set 0 d.fab.probeOut die lev } }).out (.probePins die lev)
  d.capSample die k (ins.any (fun i => match i with
    | .capTrig die' k' => die'.val == die && k' == k
    | .site _ _ _ _ _ _ | .pin _ _ _ _ _ => false)) x

/-! ## The cycles of a tick (R92, R93) -/

/-- Cycles of synthesiser `f` in the present Slate tick: none unless it is locked (R374, R375). -/
def Dev.synthCycles (d : Dev) (f : Nat) : Nat :=
  if d.synLocked f && d.bit (CKC_SYNf_CFG_EN f) then
    let v := d.rd (CKC_SYNf_CFG f)
    tickCycles (fieldGet 0 16 v) (fieldGet 16 14 v) d.slate
  else 0

/-- One cycle of synthesiser `f`, with the edge that ends it. -/
def Dev.fabricCycle (d : Dev) (f : Nat) (ins : List FabricInput) (k : Nat) : Dev :=
  (((d.capCycle 0 f k ins).capCycle 1 f k ins).fabricEdge f k ins)

/-- Synthesiser `f` runs its cycles of the present tick up to, not including, cycle `n`. -/
def Dev.fabricTo (d : Dev) (f n : Nat) (ins : List FabricInput) : Dev :=
  let done := SMap.at 0 d.fab.ran f
  let top := min n (d.synthCycles f)
  if top ≤ done then d
  else
    let d := ((List.range (top - done)).map (done + ·)).foldl (fun d k => d.fabricCycle f ins k) d
    { d with fab := { d.fab with ran := SMap.set 0 d.fab.ran f top } }

/-- The tick ends: every synthesiser has run all its cycles of it. -/
def Dev.fabricTick (d : Dev) (ins : List FabricInput) : Dev :=
  let d := (List.range 8).foldl (fun d f => d.fabricTo f (d.synthCycles f) ins) d.capWatches
  { d with fab := { d.fab with ran := [] } }

/-! ## Captures (R95, R97) -/

/-- Are the cells of all enabled probes on the capture clock (R95)? A cell that is isolated or off has no clock to differ. -/
def Dev.capOnClock (d : Dev) (die : Nat) : Bool :=
  (List.range 64).all (fun n =>
    !d.bit (FAB_PRB_SELn_EN die n) || (d.probeDead die n).isSome ||
      let cfg := d.tileCfg die (d.rf (FAB_PRB_SELn_TILE die n))
      (cfg.clks (cfg.clusters (Fin.ofNat 16 (d.rf (FAB_PRB_SELn_CELL die n) / 16))).clk).val == d.rf (FAB_CAP_CTL_CLK die))

/-- SWTRIG: an ARMED capture is triggered by the sample of the cycle in which the write takes effect, its next. -/
def Dev.capSwtrig (d : Dev) (die : Nat) : Dev :=
  if d.rf (FAB_CAP_STAT_STATE die) = 1 then d.setCap die { d.capOf die with sw := true } else d

/-- A write of FAB_CAP_CTL: the settings, ignored while a capture is active, then ARM, ABORT and SWTRIG. -/
def Dev.capCtlWrite (d : Dev) (die : Nat) (v : Word) : Dev :=
  let d := if d.capActive die then d else d.plainWrite (FAB_CAP_CTL die) v
  let d := if fieldGet 0 1 v = 1 then d.capArm die (d.capOnClock die) else d
  let d := if fieldGet 1 1 v = 1 ∧ d.capActive die then d.capEnd die stABORT 0 else d
  if fieldGet 2 1 v = 1 then d.capSwtrig die else d

/-- CAPTURE_ARM (R95, R97, R98): a write of FAB_CAP_CTL with ARM. -/
def execCaptureArm (_rq : Requester) (die : Fin 2) (v : Word) (s : State) : Out :=
  s.busWrite (FAB_CAP_CTL die) (fun d => d.capCtlWrite die (v ||| fieldMask 0 1))

/-- CAPTURE_SWTRIG (R97): a write of FAB_CAP_CTL with SWTRIG. -/
def execCaptureSwtrig (_rq : Requester) (die : Fin 2) (v : Word) (s : State) : Out :=
  s.busWrite (FAB_CAP_CTL die) (fun d => d.capCtlWrite die (v ||| fieldMask 2 1))

/-- CAPTURE_TRIGGER (R97, Table FAB-8): the capture clock runs through cycle `cycle` of the present tick; an ARMED capture takes
the first trigger that falls in those cycles. -/
def execCaptureTrigger (die : Fin 2) (cycle : Nat) (ins : List FabricInput) (s : State) : Out :=
  s.act (fun d => if d.rf (FAB_CAP_STAT_STATE die) = 1 then d.capWatches.fabricTo (d.rf (FAB_CAP_CTL_CLK die)) (cycle + 1) ins else d)

/-- CAPTURE_DONE (R97): the capture clock runs through cycle `cycle` of the present tick; a TRIGGERED capture that has its POST
samples by then enters DONE. -/
def execCaptureDone (die : Fin 2) (cycle : Nat) (ins : List FabricInput) (s : State) : Out :=
  s.act (fun d => if d.rf (FAB_CAP_STAT_STATE die) = 2 then d.capWatches.fabricTo (d.rf (FAB_CAP_CTL_CLK die)) (cycle + 1) ins else d)

/-- CAPTURE_ABORT (R97): a write of FAB_CAP_CTL with ABORT. -/
def execCaptureAbort (_rq : Requester) (die : Fin 2) (v : Word) (s : State) : Out :=
  s.busWrite (FAB_CAP_CTL die) (fun d => d.capCtlWrite die (v ||| fieldMask 1 1))

end Sys2Proof.Machine
end

