-- ==== Sys2Proof/Machine/Clapper.lean ====
section
/-! DEFINITION. Clappers, barriers and data across the mesh (10_mesh_multidevice, R231 to R236). -/
namespace Sys2Proof.Machine
open Reg

def clBROADCAST : Nat := 1
def clBARRIER : Nat := 2
def clSNAPSHOT : Nat := 3
def clRESET : Nat := 4
def clCUT : Nat := 5

/-- The per-hop allowance in Slate ticks (R231). -/
def hopTicks : Nat := 38

def Dev.setMesh (d : Dev) (m : Mesh) : Dev := { d with mesh := m }

/-- D × H. -/
def Dev.depthTicks (d : Dev) : Nat := d.rf MSH_TOPO_DEPTH * hopTicks

/-! ## Failures (R233) -/

/-- A REPORT at the origin it names: FAILS counts it, and STATUS holds the first. -/
def Dev.reportTaken (d : Dev) (r : ClapReport) : Dev :=
  match d.mesh.orig with
  | some c =>
    if c.id = r.id ∧ c.kind = r.kind ∧ d.rf MSH_CLP_CTL_STATE = 1 then
      let d := if d.rf MSH_CLP_CTL_FAILS = 0 then d.wf MSH_CLP_CTL_STATUS r.status.toNat else d
      d.inc MSH_CLP_CTL_FAILS
    else d
  | none => d

/-- Send a REPORT to a Clapper's origin. -/
def Dev.reportSend (d : Dev) (c : Clap) (st : Nat) : Dev :=
  let r : ClapReport := { origin := c.origin, kind := c.kind, id := c.id, status := BitVec.ofNat 4 st }
  if c.origin.toNat = d.rf MSH_STAT_NUM then d.reportTaken r
  else (d.setMesh { d.mesh with reports := d.mesh.reports ++ [r] }).reportsFlush

/-- The Clapper fails at this device. -/
def Dev.clapFail (d : Dev) (c : Clap) (st : Nat) : Dev :=
  (d.meshLog 0x09 .error [c.kind.toNat, c.id.toNat, st, c.origin.toNat, c.origin.toNat / 256]).reportSend c st

/-! ## Receipt (R232, R233) -/

/-- A CUT Clapper requests its Cut as the arming block would. CONFIG Cuts are armed by Splices alone: that request, and
one of a kind that Table SLT-4 does not list, is refused with ACCESS. -/
def Dev.clapArm (d : Dev) (kind target t : Nat) : (Nat ⊕ Nat) × Dev :=
  if kind = kPOWERON then d.armPower false target 3 t
  else if kind = kPOWEROFF then d.armPower true target 3 t
  else if kind = kKEY ∧ target < 4 then d.armKey target t
  else if kind = kSCHEDULE ∧ target < 2 then d.armScheduleAt target t
  else if kind = kUSER ∧ target ≤ 15 then
    match d.requestCut kUSER target t with
    | (.inl i, d) => (.inl i, d.confirmCut i)
    | (.inr st, d) => (.inr st, d)
  else (.inr stACCESS, d.cutRefused kind target stACCESS)

def Dev.pendAdd (d : Dev) (p : PendClap) : Dev := d.setMesh { d.mesh with pend := d.mesh.pend ++ [p] }

/-- The device takes a Clapper that has come down the tree. -/
def Dev.clapTake (d : Dev) (c : Clap) : Dev :=
  if c.tick.toNat ≤ d.slate + 1 then d.clapFail c stLEAD
  else if 16 ≤ d.mesh.pend.length then d.clapFail c stFULL
  else if c.kind.toNat = clCUT then
    match d.clapArm c.argKind.toNat c.target.toNat c.tick.toNat with
    | (.inr st, d) => d.clapFail c st
    | (.inl i, d) => d.pendAdd { c := c, slot := some i, timeout := false }
  else d.pendAdd { c := c, slot := none, timeout := false }

/-! ## Barriers (R235) -/

def Dev.bar (d : Dev) (b : Nat) : Option Bar := SMap.at none d.mesh.bars b
def Dev.setBar (d : Dev) (b : Nat) (x : Option Bar) : Dev := d.setMesh { d.mesh with bars := SMap.set none d.mesh.bars b x }

/-- The present state of a barrier, a new one at its first arrival or naming. -/
def Dev.barNow (d : Dev) (b : Nat) : Bar :=
  (d.bar b).getD { self := false, kids := [], passed := false, firstAt := d.slate, id := none }

/-- The device takes a release: it releases on the release's tick; the origin of the BARRIER Clapper learns T. -/
def Dev.releaseTake (d : Dev) (c : Clap) (timeout : Bool) : Dev :=
  let d := match d.mesh.orig with
    | some o => if o.kind.toNat = clBARRIER ∧ o.argKind = c.argKind ∧ o.id = c.id then
        d.setMesh { d.mesh with orig := some { o with tick := c.tick } } else d
    | none => d
  if c.tick.toNat < d.slate then d.clapFail c stLEAD
  else if 16 ≤ d.mesh.pend.length then d.clapFail c stFULL
  else d.pendAdd { c := c, slot := none, timeout := timeout }

/-- A release as a Clapper of the root. -/
def releaseClap (root bar : BitVec 10) (id : BitVec 8) (tick : BitVec 64) : Clap :=
  { kind := BitVec.ofNat 3 clBARRIER, id := id, origin := root, tick := tick, argKind := bar.setWidth 4, target := 0, data := 0 }

/-- The root releases a barrier for T = r + D × H. The ID of a barrier that no BARRIER Clapper has named is free. -/
def Dev.barRelease (d : Dev) (b : Nat) (timeout : Bool) : Dev :=
  let x := d.barNow b
  let (id, d) := match x.id with
    | some n => (BitVec.ofNat 8 n, d)
    | none => let (w, d) := d.draw; (w.setWidth 8, d)
  let d := d.setBar b (some { x with passed := true })
  let t := BitVec.ofNat 64 (d.slate + d.depthTicks)
  let d := d.meshDown (.clapper (.release (BitVec.ofNat 4 b) id t timeout))
  d.releaseTake (releaseClap (BitVec.ofNat 10 (d.rf MSH_STAT_NUM)) (BitVec.ofNat 10 b) id t) timeout

/-- Once the device and every device below it have arrived, the arrival passes upward, or the root releases. -/
def Dev.barCheck (d : Dev) (b : Nat) : Dev :=
  let x := d.barNow b
  if x.passed || !x.self || !(d.mesh.kids.all x.kids.contains) then d
  else if d.mstate = mROOT then d.barRelease b false
  else
    let d := d.setBar b (some { x with passed := true })
    if d.bit MSH_TOPO_UP_VALID then d.meshNear (d.rf MSH_TOPO_UP) (.clapper (.arrive (BitVec.ofNat 4 b))) else d

/-- Is the device part of a system? -/
def Dev.inSystem (d : Dev) : Bool := d.meshLive && (d.mstate == mROOT || d.mstate == mMEMBER || d.mstate == mSTEPPING)

/-- The device itself arrives at a barrier. -/
def Dev.barArrive (d : Dev) (b : Nat) : Dev :=
  if !d.inSystem then d else
  let d := d.setBar b (some { d.barNow b with self := true })
  (d.on MSH_BAR_ARRIVED).barCheck b

/-- A write of MSH_BAR. -/
def Dev.mshBarWrite (d : Dev) (v : Word) : Dev :=
  let d := d.plainWrite MSH_BAR v
  if v.getLsbD 4 then d.barArrive (d.rf MSH_BAR_ID) else d

/-- A device arrives by software, or by user logic at a Clapper site whose region is live (R17, R235). -/
def execBarrierArrive (src : BarSource) (s : State) : Out :=
  match src with
  | .write _ v => s.timedWrite MSH_BAR (fun d => d.mshBarWrite (v ||| 16))
  | .site die b => s.timed (fun d =>
      if (d.tileDead die (Config.clapHost die).1 (Config.clapHost die).2).isSome then d else d.barArrive b.toNat)

/-- The root lacks arrivals MSH_CFG.BAR_TO ms after the first. -/
def execBarrierTimeout (bar : BitVec 4) (s : State) : Out :=
  s.timed (fun d =>
    match d.bar bar.toNat with
    | some x =>
      if d.inSystem && d.mstate == mROOT && !x.passed && (x.self || !x.kids.isEmpty) &&
          decide (x.firstAt + max 1 (d.rf MSH_CFG_BAR_TO) * ticksPerMs ≤ d.slate) then
        d.barRelease bar.toNat true
      else d
    | none => d)

/-! ## Origination and cancellation (R232, R233) -/

/-- The root sends a Clapper down the tree and takes it itself; a BARRIER Clapper names its barrier. -/
def Dev.clapRoot (d : Dev) (c : Clap) : Dev :=
  if c.kind.toNat = clBARRIER then d.setBar c.argKind.toNat (some { d.barNow c.argKind.toNat with id := some c.id.toNat })
  else (d.meshDown (.clapper (.clapper c))).clapTake c

/-- The least lead of Table MSH-3 from the origin's sampled tick. -/
def Dev.leastLead (d : Dev) (kind : Nat) : Nat :=
  let hops := if d.mstate = mROOT then 0 else d.mesh.dist
  let h := (hops + d.rf MSH_TOPO_DEPTH) * hopTicks
  if kind = clBARRIER then 0 else if kind = clCUT then h + 4096 else h

/-- The Clapper that the registers describe. -/
def Dev.clapAsked (d : Dev) : Clap :=
  let k := d.rf MSH_CLP_CTL_KIND
  { kind := BitVec.ofNat 3 k, id := BitVec.ofNat 8 (d.rf MSH_CLP_ARG_ID), origin := BitVec.ofNat 10 (d.rf MSH_STAT_NUM),
    tick := BitVec.ofNat 64 (if k = clBARRIER then 0 else d.rd64 MSH_CLP_TICK_LO MSH_CLP_TICK_HI),
    argKind := BitVec.ofNat 4 (d.rf MSH_CLP_ARG_KIND), target := BitVec.ofNat 16 (d.rf MSH_CLP_ARG_TARGET),
    data := BitVec.ofNat 256 ((List.range 8).foldl (fun x k => x + (d.rd (MSH_CLP_DATAk k)).toNat * 2 ^ (32 * k)) 0) }

/-- GO. -/
def Dev.clapGo (d : Dev) : Dev :=
  let c := d.clapAsked
  let k := c.kind.toNat
  if (d.mstate ≠ mROOT ∧ d.mstate ≠ mMEMBER) ∨ k < 1 ∨ 5 < k then d.wf MSH_CLP_CTL_STATUS stACCESS
  else if k ≠ clBARRIER ∧ c.tick.toNat < d.slate + d.leastLead k then d.wf MSH_CLP_CTL_STATUS stLEAD
  else
    let d := ((d.wf MSH_CLP_CTL_STATUS stDONE).wf MSH_CLP_CTL_STATE 1).off MSH_CLP_CTL_FAILS
    let d := d.setMesh { d.mesh with orig := some c }
    if d.mstate = mROOT then d.clapRoot c
    else d.meshRoute false (d.rf MSH_STAT_ROOT) (d.rf MSH_STAT_NUM) (.clapper (.clapper c))

/-- A cancellation at a device: it takes effect before T − 64. -/
def Dev.clapCancelled (d : Dev) (origin : BitVec 10) (id : BitVec 8) : Dev :=
  let hit := fun (p : PendClap) => p.c.origin == origin && p.c.id == id && p.c.kind.toNat != clBARRIER &&
    decide (d.slate + 64 < p.c.tick.toNat)
  let l := d.mesh.pend.filter hit
  let d := d.setMesh { d.mesh with pend := d.mesh.pend.filter (fun p => !hit p) }
  l.foldl (fun d p =>
    match p.slot with
    | some i => if d.cancellable i then let c := d.cut i; (d.failCut i stABORT false).cutGone i c stABORT else d
    | none => d) d

/-- The root sends a cancellation down the tree. -/
def Dev.cancelRoot (d : Dev) (origin : BitVec 10) (id : BitVec 8) : Dev :=
  (d.meshDown (.clapper (.cancel origin id))).clapCancelled origin id

/-- CANCEL. -/
def Dev.clapCancel (d : Dev) : Dev :=
  match d.mesh.orig with
  | some c =>
    if d.rf MSH_CLP_CTL_STATE ≠ 1 then d
    else if d.mstate = mROOT then d.cancelRoot c.origin c.id
    else d.meshRoute false (d.rf MSH_STAT_ROOT) (d.rf MSH_STAT_NUM) (.clapper (.cancel c.origin c.id))
  | none => d

/-- A write of MSH_CLP_CTL. -/
def Dev.clpCtlWrite (d : Dev) (v : Word) : Dev :=
  let d := d.plainWrite MSH_CLP_CTL v
  let d := if v.getLsbD 0 then d.clapGo else d
  if v.getLsbD 1 then d.clapCancel else d

/-- GO with a KIND. -/
def goWord (k : Nat) (v : Word) : Word := fieldSet 4 3 k (v ||| 1)

def execBroadcastClapper (_rq : Requester) (v : Word) (s : State) : Out :=
  s.timedWrite MSH_CLP_CTL (fun d => d.clpCtlWrite (goWord clBROADCAST v))
def execBarrierClapper (_rq : Requester) (v : Word) (s : State) : Out :=
  s.timedWrite MSH_CLP_CTL (fun d => d.clpCtlWrite (goWord clBARRIER v))
def execSnapshotClapper (_rq : Requester) (v : Word) (s : State) : Out :=
  s.timedWrite MSH_CLP_CTL (fun d => d.clpCtlWrite (goWord clSNAPSHOT v))
def execResetClapper (_rq : Requester) (v : Word) (s : State) : Out :=
  s.timedWrite MSH_CLP_CTL (fun d => d.clpCtlWrite (goWord clRESET v))
def execCutClapper (_rq : Requester) (v : Word) (s : State) : Out :=
  s.timedWrite MSH_CLP_CTL (fun d => d.clpCtlWrite (goWord clCUT v))
def execClapperCancel (_rq : Requester) (v : Word) (s : State) : Out :=
  s.timedWrite MSH_CLP_CTL (fun d => d.clpCtlWrite (v ||| 2))

/-! ## Packets -/

/-- What a CLAPPER packet for this device does: from below towards the root, or from the root down. -/
def Dev.clapBody (d : Dev) (p : Nat) (b : ClapBody) : Dev :=
  let root := d.mstate == mROOT
  match b with
  | .clapper c => if root then d.clapRoot c else (d.meshDown (.clapper b)).clapTake c
  | .cancel o id => if root then d.cancelRoot o id else (d.meshDown (.clapper b)).clapCancelled o id
  | .stepAsk t dist delta => if root then d.meshStepStart t.toNat dist.toNat delta else d
  | .step t delta => if root then d else d.meshStepping t.toNat delta
  | .arrive bar =>
    let x := d.barNow bar.toNat
    if d.mesh.kids.contains p then
      (d.setBar bar.toNat (some { x with kids := if x.kids.contains p then x.kids else x.kids ++ [p] })).barCheck bar.toNat
    else d
  | .release bar id t timeout =>
    if root then d
    else (d.meshDown (.clapper b)).releaseTake (releaseClap (BitVec.ofNat 10 (d.rf MSH_STAT_ROOT)) (bar.setWidth 10) id t) timeout

/-- Is a packet for this device: sent to its neighbour, or to its number? -/
def Dev.meshMine (d : Dev) (h : MeshHdr) : Bool := h.dst == 0x3FF || h.dst.toNat == d.rf MSH_STAT_NUM

def execClapper (p : Fin 16) (h : MeshHdr) (b : ClapBody) (s : State) : Out :=
  s.timed (fun d => d.meshRx p h 8 (fun d =>
    if !d.inSystem then d
    else if d.meshMine h then d.clapBody p b
    else d.meshRoute h.vc h.dst.toNat h.src.toNat (.clapper b)))

def execReport (p : Fin 16) (h : MeshHdr) (r : ClapReport) (s : State) : Out :=
  s.timed (fun d => d.meshRx p h 9 (fun d =>
    if !d.inSystem then d
    else if d.meshMine h then d.reportTaken r
    else d.meshRoute h.vc h.dst.toNat h.src.toNat (.report r)))

/-! ## Execution (R233, R234) -/

/-- The Clapper site of each die pulses. -/
def Dev.clapPulse (d : Dev) (c : Clap) : Dev :=
  [0, 1].foldl (fun d die => d.out (.clpExec die c.kind.toNat c.id.toNat)) d

def Dev.clapBroadcast (d : Dev) (c : Clap) : Dev :=
  let d := (List.range 8).foldl (fun d k => d.wr (MSH_RXB_DATAk k) (c.data.extractLsb' (32 * k) 32)) d
  let d := if d.bit MSH_EVT_RXB then d.on MSH_RXB_STAT_OVR else d
  ((d.wf MSH_RXB_STAT_SRC c.origin.toNat).on MSH_EVT_RXB).clapPulse c

def Dev.clapSnapshot (d : Dev) (c : Clap) : Dev :=
  let d := (d.wr MSH_SNAP_TE (d.rd CTY_TE_EST)).wr MSH_SNAP_BOUND (d.rd CTY_TE_BOUND)
  let d := (d.wr MSH_SNAP_PCOUNT (d.rd CSH_PCOUNT)).wf MSH_SNAP_MISC_CTY_STATE (d.rf CTY_STAT_STATE)
  let d := (d.wf MSH_SNAP_MISC_DLY_HEAD (d.rf DLY_STAT_HEAD)).wf MSH_SNAP_MISC_ID c.id.toNat
  (d.on MSH_EVT_SNAP).clapPulse c

/-- A barrier releases: with DONE, or with TIMEOUT. -/
def Dev.clapRelease (d : Dev) (c : Clap) (timeout : Bool) : Dev :=
  let st := if timeout then stTIMEOUT else stDONE
  let b := c.argKind.toNat
  let d := (d.setBar b none).wf MSH_BAR_STATUS st
  let d := if (List.range 16).any (fun k => match d.bar k with | some x => x.self | none => false) then d else d.off MSH_BAR_ARRIVED
  ((d.on MSH_EVT_BAR_REL).meshLog 0x0C .info [b, st, 0, 0, 0]).clapPulse c

/-- One Clapper executes. What a CUT Clapper armed is executed with the Cuts of the tick (R44). -/
def Dev.clapRun (d : Dev) (p : PendClap) : Dev :=
  let c := p.c
  let k := c.kind.toNat
  let d := d.meshLog 0x0A .info [k, c.id.toNat, c.origin.toNat, c.origin.toNat / 256, 0]
  if k = clBROADCAST then d.clapBroadcast c
  else if k = clBARRIER then d.clapRelease c p.timeout
  else if k = clSNAPSHOT then d.clapSnapshot c
  else if k = clRESET then d.reset_ 6 0
  else d

/-- The Clappers of this tick execute, RESET first (Table MSH-6). -/
def Dev.clapExecute (d : Dev) : Dev :=
  let due := fun (p : PendClap) => p.c.tick.toNat == d.slate
  let l := d.mesh.pend.filter due
  let d := d.setMesh { d.mesh with pend := d.mesh.pend.filter (fun p => !due p) }
  let isReset := fun (p : PendClap) => p.c.kind.toNat == clRESET
  (l.filter isReset ++ l.filter (fun p => !isReset p)).foldl Dev.clapRun d

def execClapperExecute (s : State) : Out := s.timed Dev.clapExecute

/-- At T + D × H + 64 the origin's Clapper is DONE, or FAILED. -/
def execClapperOriginEnd (s : State) : Out :=
  s.timed (fun d =>
    match d.mesh.orig with
    | some c =>
      if d.rf MSH_CLP_CTL_STATE = 1 ∧ ¬(c.kind.toNat = clBARRIER ∧ c.tick = 0) ∧ c.tick.toNat + d.depthTicks + 64 ≤ d.slate then
        let d := d.setMesh { d.mesh with orig := none }
        if d.rf MSH_CLP_CTL_FAILS = 0 then (d.wf MSH_CLP_CTL_STATE 2).on MSH_EVT_CLP_DONE
        else (d.wf MSH_CLP_CTL_STATE 3).on MSH_EVT_CLP_FAIL
      else d
    | none => d)

/-! ## Data (R236) -/

/-- A DATA packet for this device: delivered on its tick, or late on arrival. -/
def Dev.dataTake (d : Dev) (p src sent : Nat) (b : List Byte) : Dev :=
  let due := sent + d.rf (MSH_RTd_HOPS src) * hopTicks + 16
  if d.slate ≤ due then d.setMesh { d.mesh with dataIn := d.mesh.dataIn ++ [{ due := due, src := src, bytes := b }] }
  else
    let d := (d.out (.meshData src b true)).inc MSH_CNT_LATE
    let quiet := match SMap.at none d.mesh.logAt 16 with | some t => decide (d.slate < t + ticksPerSec) | none => false
    if quiet then d
    else (d.setMesh { d.mesh with logAt := SMap.set none d.mesh.logAt 16 (some d.slate) }).meshLog 0x0E .warn [src, src / 256, p, 0, 0]

/-- A DATA packet: an image's bytes from the neighbour that a load has asked, data for this device, or data on its way. -/
def execData (p : Fin 16) (h : MeshHdr) (sent : BitVec 64) (bytes : List Byte) (s : State) : Out :=
  s.act (fun d => d.meshRx p h 10 (fun d =>
    if h.dst = 0x3FF then d.loadMeshData p bytes
    else if h.dst.toNat = d.rf MSH_STAT_NUM then d.dataTake p h.src.toNat sent.toNat bytes
    else d.meshRoute h.vc h.dst.toNat h.src.toNat (.data sent.toNat bytes)))

def execDataDelivery (s : State) : Out :=
  s.act (fun d =>
    let l := d.mesh.dataIn.filter (fun x => decide (x.due ≤ d.slate))
    let d := d.setMesh { d.mesh with dataIn := d.mesh.dataIn.filter (fun x => !decide (x.due ≤ d.slate)) }
    l.foldl (fun d x => d.out (.meshData x.src x.bytes false)) d)

end Sys2Proof.Machine
end

