-- ==== Sys2Proof/Machine/SlateStep.lean ====
section
/-! DEFINITION. The Slate step (10_mesh_multidevice, R230; R30, R415, Table SLT-9). A step changes the count, not the time
that has gone by: the ticks at which something under way began move with the count, so its age stays what it was.
Ticks that a request names (a Cut's T, a Clapper's T, a lane's AT, an entry's earliest tick) stay as they were named. -/
namespace Sys2Proof.Machine
open Reg

/-! ## Ticks that move with the count -/

/-- A past or coming tick, as counted after a step of `k`. -/
def shiftTick (k : Int) (t : Nat) : Nat := ((t : Int) + k).toNat

def shiftOpt (k : Int) (t : Option Nat) : Option Nat := t.map (shiftTick k)

/-- Every listed value changed by `f`, in canonical form over `z`. -/
def SMap.mapAt {α : Type} [DecidableEq α] (z : α) (f : α → α) (m : SMap α) : SMap α :=
  (m.map (fun p => (p.1, f p.2))).filter (fun p => p.2 != z)

def shiftLog (k : Int) (m : SMap (Option Nat)) : SMap (Option Nat) := SMap.mapAt none (shiftOpt k) m

def Cty.shift (k : Int) (c : Cty) : Cty :=
  { c with
    slots := SMap.mapAt RefSlot.idle (fun (x : RefSlot) => 
      { x with qualSince := shiftTick k x.qualSince, waitSince := shiftTick k x.waitSince, sampleAt := shiftTick k x.sampleAt,
               heardAt := shiftOpt k x.heardAt, offSince := shiftOpt k x.offSince }) c.slots,
    phases := c.phases.map (fun p => (shiftTick k p.1, p.2)), loGood := shiftOpt k c.loGood, lastRun := shiftOpt k c.lastRun,
    tem := c.tem.map (fun (r : TemRun) => { r with next := shiftTick k r.next }),
    belowSince := shiftOpt k c.belowSince, lockedSince := shiftOpt k c.lockedSince, hoStart := shiftTick k c.hoStart,
    lastRefit := shiftTick k c.lastRefit,
    pendSamples := c.pendSamples.map (fun (m : ModelSample) => { m with tick := shiftTick k m.tick }),
    samples := c.samples.map (fun (m : ModelSample) => { m with tick := shiftTick k m.tick }) }

def Csh.shift (k : Int) (c : Csh) : Csh :=
  { c with
    checkAt := shiftOpt k c.checkAt, fetchAt := shiftTick k c.fetchAt,
    ops := SMap.mapAt none (fun o => o.map (fun (o : CshOp) =>
      { o with issue := shiftTick k o.issue, since := shiftTick k o.since,
               rep := o.rep.map (fun r => (shiftTick k r.1, r.2)) })) c.ops,
    rels := c.rels.map (fun (r : CshRelease) => { r with due := shiftTick k r.due }) }

def Mesh.shift (k : Int) (m : Mesh) : Mesh :=
  { m with
    ports := SMap.mapAt MeshPort.idle (fun (x : MeshPort) =>
      { x with helloAt := shiftOpt k x.helloAt, upAt := shiftTick k x.upAt,
               kept := x.kept.map (fun (y : Kept) => { y with sent := shiftTick k y.sent }) }) m.ports,
    downs := SMap.mapAt [] (fun l => l.map (shiftTick k)) m.downs,
    heldAt := SMap.mapAt 0 (shiftTick k) m.heldAt,
    logAt := shiftLog k m.logAt,
    settle := shiftTick k m.settle }

def Dmc.shift (k : Int) (x : Dmc) : Dmc :=
  { x with queue := x.queue.map (fun (b : DramBurst) => { b with at_ := shiftTick k b.at_ }),
           refAt := SMap.mapAt 0 (shiftTick (1000 * k)) x.refAt, rateAt := shiftTick k x.rateAt,
           nbrLog := shiftOpt k x.nbrLog, missLog := shiftLog k x.missLog }

def Mem.shift (k : Int) (m : Mem) : Mem :=
  { m with dmc := SMap.mapAt Dmc.idle (Dmc.shift k) m.dmc,
           chan := SMap.mapAt MpeChan.off (fun (c : MpeChan) => { c with lastRot := shiftOpt k c.lastRot }) m.chan }

def Nvs.shift (k : Int) (n : Nvs) : Nvs :=
  { n with op := n.op.map (fun (o : StoreOp) => { o with since := shiftTick k o.since }), lastCe := shiftOpt k n.lastCe }

def Cfg.shift (k : Int) (c : Cfg) : Cfg :=
  { c with blowing := c.blowing.map (fun b => (shiftTick k b.1, b.2)),
           load := c.load.map (fun (i : Image) => { i with idle := shiftTick k i.idle }),
           splice := c.splice.map (fun (i : Image) => { i with idle := shiftTick k i.idle }),
           strayAt := shiftOpt k c.strayAt }

def Sup.shift (k : Int) (u : Sup) : Sup :=
  { u with core := { u.core with haltAt := shiftTick k u.core.haltAt },
           twi := { u.twi with stretch := shiftOpt k u.twi.stretch },
           boot := { u.boot with scanAt := shiftTick k u.boot.scanAt },
           uart := { u.uart with lineAt := shiftTick k u.uart.lineAt },
           compete := SMap.mapAt 0 (shiftTick k) u.compete }

def Gaf.shift (k : Int) (g : Gaf) : Gaf :=
  { g with gatedLog := shiftLog k g.gatedLog, rampStart := shiftLog k g.rampStart, fcnt := shiftOpt k g.fcnt,
           rampEnter := (List.range 30).foldl (fun m p => SMap.set 0 m p (shiftTick k (SMap.at 0 m p))) g.rampEnter,
           downAt := SMap.mapAt 0 (shiftTick k) g.downAt }

def Hub.shift (k : Int) (h : Hub) : Hub :=
  { h with siteAck := SMap.mapAt none (fun a => a.map (fun a => (shiftTick k a.1, a.2))) h.siteAck,
           outstanding := SMap.mapAt none (fun a => a.map (fun (o : Outstanding) => { o with sent := shiftTick k o.sent }))
             h.outstanding,
           lost := h.lost.map (fun (u : LostUnit) => { u with since := shiftTick k u.since }),
           busWaits := h.busWaits.map (fun (w : BusWait) => { w with since := shiftTick k w.since }),
           timeWire := SMap.mapAt none (fun a => a.map (fun (w : TimeWire) => { w with at_ := shiftTick k w.at_ })) h.timeWire,
           userWin := SMap.mapAt none (fun a => a.map (fun (o : WinAccess) => { o with since := shiftTick k o.since })) h.userWin }

def Fab.shift (k : Int) (f : Fab) : Fab :=
  { f with march := SMap.mapAt none (fun o => o.map (fun (m : March) => { m with since := shiftTick k m.since })) f.march }

/-- Every tick of a thing under way moves with the count. -/
def Dev.shiftTicks (d : Dev) (k : Int) : Dev :=
  { d with hub := d.hub.shift k, cty := d.cty.shift k, csh := d.csh.shift k, fab := d.fab.shift k,
           se := { d.se with eng := SMap.mapAt Engine.idle (fun (e : Engine) => { e with rest := shiftTick k e.rest, start := shiftTick k e.start }) d.se.eng },
           lanes := SMap.mapAt Lane.idle (fun (x : Lane) => { x with txDue := shiftOpt k x.txDue, hberAt := shiftTick k x.hberAt }) d.lanes,
           eth := { d.eth with
             logAt := shiftLog k d.eth.logAt,
             links := SMap.mapAt Jlk.idle (fun (x : Jlk) => { x with runFrom := shiftTick k x.runFrom }) d.eth.links },
           mesh := d.mesh.shift k, mem := d.mem.shift k, nvs := d.nvs.shift k, cfg := d.cfg.shift k, sup := d.sup.shift k,
           gaf := d.gaf.shift k }

/-! ## The step -/

/-- The count after a step: never past 2^64 − 1 (R415). -/
def steppedCount (t : Nat) (k : Int) : Nat := min (shiftTick k t) slateMax

/-- The slots that pending Clappers armed. -/
def Mesh.clapSlots (m : Mesh) : List Nat := m.pend.filterMap (fun p => p.slot)

/-- A Cut that a Clapper armed is cancelled with ABORT (R230). -/
def Dev.cancelClapCut (d : Dev) (i : Nat) : Dev :=
  let c := d.cut i
  if c.live then (d.failCut i stABORT false).cutGone i c stABORT else d

/-- Every pending Clapper of the losing part is cancelled with ABORT, logged and reported to its origin; what collects at
barriers goes with them (R230, Table MSH-6). -/
def Dev.clapsLost (d : Dev) : Dev :=
  let l := d.mesh.pend
  let slots := d.mesh.clapSlots
  let d := (d.setMesh { d.mesh with pend := [], bars := [] }).off MSH_BAR_ARRIVED
  let d := l.foldl (fun d p =>
    (d.meshLog 0x0B .warn [p.c.kind.toNat, p.c.id.toNat, p.c.origin.toNat, p.c.origin.toNat / 256, 0]).reportSend p.c stABORT) d
  slots.foldl Dev.cancelClapCut d

/-- What the step does beside the count: SLT 0x04, the time of day, and what Table SLT-9 and the tables of the blocks
give each thing under way. -/
def Dev.stepEffects (d : Dev) (k : Int) : Dev :=
  let v := lowBits 40 k
  let d := ((d.on SLT_STAT_STEPPED).on MSH_EVT_STEP).log 0x01 0x04 .warn [v, v / 2 ^ 8, v / 2 ^ 16, v / 2 ^ 24, v / 2 ^ 32]
  let d := (d.wr64 CTY_MAP_TICK_LO CTY_MAP_TICK_HI (lowBits 64 ((d.mapTick : Int) + k))).todStepped k
  let d := d.jlkStepped.capStepped
  let d := if d.cfg.passAt.isSome then d.passEnd else d
  d.failCuts (fun c => decide (c.tick < d.slate)) stABORT true

/-- The step executes: of a losing part (R230) or of a device that joins (R227). Its SLT 0x04 carries the count after the
step, the MSH 0x0B of a cancelled Clapper the count before it (log entry 157). -/
def Dev.slateStep (d : Dev) (k : Int) : Dev :=
  let losing := d.mstate == mSTEPPING
  let d := if losing then d.clapsLost else d
  let d := (List.range 64).foldl Dev.seSettle d
  let d := { d.shiftTicks k with slate := steppedCount d.slate k }
  let d := d.stepEffects k
  let d := d.setMesh { d.mesh with step := none, beat := d.slate / ticksPerMs * ticksPerMs, joined := losing || d.mesh.joined }
  if losing then d.wf MSH_STAT_STATE mMEMBER else d

/-- A pending Slate step executes on its tick. -/
def execSlateStep (s : State) : Out :=
  s.act (fun d =>
    match d.mesh.step with
    | some (t, k) => if t ≤ d.slate then d.slateStep k else d
    | none => d)

end Sys2Proof.Machine
end

