-- ==== Sys2Proof/Machine/Arch.lean ====
section
/-! DEFINITION. The hub and the fabric die agents (01_architecture: items, bridges, time wires, the user window), the
Slate tick, and the Dailies ring (02_slate_and_device_rules). -/
namespace Sys2Proof.Machine
open Reg

/-! ## Items (R14 to R17) -/

/-- Item kind codes (Table ARCH-11). -/
def itemCode : ItemKind → Nat
  | .config => 1 | .power => 2 | .lane => 3 | .halt => 4 | .clock => 5

/-- The die's clock-enable register of a clock item, and its bit (Table CKC-2). -/
def clockItem (n : Nat) : Nat × Nat :=
  let die := n / 128
  (match n % 128 / 32 with
    | 0 => CKC_EN_IFd die | 1 => CKC_EN_SEd die | 2 => CKC_EN_LNQd_k die 0 | _ => CKC_EN_LNQd_k die 1, n % 32)

/-- The key of an item in the hub's tables. -/
def itemKey (i : Item) : Nat := itemCode i.kind * 512 + i.num.toNat

/-- Is the item one that the agents hold: a Splice region, a fabric region or engine group, a lane, an engine, a clock enable
of a die? -/
def itemValid (i : Item) : Bool :=
  let n := i.num.toNat
  match i.kind with
  | .config => n < 64
  | .power => 3 ≤ n && n ≤ 22
  | .lane => true
  | .halt => n < 64
  | .clock => n < 256

/-- The state a lane direction is in or goes to, coded as TX_REQ. -/
def laneCode (st goal : Nat) : Nat :=
  let s := if st = lWAKING ∨ st = lENTERING then goal else st
  if s = lON then 1 else if s = lLIGHT then 2 else if s = lDEEP then 3 else 0

/-- The hub's record of an item, as byte 4 of FAB 0x04 shows it (Table ARCH-12). -/
def Dev.hubRecord (d : Dev) (i : Item) : Nat :=
  let n := i.num.toNat
  match i.kind with
  | .config => d.rstate n + 4 * d.rf (SPL_REGr_STAT_ISOLATED n)
  | .power => d.domState n
  | .lane => laneCode (d.txState n) (d.lane n).txTo + 4 * laneCode (d.rxState n) (d.lane n).rxTo + 16 * (n % 4)
  | .halt => d.rf (SE_CTL_HALT n)
  | .clock => ((d.rd (clockItem n).1).getLsbD (clockItem n).2).toNat

/-- The die an item lies on. -/
def Dev.itemDie (d : Dev) (i : Item) : Nat :=
  let n := i.num.toNat
  match i.kind with
  | .config => d.rf (SPL_REGr_DEF_DIE n)
  | .power => if n ≤ 10 ∨ n = 19 ∨ n = 20 then 0 else 1
  | .lane => n / 256
  | .halt => n / 32
  | .clock => n / 128

/-- The unit that a mismatch of an item isolates: a lane item's is its quad. -/
def itemUnit (i : Item) : Nat := match i.kind with | .lane => i.num.toNat / 4 | _ => i.num.toNat

/-- The item whose unit a mismatch isolates: for a clock enable of an engine or of a quad, that engine or quad; none for a
clock enable of an interface (log entry 155). -/
def isolatedItem (i : Item) : Option Item :=
  let n := i.num.toNat
  match i.kind with
  | .clock =>
    if n % 128 / 32 = 0 then none
    else if n % 128 / 32 = 1 then some { kind := .halt, num := BitVec.ofNat 9 (n / 128 * 32 + n % 32) }
    else some { kind := .lane, num := BitVec.ofNat 9 (4 * (n / 128 * 64 + n % 128 - 64)) }
  | _ => some i

/-- The unit goes into isolation, by an event of class 3. -/
def Dev.isolateUnit (d : Dev) (i : Item) : Dev :=
  let u := itemUnit i
  match i.kind with
  | .config => d.isolateRegion u
  | .power =>
    ({ d with gaf := { d.gaf with isoDomain := SMap.set false d.gaf.isoDomain u true },
              marks := d.marks ++ [(domainMark u, 3)] }).capWatches
  | .lane =>
    let d := { d with gaf := { d.gaf with isoQuad := SMap.set false d.gaf.isoQuad u true }, marks := d.marks ++ [(quadMark u, 3)] }
    (quadLanes u).foldl (fun d l => if d.txState l == lON then d.out (.laneIdle l) else d) d
  | .halt =>
    { d with gaf := { d.gaf with isoEngine := SMap.set false d.gaf.isoEngine u true }, marks := d.marks ++ [(engineMark u, 3)] }
  | .clock => d

def Dev.setHub (d : Dev) (h : Hub) : Dev := { d with hub := h }

/-- What an agent holds of an item at its power-up: the record as reset leaves it. -/
def powerUpCopy (i : Item) : Nat := Dev.reset.hubRecord i

/-- What the agent holds of an item (R14). -/
def Dev.agentCopy (d : Dev) (i : Item) : Nat := (SMap.at none d.hub.agentCopy (itemKey i)).getD (powerUpCopy i)

/-- The record of an item as the hub last commanded it. -/
def Dev.told (d : Dev) (i : Item) : Nat := (SMap.at none d.hub.told (itemKey i)).getD (powerUpCopy i)

/-- The agent's copy of an item holds `v`. -/
def Dev.setCopy (d : Dev) (i : Item) (v : Nat) : Dev :=
  d.setHub { d.hub with agentCopy := SMap.set none d.hub.agentCopy (itemKey i) (if v = powerUpCopy i then none else some v) }

/-- The hub has commanded the value `v`. -/
def Dev.setTold (d : Dev) (i : Item) (v : Nat) : Dev :=
  d.setHub { d.hub with told := SMap.set none d.hub.told (itemKey i) (if v = powerUpCopy i then none else some v) }

/-- The isolation that a mismatch brings. -/
def Dev.isolateFor (d : Dev) (i : Item) : Dev :=
  match isolatedItem i with
  | some u => d.isolateUnit u
  | none => d

/-- The agent's copy is rewritten from the record. -/
def Dev.rewriteCopy (d : Dev) (i : Item) : Dev := (d.setCopy i (d.hubRecord i)).setTold i (d.hubRecord i)

/-- FAB 0x04. For a clock enable the spec gives neither an item kind code nor a record value: those bytes are free. -/
def Dev.mismatchLog (d : Dev) (i : Item) : Dev :=
  let die := d.itemDie i
  let u := itemUnit i
  if i.kind = .clock then
    let (w, d) := d.draw
    d.log 0x1A 0x04 .error [die, w.toNat, u, u / 256, w.toNat / 256]
  else d.log 0x1A 0x04 .error [die, itemCode i.kind, u, u / 256, d.hubRecord i]

/-- A mismatch (R15): FAB 0x04 with the record as it was, isolation of the unit, and the agent's copy rewritten. -/
def Dev.mismatch (d : Dev) (i : Item) : Dev :=
  (((d.on (FAB_BRG_STAT_MISMATCH (d.itemDie i))).mismatchLog i).isolateFor i).rewriteCopy i

def Dev.outstandingOf (d : Dev) (i : Item) : Option Outstanding := SMap.at none d.hub.outstanding (itemKey i)

def Dev.setOutstanding (d : Dev) (i : Item) (o : Option Outstanding) : Dev :=
  d.setHub { d.hub with outstanding := SMap.set none d.hub.outstanding (itemKey i) o }

/-- The hub sends a command: the item's record is on its way to the agent (R14, R16). -/
def Dev.hubCommand (d : Dev) (i : Item) : Dev :=
  (d.setOutstanding i (some { sent := d.slate, value := d.hubRecord i })).setTold i (d.hubRecord i)

def execHubCommand (item : Item) (s : State) : Out :=
  s.act (fun d => if itemValid item then d.hubCommand item else d)

/-- A report that an agent makes of its copy (R15): compared with the record while no command for the item is outstanding.
A record that has moved on since its last command has a command on its way, so it is not compared either (R16, log entry
155). -/
def Dev.agentReport (d : Dev) (i : Item) : Dev :=
  if (d.outstandingOf i).isSome || d.told i != d.hubRecord i || d.agentCopy i == d.hubRecord i then d else d.mismatch i

/-- The acknowledgement: the agent has applied the command, and reports the item. -/
def execCommandAck (item : Item) (s : State) : Out :=
  s.act (fun d =>
    match d.outstandingOf item with
    | some o => ((d.setOutstanding item none).setCopy item o.value).agentReport item
    | none => d)

/-- The agent reports an item; `value`: what its copy has come to hold, where that has changed without a command. -/
def execAgentReport (item : Item) (value : Option Byte) (s : State) : Out :=
  s.act (fun d =>
    if !itemValid item then d
    else match value with
      | some v => (d.setCopy item v.toNat).agentReport item
      | none => d.agentReport item)

/-! ## Bridges (R16, R18, R20) -/

def channelCode : Channel → Nat
  | .data => 0 | .config => 1 | .control => 2

/-- FAB 0x03 with its flag. -/
def Dev.bridgeTimeout (d : Dev) (die : Nat) (chan : Channel) (kind num : Nat) : Dev :=
  (d.on (FAB_BRG_STAT_TIMEOUT die)).log 0x1A 0x03 .error [die, channelCode chan, kind, num, num / 256]

/-- The tick at which the discarded request of a channel was sent, if one is. -/
def Dev.lostAt (d : Dev) (die : Nat) (load : BridgeLoad) : Option Nat :=
  (d.hub.lost.find? (fun u => u.die == die && u.load == load)).map (·.since)

/-- No request of that load is outstanding. -/
def Dev.lostGone (d : Dev) (die : Nat) (load : BridgeLoad) : Dev :=
  d.setHub { d.hub with lost := d.hub.lost.filter (fun u => !(u.die == die && u.load == load)) }

/-- The route of a data channel while it is powered: assigned by the loaded design (R18), with the region or engine group at
its fabric-die end on (R27). -/
def Dev.channelEnd (d : Dev) (die num : Nat) : Option Config.ChanEnd :=
  if d.cfg.routing.isEmpty then none
  else match Config.channelRoute d.cfg.routing die num with
    | some r => if d.domainUp r.dom then some r.stop else none
    | none => none

/-- A unit that a data channel delivers, at the hub with the end it goes on to, or at the fabric die. At a mesh stream
endpoint it goes on in a DATA packet with its send tick (R236), to a device that the spec does not name (log entry 191). -/
def Dev.bridgeDeliver (d : Dev) (die num : Nat) (toHub poison : Bool) (data : List Byte) (stop : Config.ChanEnd) : Dev :=
  let d := d.out (.bridge die num toHub poison data stop)
  if toHub && stop == .mesh && d.inSystem then
    let (w, d) := d.draw
    d.meshRoute true (w.toNat % 1024) (d.rf MSH_STAT_NUM) (.data d.slate data)
  else d

/-- A transfer unit of a data channel (R20): a channel without power carries none. -/
def Dev.dataUnit (d : Dev) (die num : Nat) (toHub : Bool) (ecc : Ecc) (data : List Byte) : Dev :=
  let dir := (!toHub).toNat
  match d.channelEnd die num with
  | none => d
  | some e =>
    match ecc with
    | .clean => d.bridgeDeliver die num toHub false data e
    | .corrected =>
      (((d.on (FAB_BRG_STAT_CE die)).inc (FAB_BRG_STAT_CE_COUNT die)).log 0x1A 0x01 .info [die, 0, num, dir, 0]).bridgeDeliver
        die num toHub false data e
    | .uncorrectable =>
      ((d.on (FAB_BRG_STAT_UE die)).log 0x1A 0x02 .error [die, num, dir, 0, 0]).bridgeDeliver die num toHub true data e

/-- A transfer unit of the configuration or control channel: what it carries acts by its own command; a discarded one leaves
its request without an answer. -/
def Dev.controlUnit (d : Dev) (die : Nat) (chan : Channel) (toHub : Bool) (ecc : Ecc) (load : BridgeLoad) : Dev :=
  match ecc with
  | .clean => d
  | .corrected =>
    ((d.on (FAB_BRG_STAT_CE die)).inc (FAB_BRG_STAT_CE_COUNT die)).log 0x1A 0x01 .info [die, channelCode chan, 0, (!toHub).toNat, 0]
  | .uncorrectable =>
    let d := d.on (FAB_BRG_STAT_UE die)
    if (d.lostAt die load).isSome then d
    else d.setHub { d.hub with lost := d.hub.lost ++ [{ die := die, chan := chan, load := load, since := d.slate }] }

/-- A transfer unit crosses a bridge. -/
def execBridgeTransfer (die : Fin 2) (chan : Channel) (num : Fin 15) (toHub : Bool) (ecc : Ecc) (load : BridgeLoad)
    (data : List Byte) (s : State) : Out :=
  s.act (fun d => if chan = .data then d.dataUnit die num toHub ecc data else d.controlUnit die chan toHub ecc load)

/-! ## Time wires (R21) -/

/-- The compensation after a measurement of `ps`: a change of more than 20 ps is corrected in steps of 5 ps. -/
def TimeWire.after (w : TimeWire) (ps : Int) : TimeWire :=
  let change := ps - w.last
  let slewing := w.inUse != w.last || decide (20 < change) || decide (change < -20)
  let gap := ps - w.inUse
  let inUse := if !slewing then ps else if 5 < gap then w.inUse + 5 else if gap < -5 then w.inUse - 5 else ps
  { w with inUse := inUse, last := ps }

/-- A measurement: at start-up, and once per second. -/
def execTimeWireMeasurement (die : Fin 2) (ps : Int) (s : State) : Out :=
  s.act (fun d =>
    let put := fun (w : TimeWire) =>
      d.setHub { d.hub with timeWire := SMap.set none d.hub.timeWire die (some { w with at_ := d.slate }) }
    match SMap.at none d.hub.timeWire die with
    | some w => if w.at_ + ticksPerSec ≤ d.slate then put (w.after ps) else d
    | none => put { inUse := ps, last := ps, at_ := d.slate })

/-! ## The requesters of the control bus: what an answer leaves with them -/

/-- The completion status of an answer (Table SLT-2): ACCESS for an error response. -/
def respStatus : Resp → Nat
  | .error | .dataError _ => stACCESS
  | .poisoned _ => stPOISON
  | .none | .done | .data _ => stDONE

/-- The data of an answer; an error response carries none, and what stands in its place is free. -/
def Dev.respData (d : Dev) : Word × Dev :=
  match d.resp with
  | .data w | .dataError w | .poisoned w => (w, d)
  | .error => d.draw
  | .none | .done => (0, d)

def Dev.setDbg (d : Dev) (b : Dbg) : Dev := d.setSup { d.sup with dbg := b }

/-- An operation of the debug master ends (R358): READ, PEEK and CORE_RD leave data. -/
def Dev.dbgEnd (d : Dev) (op st : Nat) (w : Word) : Dev :=
  let reads : Bool := op == 1 || op == 3 || op == 4
  d.setDbg { d.sup.dbg with busy := none, status := st, data := if reads then w else d.sup.dbg.data }

/-- The debug master takes the answer of its access; without one yet, it is BUSY. -/
def Dev.dbgTake (d : Dev) (op : Nat) : Dev :=
  if d.resp = .none then d.setDbg { d.sup.dbg with busy := some op }
  else
    let st := respStatus d.resp
    let (w, d) := if op = 1 ∨ op = 3 then d.respData else (0, d)
    d.dbgEnd op st w

/-- A fed instruction would have trapped (R363). -/
def Dev.feedTrap (d : Dev) (cause : Nat) : Dev := d.setCore { d.sup.core with feedErr := true, feedCause := cause }

/-- The status byte of a host's write; a status other than zero is logged (R350). -/
def Dev.twiStatus (d : Dev) (a : Nat) : Dev :=
  let st := respStatus d.resp
  if st = stDONE then d else d.twiLog 0x01 .warn [st, a, a / 2 ^ 8, a / 2 ^ 16, a / 2 ^ 24]

/-- The target port takes the answer to the host's write, or returns data and status of its read. -/
def Dev.twiTake (d : Dev) (write : Bool) (a : Nat) : Dev :=
  if d.resp = .none then d
  else if write then
    (d.setSup { d.sup with twi := { d.sup.twi with last := respStatus d.resp } }).twiStatus a
  else
    let st := respStatus d.resp
    let d := d.twiStatus a
    let (w, d) := d.respData
    d.out (.twiBytes (leBytes 4 w.toNat ++ [BitVec.ofNat 8 st]))

/-- Tamop ends a command: "ok", or "er 05" with the status of the block that refused or ended it (R367). -/
def Dev.tamopReply (d : Dev) (values : List Nat) (st : Nat) : Dev :=
  (d.setUart { d.sup.uart with wait := .none }).out (.tamop values (if st = 0 then 0 else 5) st)

/-- Tamop ends a command whose access met an error response. -/
def Dev.tamopError (d : Dev) : Dev := (d.setUart { d.sup.uart with wait := .none }).out (.tamop [] 4 0)

/-- Tamop takes the answer of its access. -/
def Dev.tamopTake (d : Dev) (write : Bool) : Dev :=
  match d.resp with
  | .none => d.setUart { d.sup.uart with wait := if write then .write else .read }
  | .error | .dataError _ => d.tamopError
  | .done => d.tamopReply [] 0
  | .data w | .poisoned w => d.tamopReply (if write then [] else [w.toNat]) 0

/-- An access that had no answer when it was made has one now. -/
def Dev.lateAnswer (d : Dev) (rq : Requester) (write : Bool) (a : Nat) : Dev :=
  match rq with
  | .debug => (match d.sup.dbg.busy with | some op => if op = 6 then d else d.dbgTake op | none => d)
  | .host => d.twiTake write a
  | .supervisor =>
    if d.sup.dbg.busy = some 6 then
      let bad := respStatus d.resp
      let d := d.dbgEnd 6 stDONE 0
      if bad = stACCESS then d.feedTrap (causeCode .loadErr) else d
    else if d.sup.uart.wait = .read ∨ d.sup.uart.wait = .write then d.tamopTake write
    else d

/-! ## Requests that a bridge has lost (R16, R20, R40) -/

/-- A request on the configuration or control channel has had no answer for 2 µs: an item is mismatched; the other
transfers end as R20 states. -/
def execBridgeRequestTimeout (die : Fin 2) (chan : Channel) (load : BridgeLoad) (s : State) : Out :=
  s.act (fun d =>
    let due := fun (t : Nat) => elapsed (d.slate - t) 2000
    let gone := fun (d : Dev) => (d.lostGone die load).bridgeTimeout die chan 0 0
    if chan = .data then d else
    match load with
    | .item i =>
      match d.outstandingOf i with
      | some o =>
        if due o.sent then
          ((((d.lostGone die load).setOutstanding i none).bridgeTimeout die chan (itemCode i.kind) i.num.toNat)).mismatch i
        else d
      | none => d
    | .access rq a w =>
      match d.lostAt die load with
      | some t => if due t then (gone d).err.lateAnswer rq w a.toNat else d
      | none => d
    | .loadFrame =>
      match d.lostAt die load, d.cfg.load with
      | some t, some im => if due t then (gone d).loadFail stTIMEOUT (im.reached false) else d
      | some t, none => if due t then gone d else d
      | none, _ => d
    | .spliceFrame =>
      match d.lostAt die load, d.cfg.splice with
      | some t, some im => if due t then (gone d).spliceEnd stTIMEOUT (im.reached true) true else d
      | some t, none => if due t then gone d else d
      | none, _ => d
    | .readback _ =>
      match d.lostAt die load with
      | some t => if due t then gone d else d
      | none => d)

/-! ## Accesses that wait (R25, R40) -/

/-- The access is one that waits. -/
def Dev.busWaiting (d : Dev) (rq : Requester) (a : Nat) (write : Bool) : Bool :=
  d.hub.busWaits.any (fun w => w.rq == rq && w.addr == a && w.write == write)

/-- The access has no answer yet. -/
def Dev.busHold (d : Dev) (rq : Requester) (a : Nat) (write : Bool) : Dev :=
  let d := { d with resp := .none }
  if d.busWaiting rq a write then d
  else d.setHub { d.hub with busWaits := d.hub.busWaits ++ [{ rq := rq, addr := a, write := write, since := d.slate }] }

/-- The access waits no more. -/
def Dev.busFree (d : Dev) (rq : Requester) (a : Nat) (write : Bool) : Dev :=
  d.setHub { d.hub with busWaits := d.hub.busWaits.filter (fun w => !(w.rq == rq && w.addr == a && w.write == write)) }

/-! ## The user window (R24, R41) -/

/-- The base of a die space. -/
def dieBase (die : Nat) : Nat := 0x10000000 + die * 0x8000000

def Dev.setUserWin (d : Dev) (die : Nat) (w : Option WinAccess) : Dev :=
  d.setHub { d.hub with userWin := SMap.set none d.hub.userWin die w }

/-- The port answers. -/
def Dev.userAnswer (d : Dev) (write : Bool) (ans : Word) : Dev := { d with resp := if write then .done else .data ans }

/-- An access to the user window: error where no live port is attached (`attached`: the region whose logic attaches one), or
where its region has been isolated, on this tick with DLY 0x02 (R34); otherwise the port has it, with its PEEK marker for a
peek (R360), and answers now or later. The same access given again with its answer ends the wait; any other access waits
meanwhile (R25). -/
def Dev.userAccess (d : Dev) (rq : Requester) (die ofs : Nat) (write peek : Bool) (data : Word) (attached : Option (Fin 64))
    (ans : Option Word) : Dev :=
  let a := dieBase die + 0x4000000 + ofs
  match SMap.at none d.hub.userWin die with
  | some w =>
    if w.rq = rq ∧ w.ofs = ofs ∧ w.write = write then
      match ans with
      | some x => ((d.setUserWin die none).userAnswer write x).lateAnswer rq write a
      | none => d
    else d.busHold rq a write
  | none =>
    match attached with
    | none => d.err
    | some r =>
      if ofs % 4 ≠ 0 then d.err
      else if d.bit (SPL_REGr_STAT_ISOLATED r) || !d.domainUp (d.regionDomain r) then
        match d.marks.find? (fun m => m.1 == regionMark r || m.1 == domainMark (d.regionDomain r)) with
        | some m => d.discard a m.2
        | none => d.err
      else
        let late := d.busWaiting rq a write
        let d := (if late then d.busFree rq a write else d).out (.userPort die ofs write peek (if write then data else 0))
        match ans with
        | some x => let d := d.userAnswer write x; if late then d.lateAnswer rq write a else d
        | none => { d with hub := { d.hub with userWin := SMap.set none d.hub.userWin die
                                                (some { rq := rq, ofs := ofs, write := write, since := d.slate }) },
                           resp := .none }

def execUserWindowAccess (rq : Requester) (die : Fin 2) (ofs : BitVec 26) (write : Bool) (data : Word)
    (attached : Option (Fin 64)) (ans : Option Word) (s : State) : Out :=
  s.busAct (fun d => d.userAccess rq die ofs.toNat write false data attached ans)

/-- A fabric port has had an access for 10 µs. -/
def execFabricPortTimeout (die : Fin 2) (s : State) : Out :=
  s.act (fun d =>
    match SMap.at none d.hub.userWin die with
    | some w =>
      if elapsed (d.slate - w.since) 10000 then
        (((d.setUserWin die none).log 0x1A 0x05 .error
          [die, w.ofs / 4, w.ofs / 2 ^ 10, w.ofs / 2 ^ 18, rqCode w.rq + 128 * w.write.toNat]).err).lateAnswer w.rq w.write
            (dieBase die + 0x4000000 + w.ofs)
      else d
    | none => d)

/-! ## The control bus (R40, R41) -/

/-- Is the address one whose target the control-bus timeout watches: not in die space, a scratchpad or the DRAM
window? -/
def hubLocal (a : Nat) : Bool := a < 0x10000000

/-- Have 4,096 cycles of D4 gone by in `t` ticks: at 600 MHz, or at the 48 MHz of the RC oscillator (R40, R369)? -/
def Dev.busExpired (d : Dev) (t : Nat) : Bool :=
  decide (4096 * 1000 * 768 ≤ t * 3125 * (if d.bit CKC_STAT_ON_RC then 48 else 600))

/-- A hub-local target has not answered an access for 4,096 D4 cycles: error response and DLY 0x04. Accesses are atomic in the
model, so the target's request queue holds nothing else to flush. -/
def execControlBusTimeout (rq : Requester) (addr : Word) (write : Bool) (s : State) : Out :=
  s.act (fun d =>
    let a := addr.toNat
    match d.hub.busWaits.find? (fun w => w.rq == rq && w.addr == a && w.write == write) with
    | some w =>
      if hubLocal a && d.busExpired (d.slate - w.since) then
        (((d.busFree rq a write).log 0x0D 0x04 .error [a, a / 2 ^ 8, a / 2 ^ 16, a / 2 ^ 24, rqCode rq]).err).lateAnswer rq write a
      else d
    | none => d)

/-! ## The Dailies ring (R46) -/

/-- A write of DLY_TAIL. -/
def Dev.dlyTailWrite (d : Dev) (v : Word) : Dev :=
  let t := d.rf DLY_TAIL_TAIL
  let c := d.rf DLY_STAT_COUNT
  let n := fieldGet 0 11 v
  let k := if c = 2048 ∧ n = t then 2048 else (n + 2048 - t) % 2048
  if c < k then d else (d.wf DLY_STAT_COUNT (c - k)).wf DLY_TAIL_TAIL n

def execDlyTailWrite (_rq : Requester) (v : Word) (s : State) : Out := s.busWrite DLY_TAIL (fun d => d.dlyTailWrite v)

/-! ## The Slate tick (R29, R32, R415) -/

/-- A tick edge, to the tick `t`: the outputs of the last tick end, and so do its pulses, its marks and what hardware set on it. -/
def Dev.tickEdge (d : Dev) (t : Nat) : Dev :=
  { d with slate := t, sets := [], marks := [], outs := [], hub := { d.hub with pulses := [] } }

/-- EXTEST has been left: the owners control their pins again (R357). -/
def Dev.pinsTick (d : Dev) : Dev :=
  if d.sup.dbg.pinsEnd then
    { d with sup := { d.sup with dbg := { d.sup.dbg with pins := false, pinsEnd := false } } }
  else d

/-- Tamop answers a command that ran an operation once that has ended (Table MON-1). -/
def Dev.tamopTick (d : Dev) : Dev :=
  if !d.tamopUp then d
  else match d.sup.uart.wait with
    | .load => if d.loadBusy then d else d.tamopReply [d.rf CFG_STAT_STATUS] (d.rf CFG_STAT_STATUS)
    | .splice => if d.spliceBusy then d else d.tamopReply [d.rf SPL_STAT_STATUS] (d.rf SPL_STAT_STATUS)
    | .boot => if d.nvs.op.isSome then d else d.tamopReply [] (d.rf NVS_STAT_STATUS)
    | .none | .read | .write => d

/-- What follows the edge in every block, without a command of its own. -/
def Dev.tickBlocks (d : Dev) : Dev :=
  let d := d.downTick.ethSettle.linkSettle.meshSettle.regionReleases.scrubTick
  d.wdgTick.uartTick.tamopTick.romTick.bootTick.wakeTick.pinsTick.ioIsolate.evcTick

/-- What goes on within a tick without a command: user logic and the engines run its cycles, and words leave the engines. -/
def Dev.tickRuns (d : Dev) (env : TickEnv) : Dev := ((d.fabricTick env.ins).engineTick env.issues).cshTickEnd

/-- The edge that ends a tick: what ran in it is done, its events are sampled, and the count is one more, or holds (R29, R415). -/
def Dev.nextEdge (d : Dev) (env : TickEnv) : Dev := (d.tickRuns env).sampleSources.tickEdge (min (d.slate + 1) slateMax)

/-- A Slate tick: the edge, and what every block makes of it. -/
def Dev.slateTick (d : Dev) (env : TickEnv) : Dev := ((d.nextEdge env).streamTick env.takes).tickBlocks

def execSlateTick (env : TickEnv) (s : State) : Out := s.act (fun d => d.slateTick env)

end Sys2Proof.Machine
end

