-- ==== Sys2Proof/Machine/Bus.lean ====
section
/-! DEFINITION. The control bus: what a write and a read do at every address of Tables ARCH-5 and ARCH-6, and peeks
(R7, R10, R23 to R25, R31, R36, R360). A register without behaviour of its own acts as its access codes state; every
other register hands the access to the block that owns it. -/
namespace Sys2Proof.Machine
open Reg

/-! ## Indices of an address -/

def dieOf (a : Nat) : Nat := (a - 0x10000000) / 0x8000000

/-- The offset in die space. -/
def dieOfs (a : Nat) : Nat := a % 0x8000000

/-- The engine whose registers or RAMs, or whose mover, stand at an address; its quad; its lane; its MAC; its link. -/
def engineAt (a : Nat) : Nat := dieOf a * 32 + (dieOfs a - 0x400000) / 0x20000
def moverAt (a : Nat) : Nat := dieOf a * 32 + (dieOfs a - 0x800000) / 0x800
def quadAt (a : Nat) : Nat := dieOf a * 64 + (dieOfs a - 0x100000) / 0x1000
def laneIdx (a : Nat) : Nat := quadAt a * 4 + (a % 0x1000 - 0x400) / 0x100
def macAt (a : Nat) : Nat := dieOf a * 16 + (dieOfs a - 0x200000) / 0x1000
def linkAt (a : Nat) : Nat := dieOf a * 16 + (dieOfs a - 0x210000) / 0x1000

/-- The one of `n` indices at which a register array has the address. -/
def indexAt (n : Nat) (reg : Nat → Nat) (a : Nat) : Option Nat := (List.range n).find? (fun i => reg i == a)

/-- The register that an access by address reaches: at 0x0260_0200 to 0x0260_02FF a register of mesh ports 8 to 15 where
no other stands there or where it answers (log entry 61), and none where those registers stand in the model. -/
def regKey (a : Nat) : Nat :=
  if 0x02600200 ≤ a ∧ a < 0x02600300 ∧ (rowAt (a + 0x4000)).isSome ∧ ((rowAt a).isNone ∨ Config.portAnswers a) then a + 0x4000
  else if 0x02604200 ≤ a ∧ a < 0x02604300 then 0x02604000
  else a

/-! ## Writes -/

/-- A plain write, after which a cleared flag of `flags` re-arms the record whose VALID is `valid`. -/
def Dev.rearmWrite (d : Dev) (a : Nat) (v : Word) (flags : List RF) (valid : RF) : Dev :=
  let d := d.plainWrite a v
  if flags.any (fun f => fieldGet f.lo f.w v != 0 && !d.bit f) then d.off valid else d

def Dev.sltWrite (d : Dev) (a : Nat) (v : Word) : Dev :=
  if a = SLT_CUT_TICK_LO then d.cutReserve (·.setTickLo v)
  else if a = SLT_CUT_TICK_HI then d.cutReserve (·.setTickHi v)
  else if a = SLT_CUT_CTL then d.sltCutWrite v
  else d.plainWrite a v

/-- CTY_LO_CFG is written only with MODE = 1, within 10 to 100 MHz. -/
def Dev.loCfgWrite (d : Dev) (v : Word) : Dev :=
  let hz := fieldGet CTY_LO_CFG_NOM_HZ.lo CTY_LO_CFG_NOM_HZ.w v
  if d.rf CTY_CTL_MODE = 1 ∧ 10000000 ≤ hz ∧ hz ≤ 100000000 then d.plainWrite CTY_LO_CFG v else d

/-- CTY_TOD_SET requests a whole-second step (R62). -/
def Dev.todSetWrite (d : Dev) (v : Word) : Dev :=
  if v = 0 then d else { d with cty := { d.cty with todPend := v.toInt } }

def Dev.ctyWrite (d : Dev) (a : Nat) (v : Word) : Dev :=
  if a = CTY_LO_CFG then d.loCfgWrite v
  else if a = CTY_PTP_OFS then d.ptpOffset v
  else if a = CTY_TOD_SET then d.todSetWrite v
  else if a = CTY_MDL_CTL then d.mdlCtlWrite v
  else if a = CTY_MDL_VAL_LO then d.mdlLoWrite v
  else if a = CTY_MDL_VAL_HI then d.mdlHiWrite v
  else if a = CTY_TEM_CTL then d.temCtlWrite v
  else match indexAt 8 CTY_REFn_CFG a, indexAt 8 CTY_SYSs_CTL a with
    | some n, _ => d.refCfgWrite n v
    | none, some n => d.sysCtlWrite n v
    | none, none => d.plainWrite a v

/-- CFG_KEY_STAT: its marks are the key store's own (R301). -/
def Dev.keyStatWrite (d : Dev) (v : Word) : Dev :=
  let d := d.plainWrite CFG_KEY_STAT v
  d.setCfg { d.cfg with keyErased := d.cfg.keyErased && d.bit CFG_KEY_STAT_ERASED,
                        keyTamper := d.cfg.keyTamper && d.bit CFG_KEY_STAT_TAMPER }

def Dev.cfgWrite (d : Dev) (a : Nat) (v : Word) (e : BusEnv) : Dev :=
  if a = CFG_CTL then d.cfgCtlWrite v
  else if a = CFG_DATA then d.cfgDataWrite v e.drained.toNat
  else if a = CFG_KEY_CTL then d.cfgKeyWrite v
  else if a = CFG_KEY_STAT then d.keyStatWrite v
  else match indexAt 8 CFG_KEY_DATAk a with
    | some k => d.keyDataWrite k v
    | none => d.plainWrite a v

def Dev.nvsWrite (d : Dev) (a : Nat) (v : Word) : Dev :=
  if a = NVS_CMD then d.nvsCmdWrite v
  else if a = NVS_STAT then d.rearmWrite a v [NVS_STAT_UE] NVS_ERR_VALID
  else d.plainWrite a v

def Dev.splWrite (d : Dev) (a : Nat) (v : Word) (e : BusEnv) : Dev :=
  if a = SPL_CTL then d.splCtlWrite v
  else if a = SPL_DATA then d.splDataWrite v e.drained.toNat
  else if a = SPL_SCRUB_CTL then d.scrubCtlWrite v
  else if a = SPL_SCRUB_STAT then d.rearmWrite a v [SPL_SCRUB_STAT_MISMATCH] SPL_SCRUB_ERR_VALID
  else match indexAt 64 SPL_REGr_CTL a with
    | some r => d.regionCtlWrite r v
    | none => d.plainWrite a v

/-- CSH_BANKb_LEN and PER are not written while the bank is STAGED or ACTIVE. -/
def Dev.cshWrite (d : Dev) (a : Nat) (v : Word) (e : BusEnv) : Dev :=
  if a = CSH_CTL then d.cshCtlWrite v
  else if a = CSH_CUT_CTL then d.cshCutWrite v
  else if a = CSH_STAT then d.rearmWrite a v [CSH_STAT_UE, CSH_STAT_INVALID] CSH_ERR_VALID
  else if a = FAB_MT_CTL 2 then d.marchCtlWrite 2 v e.march
  else if a = CSH_BANKb_LEN 0 ∨ a = CSH_BANKb_PER 0 then (if d.bankFree 0 then d.plainWrite a v else d)
  else if a = CSH_BANKb_LEN 1 ∨ a = CSH_BANKb_PER 1 then (if d.bankFree 1 then d.plainWrite a v else d)
  else d.plainWrite a v

def Dev.dmcWrite (d : Dev) (a : Nat) (v : Word) : Dev :=
  let n := (a - 0x02400000) / 0x10000
  if a = DMC_CFG n then d.dmcCfgWrite n v
  else if a = DMC_TRAIN n then d.trainWrite n v
  else if a = DMC_FCHG n then d.fchgWrite n v
  else if a = DMC_STAT n then d.rearmWrite a v [DMC_STAT_TIMEOUT n] (DMC_ERR_VALID n)
  else match indexAt 3 (DMC_SETs_RATE n) a, indexAt 3 (DMC_SETs_TA n) a, indexAt 3 (DMC_SETs_TB n) a with
    | some s, _, _ => d.setRegWrite n s .rate v
    | none, some s, _ => d.setRegWrite n s .ta v
    | none, none, some s => d.setRegWrite n s .tb v
    | none, none, none => d.plainWrite a v

def Dev.mpeRegWrite (d : Dev) (a : Nat) (v : Word) : Dev :=
  if a = MPE_CFG then d.mpeCfgWrite v
  else if a = MPE_STAT then d.rearmWrite a v [MPE_STAT_UE, MPE_STAT_INTEG] MPE_ERR_VALID
  else match indexAt 4 MPE_CHn_KEY_CTL a with
    | some n => d.keyCtlWrite n v
    | none => d.plainWrite a v

def Dev.mshWrite (d : Dev) (a : Nat) (v : Word) : Dev :=
  if a = MSH_CFG then d.mshCfgWrite v
  else if a = MSH_CLP_CTL then d.clpCtlWrite v
  else if a = MSH_BAR then d.mshBarWrite v
  else match indexAt 16 MSH_PORTp_CFG a with
    | some p => d.portCfgWrite p v
    | none => d.plainWrite a v

def Dev.evcWrite (d : Dev) (a : Nat) (v : Word) : Dev :=
  if a < EVC_PENDk 0 then d.srcCfgWrite ((a - EVC_SRCs_CFG 0) / 4) v
  else match indexAt 8 EVC_PENDk a, indexAt 8 EVC_SETPENDk a, indexAt 5 EVC_COMPLETEt a with
    | some k, _, _ => d.pendWrite k v
    | none, some k, _ => d.setPendWrite k v
    | none, none, some t => d.complete t (fieldGet 0 8 v)
    | none, none, none => d.plainWrite a v

def Dev.ckcWrite (d : Dev) (a : Nat) (v : Word) : Dev :=
  if a = CKC_CTL then d.ckcCtlWrite v
  else if a = CKC_FCNT_CTL then d.fcntWrite v
  else match ([.hub, .iface 0, .iface 1, .engines 0, .engines 1, .quads 0 0, .quads 0 1, .quads 1 0, .quads 1 1] :
        List EnableReg).find? (fun r => enableAddr r == a), indexAt 8 CKC_SYNf_CFG a with
    | some r, _ => d.enableWrite r v
    | none, some f => d.synthWrite f v
    | none, none => d.plainWrite a v

def Dev.gafWrite (d : Dev) (a : Nat) (v : Word) : Dev :=
  if a = GAF_SVOTE then d.svoteWrite v
  else if a = GAF_CUT_CTL then d.gafCutWrite v
  else if a = GAF_RELEASE then d.releaseWrite v
  else if a = GAF_RST then d.rstWrite v
  else d.plainWrite a v

def Dev.wdgWrite (d : Dev) (a : Nat) (v : Word) : Dev :=
  if a = WDG_CTL then d.wdgCtlWrite v
  else if a = WDG_SVC then d.wdgSvcWrite v
  else if a = WDG_LOAD ∨ a = WDG_WARN then d.wdgLocked a (fun d => d.plainWrite a v)
  else d.plainWrite a v

def Dev.gpioRegWrite (d : Dev) (a : Nat) (v : Word) : Dev :=
  match indexAt 2 GPIO_OUTw a, indexAt 2 GPIO_OEw a with
  | some w, _ => d.gpioWrite false w v
  | none, some w => d.gpioWrite true w v
  | none, none => d.plainWrite a v

def Dev.lnqWrite (d : Dev) (a : Nat) (v : Word) : Dev :=
  let q := quadAt a
  let l := laneIdx a
  if a % 0x1000 < 0x400 then
    match indexAt 2 (LNQ_PLLp_CFG q) a, indexAt 2 (LNQ_PLLp_RATE q) a with
    | some p, _ => d.pllCfgWrite q p v
    | none, some p => d.pllRateWrite q p v
    | none, none => d.plainWrite a v
  else if a = LNQ_Li_CFG l then d.laneCfgWrite l v
  else if a = LNQ_Li_PWR l then d.lanePwrWrite l v
  else if a = LNQ_Li_TXEQ l then d.txeqWrite l v
  else if a = LNQ_Li_TEST l then d.laneTestWrite l v
  else d.plainWrite a v

def Dev.ethWrite (d : Dev) (a : Nat) (v : Word) : Dev :=
  if a = ETH_CFG (macAt a) then d.ethCfgWrite (macAt a) v
  else if a = ETH_ECP_CFG (macAt a) ∨ (0x100 ≤ a % 0x1000 ∧ a % 0x1000 < 0x200) then d.ecpWrite a v
  else d.plainWrite a v

def Dev.jlkWrite (d : Dev) (a : Nat) (v : Word) : Dev :=
  let j := linkAt a
  if a = JLK_CFG j then d.jlkCfgWrite j v
  else if a = JLK_LANES j ∨ a = JLK_LEMC j then d.jlkPlainWrite j a v
  else d.plainWrite a v

def Dev.seWrite (d : Dev) (a : Nat) (v : Word) (e : BusEnv) : Dev :=
  let n := engineAt a
  if a = SE_CTL n then d.seCtlWrite n v e.issue
  else if a = SE_STAT n then d.rearmWrite a v [SE_STAT_UE n] (SE_ERRLOC_VALID n)
  else if SE_AGk_BASE n 0 ≤ a then d.agWrite n ((a - SE_AGk_BASE n 0) / 16) (a % 16 / 4) v
  else d.plainWrite a v

def Dev.dlmWrite (d : Dev) (a : Nat) (v : Word) : Dev :=
  if a = DLM_CTL (moverAt a) then d.dlmCtlWrite (moverAt a) v else d.plainWrite a v

def Dev.fabWrite (d : Dev) (a : Nat) (v : Word) (e : BusEnv) : Dev :=
  let die := dieOf a
  if a = FAB_CAP_CTL die then d.capCtlWrite die v
  else if a = FAB_CAP_MASK_LO die ∨ a = FAB_CAP_MASK_HI die then d.capMaskWrite die a v
  else if a = FAB_CAP_AT_LO die ∨ a = FAB_CAP_AT_HI die then d.capAtWrite die a v
  else if a = FAB_MEM_STAT die then d.rearmWrite a v [FAB_MEM_STAT_UE die] (FAB_MEM_ERRLOC_VALID die)
  else if a = FAB_MT_CTL die then d.marchCtlWrite die v e.march
  else match indexAt 64 (FAB_PRB_SELn die) a with
    | some n => d.probeSelect die n v
    | none => d.plainWrite a v

/-- A write that has reached the register at `a`. -/
def Dev.regWrite (d : Dev) (a : Nat) (v : Word) (e : BusEnv) : Dev :=
  match blockOf a with
  | 0x01 => d.sltWrite a v
  | 0x02 => d.ctyWrite a v
  | 0x03 => d.cfgWrite a v e
  | 0x04 => d.nvsWrite a v
  | 0x05 => d.splWrite a v e
  | 0x06 => d.cshWrite a v e
  | 0x07 | 0x08 | 0x09 | 0x0A => d.dmcWrite a v
  | 0x0B => d.mpeRegWrite a v
  | 0x0C => d.mshWrite a v
  | 0x0D => if a = DLY_TAIL then d.dlyTailWrite v else d.plainWrite a v
  | 0x0E => d.evcWrite a v
  | 0x0F => d.ckcWrite a v
  | 0x10 => d.gafWrite a v
  | 0x11 => d.wdgWrite a v
  | 0x12 => if a = MON_DATA then d.monDataWrite v else d.plainWrite a v
  | 0x13 => if a = TWI_MCTL then d.twiMctlWrite v else d.plainWrite a v
  | 0x14 => d.gpioRegWrite a v
  | 0x15 => d.lnqWrite a v
  | 0x16 => d.ethWrite a v
  | 0x17 => d.jlkWrite a v
  | 0x18 => d.seWrite a v e
  | 0x19 => d.dlmWrite a v
  | 0x1A => d.fabWrite a v e
  | _ => d.plainWrite a v

/-! ## What registers show -/

/-- The low and the high word of a pair whose low word holds the high one when read (R31). -/
def holdPairs (a : Nat) : Option Nat :=
  let die := dieOf a
  let l := laneIdx a
  if a = SLT_NOW_LO then some SLT_NOW_HI
  else if a = CTY_FCW_LO then some CTY_FCW_HI
  else if a = CTY_MDL_VAL_LO then some CTY_MDL_VAL_HI
  else if a = CTY_MAP_TICK_LO then some CTY_MAP_TICK_HI
  else if a = CTY_MAP_SEC_LO then some CTY_MAP_SEC_HI
  else if a = CSH_PSTART_LO then some CSH_PSTART_HI
  else if a = FAB_CAP_TRIG_TICK_LO die then some (FAB_CAP_TRIG_TICK_HI die)
  else if a = LNQ_Li_PBITS_LO l then some (LNQ_Li_PBITS_HI l)
  else none

/-- Is the address the high word of such a pair? -/
def holdsHigh (a : Nat) : Bool := 4 ≤ a && holdPairs (a - 4) == some a

/-- STATUS and STATE of a request register over the slot it took: a refusal's status, or the slot's. -/
def Dev.slotShow (d : Dev) (w : Word) (slot stat state : RF) (mine : CutSlot → Bool) : Word :=
  let c := d.cut (fieldGet slot.lo slot.w w)
  if mine c then
    let st := fieldGet stat.lo stat.w w
    fieldSet state.lo state.w c.state.code (fieldSet stat.lo stat.w (if st = 0 then c.status else st) w)
  else fieldSet state.lo state.w 0 w

/-- SLT_STAT: the slots that are ARMED or PREPARED. An access is sampled at the tick edge, in cycle 0. -/
def Dev.sltStatShow (d : Dev) : Word :=
  fieldSet SLT_STAT_ARMED.lo SLT_STAT_ARMED.w ((List.range 32).filter (fun i => (d.cut i).live)).length (d.rd SLT_STAT)

/-- SLT_CUT_CTL of the selected slot. -/
def Dev.cutCtlShow (d : Dev) : Word :=
  let c := d.cut d.selSlot
  BitVec.ofNat 32 (c.kind * 2 ^ 4 + c.state.code * 2 ^ 8 + c.status * 2 ^ 12 + c.target * 2 ^ 16)

/-- The word of the model parameter that CTY_MDL_SEL selects. -/
def Dev.mdlShow (d : Dev) (hi : Bool) : Word :=
  let i := d.rf CTY_MDL_SEL_INDEX
  let x := if i ≤ 12 then lowBits 64 (d.param i) else 0
  BitVec.ofNat 32 (if hi then x / 2 ^ 32 else x)

/-- GAF_DOMd_STAT with CUT_PEND: a Cut that names the domain is ARMED or PREPARED. -/
def Dev.domShow (d : Dev) (p : Nat) : Word :=
  let cut := (List.range 32).any (fun i =>
    let c := d.cut i
    c.live && (c.kind == kPOWERON || c.kind == kPOWEROFF) && c.target == p)
  fieldSet (GAF_DOMd_STAT_CUT_PEND p).lo 1 cut.toNat (d.rd (GAF_DOMd_STAT p))

/-- ETH_TXTS_TAG: the oldest timestamp's tag. -/
def Dev.txtsShow (d : Dev) (m : Nat) : Word :=
  match (d.mac m).txts with
  | [] => 0
  | (tag, _) :: _ => BitVec.ofNat 32 (tag % 65536 + 65536)

/-- The live word of a register, before write-only fields are hidden. -/
def Dev.liveWord (d : Dev) (a : Nat) : Word :=
  if a = SLT_NOW_LO then BitVec.ofNat 32 d.slate
  else if a = SLT_NOW_HI then BitVec.ofNat 32 (d.slate / 2 ^ 32)
  else if a = SLT_STAT then d.sltStatShow
  else if a = SLT_CUT_TICK_LO then BitVec.ofNat 32 (d.cut d.selSlot).tick
  else if a = SLT_CUT_TICK_HI then BitVec.ofNat 32 ((d.cut d.selSlot).tick / 2 ^ 32)
  else if a = SLT_CUT_CTL then d.cutCtlShow
  else if a = CTY_MDL_VAL_LO then d.mdlShow false
  else if a = CTY_MDL_VAL_HI then d.mdlShow true
  else if a = CSH_CUT_CTL then
    d.slotShow (d.rd a) CSH_CUT_CTL_SLOT CSH_CUT_CTL_STATUS CSH_CUT_CTL_STATE (fun c => c.kind == kSCHEDULE)
  else if a = GAF_CUT_CTL then
    d.slotShow (d.rd a) GAF_CUT_CTL_SLOT GAF_CUT_CTL_STATUS GAF_CUT_CTL_STATE
      (fun c => c.kind == kPOWERON || c.kind == kPOWEROFF)
  else if a = MON_DATA then d.monDataWord
  else if blockOf a = 0x0B then
    match indexAt 4 MPE_CHn_KEY_CTL a with
    | some n => d.slotShow (d.rd a) (MPE_CHn_KEY_CTL_SLOT n) (MPE_CHn_KEY_CTL_STATUS n) (MPE_CHn_KEY_CTL_STATE n)
        (fun c => c.kind == kKEY && c.target == n)
    | none => d.rd a
  else if blockOf a = 0x10 then
    match indexAt 30 GAF_DOMd_STAT a with
    | some p => d.domShow p
    | none => d.rd a
  else if blockOf a = 0x0E then
    match indexAt 8 EVC_SETPENDk a, indexAt 5 EVC_CLAIMt a with
    | some k, _ => d.rd (EVC_PENDk k)
    | none, some t => claimWord (d.claimShow t)
    | none, none => d.rd a
  else if blockOf a = 0x16 ∧ a = ETH_TXTS_TAG (macAt a) then d.txtsShow (macAt a)
  else if blockOf a = 0x18 ∧ a = SE_XIDLE (engineAt a) then (d.seSettle (engineAt a)).rd a
  else d.rd a

/-- What a read or a peek of a register returns: a high word, its held copy (R31); a write-only field, zero. -/
def Dev.showWord (d : Dev) (a : Nat) : Word :=
  let w := if holdsHigh a then SMap.at 0 d.hold a else d.liveWord a
  match rowAt a with
  | some r => rowRead r w
  | none => w

/-! ## Reads -/

/-- A read-clear field after a read holds what was counted in the same cycle (R36). -/
def rowCleared (r : RegRow) (x counted : Word) : Word :=
  r.fields.foldl (fun x f => match f.acc with | .rcl => fieldSet f.lo f.w (fieldGet f.lo f.w counted) x | _ => x) x

/-- A read that has reached the register at `a`, with its effects. -/
def Dev.regRead (d : Dev) (a : Nat) (counted : Word) : Dev :=
  if a = CTY_TODRX then d.todrxRead
  else if a = MON_DATA then d.monDataRead
  else if blockOf a = 0x16 ∧ a = ETH_TXTS_TAG (macAt a) then d.txtsTagRead (macAt a)
  else match indexAt 5 EVC_CLAIMt a with
    | some t => d.claimRead t
    | none =>
      let w := d.showWord a
      let d := match holdPairs a with
        | some hi => { d with hold := SMap.set 0 d.hold hi (d.liveWord hi) }
        | none => d
      let d := if blockOf a = 0x18 ∧ a = SE_XIDLE (engineAt a) then d.seSettle (engineAt a) else d
      let d := match rowAt a with
        | some r => if r.fields.any (fun f => f.acc == Access.rcl) then d.wr a (rowCleared r (d.rd a) counted) else d
        | none => d
      -- the largest depth since the read is at least the present one (Table CSH-9)
      let d := match indexAt 64 (CSH_ENGn_STAT) a with
        | some n => d.wf (CSH_ENGn_STAT_MAXDEPTH n) (max (d.rf (CSH_ENGn_STAT_DEPTH n)) (d.rf (CSH_ENGn_STAT_MAXDEPTH n)))
        | none => d
      let d := if a = LNQ_Li_PBITS_LO (laneIdx a) then d.wr (LNQ_Li_PBITS_HI (laneIdx a)) 0 else d
      { d with resp := .data w }

/-! ## Memories and windows -/

/-- A read of the boot ROM. -/
def Dev.romRead (d : Dev) (a : Nat) : Dev := { d with resp := .data (Config.romWord (a / 4)) }

/-- A read of supervisor SRAM by a debug master or a host (R336). -/
def Dev.sramRead (d : Dev) (a : Nat) (ecc : Ecc) : Dev :=
  let i := (a - 0x100000) / 4
  match ecc with
  | .uncorrectable => d.err
  | .corrected => { d.evcLog 0x04 .info [i, i / 256, i / 65536, 0, 0] with resp := .data (SMap.at 0 d.sup.sram i) }
  | .clean => { d with resp := .data (SMap.at 0 d.sup.sram i) }

def Dev.sramWrite (d : Dev) (a : Nat) (v : Word) : Dev :=
  d.setSup { d.sup with sram := SMap.set 0 d.sup.sram ((a - 0x100000) / 4) v }

/-- A read of the Dailies ring (R45). -/
def Dev.ringRead (d : Dev) (a : Nat) : Dev :=
  let o := a - 0x02708000
  { d with resp := .data ((SMap.at 0 d.hub.dailies (o / 16)).extractLsb' (32 * (o % 16 / 4)) 32) }

/-- A read of the Call Sheet store (R158). An uncorrectable word's value is free. -/
def Dev.cshRead (d : Dev) (a : Nat) (ecc : Ecc) : Dev :=
  let o := a - 0x04000000
  let w := (SMap.at 0 d.csh.entries (o / 16)).extractLsb' (32 * (o % 16 / 4)) 32
  if ecc = .uncorrectable then
    let (x, d) := d.draw
    { d with resp := .data (w ^^^ x) }
  else { d with resp := .data w }

/-- A read of the capture buffer: the samples oldest first, none while a capture is active (R99). -/
def Dev.capRead (d : Dev) (a : Nat) : Dev :=
  let die := dieOf a
  let o := dieOfs a - 0x80000
  let c := SMap.at Capture.idle d.fab.cap die
  if d.capActive die then d.err
  else { d with resp := .data ((c.buf.reverse.getD (o / 8) 0).extractLsb' (32 * (o % 8 / 4)) 32) }

/-- A word of a 48-bit accumulator part sign-extended to 64 bits. -/
def accWord (x : BitVec 48) (hi : Bool) : Word := if hi then (x.signExtend 64).extractLsb' 32 32 else x.extractLsb' 0 32

/-- A 48-bit part with one of its words replaced. -/
def accSetWord (x : BitVec 48) (hi : Bool) (v : Word) : BitVec 48 :=
  if hi then (v.extractLsb' 0 16 ++ x.extractLsb' 0 32).setWidth 48 else (x.extractLsb' 32 16 ++ v).setWidth 48

def AccSet.part (x : AccSet) (i : Nat) (im : Bool) : BitVec 48 :=
  if im then x.im.extractLsb' (48 * i) 48 else x.re.extractLsb' (48 * i) 48

/-- A wide vector with `v` in place of its bits from `lo` on. -/
def putBits {w n : Nat} (x : BitVec w) (lo : Nat) (v : BitVec n) : BitVec w :=
  (x &&& ~~~((BitVec.allOnes n).setWidth w <<< lo)) ||| (v.setWidth w <<< lo)

def AccSet.setPart (x : AccSet) (i : Nat) (im : Bool) (v : BitVec 48) : AccSet :=
  if im then { x with im := putBits x.im (48 * i) v } else { x with re := putBits x.re (48 * i) v }

/-- What the engine state window shows at an offset (Table DBG-4); none: nothing lies there. -/
def Engine.winRead (e : Engine) (o : Nat) : Option Word :=
  if o < 0x40 then some (e.sreg (o / 4)).v
  else if o = 0x40 then some (BitVec.ofNat 32 (e.z.toNat + 2 * e.n.toNat))
  else if 0x1000 ≤ o ∧ o < 0x2000 then some ((e.vreg ((o - 0x1000) / 0x80)).elem (o % 0x80 / 4))
  else if 0x2000 ≤ o ∧ o < 0x2800 then
    some (accWord ((e.accOf ((o - 0x2000) / 0x200)).part (o % 0x200 / 0x10) (o % 16 / 8 == 1)) (o % 8 / 4 == 1))
  else if o = 0x3000 then
    some (BitVec.ofNat 32 (((List.range 16).map (fun r => (e.sreg r).p.toNat * 2 ^ r)).sum + e.fp.toNat * 2 ^ 16))
  else if 0x3004 ≤ o ∧ o < 0x3084 then some (e.vreg ((o - 0x3004) / 4)).p
  else if 0x3084 ≤ o ∧ o < 0x3094 then some (e.accOf ((o - 0x3084) / 4)).p
  else none

/-- Both views of an accumulator set: no write is in flight while the window can be written. -/
def Engine.setAcc (e : Engine) (a : Nat) (x : AccSet) : Engine :=
  { e with acc := SMap.set AccSet.zero e.acc a x, accM := SMap.set AccSet.zero e.accM a x }

/-- A write through the engine state window. -/
def Engine.winWrite (e : Engine) (o : Nat) (v : Word) : Option Engine :=
  if o < 0x40 then some (e.setS (o / 4) { (e.sreg (o / 4)) with v := v })
  else if o = 0x40 then some { e with z := v.getLsbD 0, n := v.getLsbD 1 }
  else if 0x1000 ≤ o ∧ o < 0x2000 then
    let r := (o - 0x1000) / 0x80
    let x := e.vreg r
    some (e.setV r { x with x := putBits x.x (32 * (o % 0x80 / 4)) v })
  else if 0x2000 ≤ o ∧ o < 0x2800 then
    let a := (o - 0x2000) / 0x200
    let i := o % 0x200 / 0x10
    let im := o % 16 / 8 == 1
    let x := e.accOf a
    some (e.setAcc a (x.setPart i im (accSetWord (x.part i im) (o % 8 / 4 == 1) v)))
  else if o = 0x3000 then
    some { (List.range 16).foldl (fun (e : Engine) r => e.setS r { (e.sreg r) with p := v.getLsbD r }) e with fp := v.getLsbD 16 }
  else if 0x3004 ≤ o ∧ o < 0x3084 then
    let r := (o - 0x3004) / 4
    some (e.setV r { (e.vreg r) with p := v })
  else if 0x3084 ≤ o ∧ o < 0x3094 then
    let a := (o - 0x3084) / 4
    some (e.setAcc a { (e.accOf a) with p := v })
  else none

/-- Is the engine in a state in which its window answers (R366)? -/
def Dev.winOpen (d : Dev) (n : Nat) : Bool := d.seState n == seHALTED || d.seState n == seTRAPPED

def Dev.seWinRead (d : Dev) (n o : Nat) : Dev :=
  match d.winOpen n, (d.engine n).winRead o with
  | true, some w => { d with resp := .data w }
  | _, _ => d.err

def Dev.seWinWrite (d : Dev) (n o : Nat) (v : Word) : Dev :=
  match d.winOpen n, (d.engine n).winWrite o v with
  | true, some e => d.setEngine n e
  | _, _ => d.err

/-! ## An access at any address -/

/-- The places of the map. -/
inductive Place where
  | rom | sram | nvsWindow | ring | callSheet
  | capture (die : Nat) | user (die ofs : Nat) | seWindow (n ofs : Nat) | seRam (n : Nat) (ram : EngineRam) (word : Nat)
  | dlmRing (n word : Nat) | scratchpad (n elem : Nat) | dram | reg
  deriving DecidableEq, Repr

/-- What stands at an address (Tables ARCH-5, ARCH-6, SE-2). -/
def addrPlace (a : Nat) : Place :=
  if a < 0x10000 then .rom
  else if 0x100000 ≤ a ∧ a < 0x180000 then .sram
  else if 0x02218000 ≤ a ∧ a < 0x02220000 then .nvsWindow
  else if 0x02708000 ≤ a ∧ a < 0x02710000 then .ring
  else if 0x04000000 ≤ a ∧ a < 0x04800000 then .callSheet
  else if 0x10000000 ≤ a ∧ a < 0x20000000 then
    let o := dieOfs a
    let eo := (o - 0x400000) % 0x20000
    let mo := (o - 0x800000) % 0x800
    if 0x80000 ≤ o ∧ o < 0xA0000 then .capture (dieOf a)
    else if 0x400000 ≤ o ∧ o < 0x800000 then
      if 0x2000 ≤ eo ∧ eo < 0x6000 then .seWindow (engineAt a) (eo - 0x2000)
      else if 0x8000 ≤ eo ∧ eo < 0x10000 then .seRam (engineAt a) .program ((eo - 0x8000) / 4)
      else if 0x10000 ≤ eo then .seRam (engineAt a) .coefficient ((eo - 0x10000) / 4)
      else .reg
    else if 0x800000 ≤ o ∧ o < 0x810000 then
      if 0x400 ≤ mo ∧ mo < 0x600 then .dlmRing (moverAt a) ((mo - 0x400) / 4) else .reg
    else if 0x4000000 ≤ o then .user (dieOf a) (o - 0x4000000)
    else .reg
  else if 0x40000000 ≤ a ∧ a < 0x41000000 then .scratchpad ((a - 0x40000000) / 0x40000) (a % 0x40000 / 4)
  else if 0x80000000 ≤ a then .dram
  else .reg

/-- The effect of a read, or of a peek: the same answer with no effect (R360). -/
def asPeek (peek : Bool) (f : Dev → Dev) (d : Dev) : Dev := if peek then { d with resp := (f d).resp } else f d

/-- The die of an address in die space or of a scratchpad. -/
def farDie (a : Nat) : Option Nat :=
  if 0x10000000 ≤ a ∧ a < 0x20000000 then some ((a - 0x10000000) / 0x8000000)
  else if 0x40000000 ≤ a ∧ a < 0x41000000 then some ((a - 0x40000000) / 0x800000)
  else none

/-- Has a bridge lost the request of this access (R20)? -/
def Dev.accessLost (d : Dev) (rq : Requester) (a : Nat) (write : Bool) : Bool :=
  match farDie a with
  | some die => (d.lostAt die (.access rq (BitVec.ofNat 32 a) write)).isSome
  | none => false

/-- Is the access one to the user window, which times and orders its accesses itself? -/
def isUser (a : Nat) : Bool := decide (0x10000000 ≤ a) && decide (a < 0x20000000) && decide (0x4000000 ≤ dieOfs a)

/-- An access as it is issued: one that a bridge has lost, that a hub-local target does not answer (R40) or that an earlier
access to its die holds up (R25) has no answer yet and no effect; given again when it can complete, its requester takes the
answer. -/
def Dev.busGo (d : Dev) (rq : Requester) (a : Nat) (write : Bool) (e : BusEnv) (f : Dev → Dev) : Dev :=
  if d.accessLost rq a write then { d with resp := .none }
  else if isUser a then f d
  else if d.dieBusy a || hubLocal a && e.silent then d.busHold rq a write
  else if d.busWaiting rq a write then
    let r := f d
    if r.resp = .none then r else (r.busFree rq a write).lateAnswer rq write a
  else f d

/-- What a control-bus read of `a` by `rq` does at the place it reaches. -/
def Dev.busReadAt (d : Dev) (peek : Bool) (rq : Requester) (a : Nat) (e : BusEnv) : Dev :=
  let at_ := fun (f : Dev → Dev) => d.window a (asPeek peek f)
  match addrPlace a with
  | .rom => at_ (fun d => d.romRead a)
  | .sram => at_ (fun d => d.sramRead a e.ecc)
  | .nvsWindow => d.nvsAccess (asPeek peek (fun d => d.nvsWindow (a - 0x02218000) e.bch))
  | .ring => at_ (fun d => d.ringRead a)
  | .callSheet => at_ (fun d => d.cshRead a e.ecc)
  | .capture _ => at_ (fun d => d.capRead a)
  | .user die ofs => d.userAccess rq die ofs false peek 0 e.attached e.ans
  | .seWindow n o => at_ (fun d => d.seWinRead n o)
  | .seRam _ _ _ => at_ (fun d => d.err)
  | .dlmRing n w => at_ (fun d => { d with resp := .data (d.ringWord n w) })
  | .scratchpad n x => d.window a (fun d =>
      if d.seState n = seRUN && !e.idle then d.busHold rq a false
      else asPeek peek (fun d => d.spadAccess n (BitVec.ofNat 16 x) false 0 e.ecc) d)
  | .dram => at_ (fun d => d.windowAccess (a - 0x80000000) none false e.sector e.back)
  | .reg => d.access (regKey a) (asPeek peek (fun d => d.regRead (regKey a) e.counted))

/-- A control-bus read of `a` by `rq`; `peek`: without any read side effect, but for the PEEK marker at a fabric port. One of
a byte, a halfword or an unaligned word is answered with an error (R7), as the model has it at every address (log entry
156). -/
def Dev.busRead (d : Dev) (peek : Bool) (rq : Requester) (a : Nat) (e : BusEnv) : Dev :=
  if e.width ≠ .word ∨ a % 4 ≠ 0 then d.err else d.busGo rq a false e (fun d => d.busReadAt peek rq a e)

/-- What a control-bus write of `v` to `a` by `rq` does at the place it reaches. -/
def Dev.busPutAt (d : Dev) (rq : Requester) (a : Nat) (v : Word) (e : BusEnv) : Dev :=
  let at_ := fun (f : Dev → Dev) => d.window a f
  match addrPlace a with
  | .rom => d.err
  | .sram => at_ (fun d => d.sramWrite a v)
  | .nvsWindow => d.nvsAccess (fun d => d.err)
  | .ring => d.err
  | .callSheet => at_ (fun d => d.entryWrite rq ((a - 0x04000000) / 16) (a % 16 / 4) v)
  | .capture _ => d.err
  | .user die ofs => d.userAccess rq die ofs true false v e.attached e.ans
  | .seWindow n o => at_ (fun d => d.seWinWrite n o v)
  | .seRam n ram w => at_ (fun d => d.ramExtWrite n ram w v)
  | .dlmRing n w => at_ (fun d => d.setRingWord n w v)
  | .scratchpad n x => at_ (fun d =>
      if d.seState n = seRUN && !e.idle then d.busHold rq a true
      else d.spadAccess n (BitVec.ofNat 16 x) true v e.ecc)
  | .dram => at_ (fun d => d.windowAccess (a - 0x80000000) (some v) false e.sector e.back)
  | .reg => d.access (regKey a) (fun d => d.regWrite (regKey a) v e)

/-- A control-bus write of `v` to `a` by `rq`, with the same widths. -/
def Dev.busPut (d : Dev) (rq : Requester) (a : Nat) (v : Word) (e : BusEnv) : Dev :=
  if e.width ≠ .word ∨ a % 4 ≠ 0 then d.err else d.busGo rq a true e (fun d => d.busPutAt rq a v e)

/-! ## The commands of registers (R10, R31, R36) -/

/-- Is the register one through which Cuts, Clappers, schedules or the time of day are commanded (R415)? -/
def timedReg (a : Nat) : Bool :=
  let a := regKey a
  a == SLT_CUT_TICK_LO || a == SLT_CUT_TICK_HI || a == SLT_CUT_CTL || a == CSH_CUT_CTL || a == GAF_CUT_CTL || a == MSH_CLP_CTL ||
  a == MSH_BAR || (indexAt 4 MPE_CHn_KEY_CTL a).isSome

/-- A write at any address, with the fault of a command that the held count leaves undefined. -/
def State.putAt (s : State) (rq : Requester) (a : Nat) (v : Word) (e : BusEnv) : Out :=
  if timedReg a then s.busTimed (fun d => d.busPut rq a v e) else s.busAct (fun d => d.busPut rq a v e)

/-- A control-bus write (R7, R10). -/
def execRegisterWrite (rq : Requester) (addr v : Word) (width : AccWidth) (env : BusEnv) (s : State) : Out :=
  if width = .word then s.putAt rq addr.toNat v { env with width := width } else s.busAct Dev.err

/-- What the surroundings give an access that meets no error. -/
def BusEnv.clean : BusEnv :=
  { width := .word, silent := false, ecc := .clean, bch := .clean, idle := true, drained := 0, counted := 0, attached := none,
    ans := none, sector := { nodes := [], bch := .clean, tagBad := false, timeout := false },
    back := { sectors := [], nodes := [] }, issue := IssueEnv.clean, march := [] }

/-- A read of a low word, or of any register. -/
def execHoldingLowWordRead (rq : Requester) (addr : Word) (width : AccWidth) (s : State) : Out :=
  s.busAct (fun d => d.busRead false rq addr.toNat { BusEnv.clean with width := width })

/-- A control-bus access to a scratchpad: served in an idle X cycle, and not answered yet where a running engine
leaves none (R130). -/
def execScratchpadAccess (rq : Requester) (n : Fin 64) (elem : BitVec 16) (write : Bool) (data : Word) (idle : Bool)
    (ecc : Ecc) (s : State) : Out :=
  let e := { BusEnv.clean with idle := idle, ecc := ecc }
  s.busAct (fun d => if write then d.busPut rq (spadAddr n elem) data e else d.busRead false rq (spadAddr n elem) e)

/-- An access has found no idle X cycle for 2 µs: error response and SE 0x07 (R131). -/
def execScratchpadAccessTimeout (rq : Requester) (n : Fin 64) (elem : BitVec 16) (write : Bool) (s : State) : Out :=
  s.act (fun d =>
    let a := spadAddr n elem
    match d.hub.busWaits.find? (fun w => w.rq == rq && w.addr == a && w.write == write) with
    | some w =>
      if elapsed (d.slate - w.since) 2000 then
        (((d.busFree rq a write).seLog n 0x07 .error [elem.toNat, elem.toNat / 256, write.toNat, 0]).err).lateAnswer rq write a
      else d
    | none => d)

/-- A read of a register with read-clear fields; `counted`: the counts made in the same cycle. -/
def execReadClear (rq : Requester) (addr counted : Word) (width : AccWidth) (s : State) : Out :=
  s.busAct (fun d => d.busRead false rq addr.toNat { BusEnv.clean with width := width, counted := counted })

end Sys2Proof.Machine
end

