-- ==== Sys2Proof/Machine/Debug.lean ====
section
/-! DEFINITION. The JTAG port, the debug bus master and the debugging of the supervisor core (16_debug_and_monitor,
R356 to R364). -/
namespace Sys2Proof.Machine
open Reg

/-! ## The TAP (R356, R357) -/

/-- A command of the TAP, which lies in P0 and runs from TCK: it acts while the device is powered, a held reset or not. -/
def State.tap (s : State) (f : Dev → Dev) : Out := s.apply (fun d => if d.gaf.good then f d else d)

/-- The codes of Table DBG-1. -/
def tapEXTEST : Nat := 0x00
def tapIDCODE : Nat := 0x01
def tapSAMPLE : Nat := 0x02
def tapDBG : Nat := 0x10

/-- Is the code one of Table DBG-1 other than BYPASS? -/
def tapListed (c : Nat) : Bool := c == tapEXTEST || c == tapIDCODE || c == tapSAMPLE || c == tapDBG

/-- An instruction becomes current: EXTEST gives the covered pins to the boundary register, and any other returns them
at the next Slate tick. -/
def Dev.tapLoad (d : Dev) (code : Nat) : Dev :=
  let b := d.sup.dbg
  if code = tapEXTEST then d.setDbg { b with ir := code, pins := true, pinsEnd := false }
  else d.setDbg { b with ir := code, pinsEnd := b.pins }

/-- Capture-DR loads a register of `w` bits, which is shifted out. -/
def Dev.tapShift (d : Dev) (w v : Nat) : Dev := (d.setDbg { d.sup.dbg with dr := v }).out (.tdo w v)

/-- A scan of the boundary register: `sample` is captured and `cells` are taken at Update-DR. -/
def Dev.tapBoundary (d : Dev) (cells sample : List Bool) : Dev :=
  let v := sample.foldr (fun b n => b.toNat + 2 * n) 0
  let d := d.tapShift sample.length v
  d.setDbg { d.sup.dbg with boundary := cells }

def execTapReset (s : State) : Out := s.tap (fun d => d.tapLoad tapIDCODE)

def execExtest (cells sample : List Bool) (s : State) : Out :=
  s.tap (fun d => ((d.tapLoad tapEXTEST).tapBoundary cells sample).out (.boundaryPins cells))

def execIdcode (s : State) : Out := s.tap (fun d => (d.tapLoad tapIDCODE).tapShift 32 0x0E29A0D3)

def execSamplePreload (cells sample : List Bool) (s : State) : Out :=
  s.tap (fun d => (d.tapLoad tapSAMPLE).tapBoundary cells sample)

/-- BYPASS by its own or an unlisted code; a listed code is another instruction's. -/
def execBypass (code : Byte) (s : State) : Out :=
  s.tap (fun d => if tapListed code.toNat then d else (d.tapLoad code.toNat).tapShift 1 0)

/-- What Capture-DR loads into the DBG_ACC register (Table DBG-2). -/
def Dev.dbgCapture (d : Dev) : Nat :=
  let b := d.sup.dbg
  b.busy.isSome.toNat + b.status * 2 ^ 3 + b.data.toNat * 2 ^ 35

def execDbgAcc (s : State) : Out := s.tap (fun d => let d := d.tapLoad tapDBG; d.tapShift 67 d.dbgCapture)

/-! ## Debug operations (R358 to R360) -/

/-- An operation refused or discarded: MON 0x04. -/
def Dev.dbgRefused (d : Dev) (op st : Nat) : Dev := d.monLog 0x04 .warn [op, st, 0, 0, 0]

/-- A scan of DBG_ACC with an operation: the last one's state is captured, then the new one is issued; while that is
BUSY it is discarded. A NOP issues nothing. -/
def Dev.dbgOp (d : Dev) (op : Nat) (f : Dev → Dev) : Dev :=
  if d.sup.dbg.ir ≠ tapDBG then d
  else
    let d := d.tapShift 67 d.dbgCapture
    if op = 0 then d
    else if d.sup.dbg.busy.isSome then d.dbgRefused op stFULL
    else f d

def execDebugNop (s : State) : Out := s.act (fun d => d.dbgOp 0 id)

def execDebugRead (addr : Word) (env : BusEnv) (s : State) : Out :=
  s.act (fun d => d.dbgOp 1 (fun d => (d.busRead false .debug addr.toNat env).dbgTake 1))

def execDebugWrite (addr v : Word) (env : BusEnv) (s : State) : Out :=
  let f := fun (d : Dev) => d.dbgOp 2 (fun d => (d.busPut .debug addr.toNat v env).dbgTake 2)
  if timedReg addr.toNat then s.timed f else s.act f

def execPeek (addr : Word) (env : BusEnv) (s : State) : Out :=
  s.act (fun d => d.dbgOp 3 (fun d => (d.busRead true .debug addr.toNat env).dbgTake 3))

/-! ## The core halted (R361, R362) -/

/-- Is there a core to debug: P1 powered, and no drop of it emulated? -/
def Dev.coreThere (d : Dev) : Bool := d.p1On && !SMap.at false d.gaf.emu 1

/-- The core is HALTED: MON 0x02, and the watchdog's count freezes (R348). A wait for an event ends with the halt. -/
def Dev.coreHalted (d : Dev) (reason : Nat) (pc : Word) : Dev :=
  let d := if d.sup.core.sleep = 0 then d else d.coreAwake
  let d := d.setCore { d.sup.core with state := cHALTED, reason := reason, pc := pc }
  (d.monLog 0x02 .info (reason :: wordDetail pc)).wdgHalt

/-- A halt is requested, by software or by a breakpoint; with a reservation held it is deferred. -/
def Dev.coreHalt (d : Dev) (reason : Nat) (pc : Word) (resv : Bool) : Dev :=
  let c := d.sup.core
  if !d.coreThere then d
  else if c.state = cSTOPPED then d.coreHalted reason pc
  else if c.state ≠ cRUN then d
  else if resv then d.setCore { c with state := cHALTING, reason := reason, resv := true, haltAt := d.slate }
  else (d.setCore { c with resv := false }).coreHalted reason pc

/-- A deferred halt ends. `stored`: the store-conditional has executed; else 256 D4 cycles have gone by. -/
def execReservationBreak (stored : Bool) (pc : Word) (s : State) : Out :=
  s.act (fun d =>
    let c := d.sup.core
    if !d.coreThere || c.state != cHALTING then d
    else if stored then (d.setCore { c with resv := false }).coreHalted c.reason pc
    else if elapsed (d.slate - c.haltAt) 427 then
      ((d.setCore { c with resv := false, rsvBroken := true }).monLog 0x03 .warn (wordDetail pc ++ [0])).coreHalted c.reason pc
    else d)

/-- Does an enabled breakpoint hold the address? -/
def Dev.breaksAt (d : Dev) (pc : Word) : Bool :=
  (List.range 4).any (fun k =>
    let b := SMap.at 0 d.sup.dbg.bp k
    b.getLsbD 0 && b.toNat / 4 == pc.toNat / 4)

/-- The core fetches `pc`. -/
def execBreakpointHit (pc : Word) (resv : Bool) (s : State) : Out :=
  s.act (fun d => if d.coreRuns && d.breaksAt pc then d.coreHalt 1 pc resv else d)

/-- RESUME. -/
def Dev.coreResume (d : Dev) : Dev :=
  if !d.coreThere || d.sup.core.state != cHALTED then d
  else (d.setCore { d.sup.core with state := cRUN }).wdgRelease

/-! ## Instructions fed and stepped (R361, R363) -/

/-- What an instruction comes to: a trap it takes or would take, and the target of a branch. -/
structure InstrEnd where
  trap   : Option (TrapCause × Word)
  branch : Option Word
  deriving DecidableEq, Repr

def InstrEnd.plain : InstrEnd := { trap := none, branch := none }

/-- The end of a load or store at `addr`: an error response is LOAD_ERR. -/
def Dev.memEnd (d : Dev) (addr : Word) : InstrEnd :=
  if respStatus d.resp = stACCESS then { InstrEnd.plain with trap := some (.loadErr, addr) } else InstrEnd.plain

/-- The effect of one instruction on the device. What it does to the core's general registers is not in State. -/
def Dev.runInstr (d : Dev) (eff : CoreEffect) (e : BusEnv) : InstrEnd × Dev :=
  let c := d.sup.core
  match eff with
  | .plain => (InstrEnd.plain, d)
  | .load a => let d := d.busRead false .supervisor a.toNat e; (d.memEnd a, d)
  | .store a v => let d := d.busPut .supervisor a.toNat v e; (d.memEnd a, d)
  | .branch t => ({ InstrEnd.plain with branch := some t }, d)
  | .moveToDebug v => (InstrEnd.plain, d.setCore { c with ddata := v })
  | .moveFromDebug => (InstrEnd.plain, d)
  | .loadReserved a =>
    let d := (d.busRead false .supervisor a.toNat e)
    (d.memEnd a, d.setCore { d.sup.core with resv := true })
  | .storeConditional a v =>
    if c.resv then
      let d := (d.setCore { c with resv := false }).busPut .supervisor a.toNat v e
      (d.memEnd a, d)
    else (InstrEnd.plain, d)
  | .trap cause a => ({ InstrEnd.plain with trap := some (cause, a) }, d)
  | .eventEnable b => (InstrEnd.plain, d.setCore { c with evtEn := b })
  | .nmiReturn => (InstrEnd.plain, d.setCore { c with inNmi := false })
  | .waitForEvent => (InstrEnd.plain, d.waitForEvent.coreAwake)

/-- STEP: one instruction, then HALTED again with REASON 2; a trap enters its vector and halts there, and a double trap
stops the core. -/
def Dev.coreStep (d : Dev) (e : CoreEnv) : Dev :=
  if !d.coreThere || d.sup.core.state != cHALTED then d
  else
    let (r, d) := d.runInstr e.eff e.bus
    match r.trap with
    | some (cause, a) =>
      let d := d.coreTrap cause a
      if d.sup.core.state = cSTOPPED then d else d.coreHalted 2 d.sup.core.pc
    | none => d.coreHalted 2 (r.branch.getD e.pc)

/-- FEED: one instruction on the HALTED core, without a trap. -/
def Dev.feed (d : Dev) (e : CoreEnv) : Dev :=
  if !d.coreThere || d.sup.core.state != cHALTED then (d.dbgEnd 6 stACCESS 0).dbgRefused 6 stACCESS
  else
    let (r, d) := d.runInstr e.eff e.bus
    let d := match r.trap with | some (cause, _) => d.feedTrap (causeCode cause) | none => d
    let d := match r.branch with | some t => d.setCore { d.sup.core with pc := t } | none => d
    let waits : Bool := match e.eff with
      | .load _ | .store _ _ | .loadReserved _ => d.resp == .none
      | _ => false
    if waits then d.setDbg { d.sup.dbg with busy := some 6 } else d.dbgEnd 6 stDONE 0

def execFeed (_v : Word) (env : CoreEnv) (s : State) : Out := s.act (fun d => d.dbgOp 6 (fun d => d.feed env))

/-! ## The core debug registers (Table DBG-3, R364) -/

/-- ATTACH changes: the debugger's votes on P1 and P2, and the end of what it emulates. -/
def Dev.attachSet (d : Dev) (b : Bool) : Dev :=
  if d.sup.dbg.attach = b then d
  else
    let vote := fun (d : Dev) (p : Nat) =>
      if b then d.vote 1 p true
      else if SMap.at false d.gaf.emu p then
        let d := d.wf (GAF_DOMd_STAT_STATE p) dON
        (d.setGaf { d.gaf with emu := SMap.set false d.gaf.emu p false }).vote 1 p false
      else d.vote 1 p false
    let d := d.setDbg { d.sup.dbg with attach := b }
    let c := d.sup.core
    let d := if !b && c.emuSleep then
        let d := d.setCore { c with emuSleep := false }
        if c.sleep = 2 then d.setGaf { d.gaf with d4Stop := true } else d
      else d
    (vote (vote d 1) 2).monLog 0x01 .note [b.toNat, 0, 0, 0, 0]

/-- A write of DBG_CORE_CTL: its actions in the order of their bits. -/
def Dev.coreCtlWrite (d : Dev) (v : Word) (e : CoreEnv) : Dev :=
  let d := if v.getLsbD 0 then d.coreHalt 0 e.pc e.resv else d
  let d := if v.getLsbD 1 then d.coreResume else d
  let d := if v.getLsbD 2 then d.coreStep e else d
  d.attachSet (v.getLsbD 3)

/-- DBG_CORE_STAT. -/
def Core.statWord (c : Core) : Word :=
  BitVec.ofNat 32 (c.state + c.reason * 2 ^ 2 + c.rsvBroken.toNat * 2 ^ 4 + c.feedErr.toNat * 2 ^ 5 + c.feedCause * 2 ^ 6
    + c.emuSleep.toNat * 2 ^ 10)

/-- The word of a core debug register. -/
def Dev.coreReg (d : Dev) (i : Nat) : Word :=
  if i = 0 then BitVec.ofNat 32 (d.sup.dbg.attach.toNat * 8)
  else if i = 1 then d.sup.core.statWord
  else if i = 2 then d.sup.core.pc
  else if i = 3 then d.sup.core.ddata
  else SMap.at 0 d.sup.dbg.bp (i - 4)

/-- Is there no register at the index: none of R361, or one of the core's with P1 off? -/
def Dev.coreRegBad (d : Dev) (a : Word) : Bool :=
  decide (8 ≤ a.toNat) || (decide (1 ≤ a.toNat) && decide (a.toNat ≤ 3) && !d.p1On)

def Dev.coreRead (d : Dev) (a : Word) : Dev :=
  if d.coreRegBad a then d.dbgEnd 4 stACCESS 0 else d.dbgEnd 4 stDONE (d.coreReg a.toNat)

def Dev.coreWrite (d : Dev) (a v : Word) (e : CoreEnv) : Dev :=
  let i := a.toNat
  let c := d.sup.core
  if d.coreRegBad a then d.dbgEnd 5 stACCESS 0
  else if i = 0 then (d.coreCtlWrite v e).dbgEnd 5 stDONE 0
  else if i = 1 then
    (d.setCore { c with rsvBroken := c.rsvBroken && !v.getLsbD 4, feedErr := c.feedErr && !v.getLsbD 5 }).dbgEnd 5 stDONE 0
  else if i = 2 then
    if c.state = cHALTED then (d.setCore { c with pc := v }).dbgEnd 5 stDONE 0
    else (d.dbgEnd 5 stACCESS 0).dbgRefused 5 stACCESS
  else if i = 3 then (d.setCore { c with ddata := v }).dbgEnd 5 stDONE 0
  else (d.setDbg { d.sup.dbg with bp := SMap.set 0 d.sup.dbg.bp (i - 4) (v &&& 0xFFFFFFFD) }).dbgEnd 5 stDONE 0

def execCoreRd (addr : Word) (s : State) : Out := s.act (fun d => d.dbgOp 4 (fun d => d.coreRead addr))

def execCoreWr (addr v : Word) (env : CoreEnv) (s : State) : Out := s.act (fun d => d.dbgOp 5 (fun d => d.coreWrite addr v env))

/-- A CORE_WR of DBG_CORE_CTL. -/
def State.coreCtl (s : State) (v : Word) (e : CoreEnv) : Out := s.act (fun d => d.dbgOp 5 (fun d => d.coreWrite 0 v e))

def execCoreHalt (v : Word) (env : CoreEnv) (s : State) : Out := s.coreCtl (v ||| 1) env
def execCoreResume (v : Word) (env : CoreEnv) (s : State) : Out := s.coreCtl (v ||| 2) env
def execCoreStep (v : Word) (env : CoreEnv) (s : State) : Out := s.coreCtl (v ||| 4) env
def execDebugAttach (v : Word) (env : CoreEnv) (s : State) : Out := s.coreCtl v env

end Sys2Proof.Machine
end

