-- ==== Sys2Proof/Machine/Release.lean ====
section
/-! DEFINITION. The release of a full image (13_configuration_store_and_loading, R307). It stands apart from the loader
because its REGS pairs are writes of the control bus. -/
namespace Sys2Proof.Machine
open Reg

/-- The engine groups whose programs, coefficients or scratchpads the image wrote. -/
def Image.groups (im : Image) : List Nat :=
  (im.mems.filter (fun m => 2 ≤ m.1 && m.1 ≤ 4)).map (fun m => (m.2.1 * 32 + m.2.2) / 16)

/-- REGS pairs written in order; none where a write was answered with an error, with the device that the writes so far
have left. -/
def Dev.applyPairs (d : Dev) : List (Word × Word) → Bool × Dev
  | [] => (true, d)
  | p :: ps =>
    let d := d.access p.1.toNat (fun d => d.regWrite p.1.toNat p.2 BusEnv.clean)
    if d.resp = .error then (false, d) else d.applyPairs ps

/-- A defined region at release: named and powered, it takes its frames; named and off, it stays OFF; any other stays
isolated and unloaded. -/
def Dev.releaseRegion (d : Dev) (im : Image) (named : List Nat) (r : Nat) : Dev :=
  if named.contains r && d.regionPowered r then d.loadRegion r im.golds (im.repairSrc false) else d.unloadRegion r

/-- CFG_IMG and CFG_IMG_SRC record the image. -/
def Dev.imageRecord (d : Dev) (im : Image) (h : List Byte) : Dev :=
  let d := (d.wf CFG_IMG_BUILD (hdrBuild h)).wf CFG_IMG_SRC_SRC im.src
  let d := (d.wf CFG_IMG_SRC_SLOT (if im.src = 0 ∨ im.src = 2 then im.slot else 0)).wf CFG_IMG_SRC_TARGET (hdrTarget h)
  d.on CFG_IMG_SRC_VALID

/-- The image whose trailer has passed is released. -/
def Dev.imageRelease (d : Dev) (im : Image) (h : List Byte) : Dev :=
  let held := d.cfg.groupHeld
  let resp := d.resp
  let d := d.setCfg { d.cfg with groupHeld := SMap.clear (fun g => im.groups.contains g) held }
  let (ok, d) := d.applyPairs im.pairs
  let d := { d with resp := resp }
  if !ok then (d.setCfg { d.cfg with groupHeld := held }).loadFail stACCESS im.pos
  else
    let d := d.definedRegions.foldl (fun d r => d.releaseRegion im (hdrRegions h) r) d
    let d := ((d.setCfg { d.cfg with load := none, ioOn := true, doneHigh := true }).gpioFollow d).nvsUnhold 0
    let d := { d with csh := { d.csh with loadHeld := [] } }
    let d := (((d.wf CFG_STAT_STATE gDONE).wf CFG_STAT_STATUS stDONE).on CFG_STAT_DONE).wf CFG_STAT_SPACE bufWords
    let d := d.imageRecord im h
    let b := hdrBuild h
    let d : Dev := d.cfgLog 0x01 .info [im.src, im.slot, b, b / 2 ^ 8, b / 2 ^ 16]
    if d.sup.boot.phase == 2 || d.sup.boot.phase == 4 then d.setBoot { d.sup.boot with phase := 3 } else d

/-- On a tick after that on which the trailer passed (R307). -/
def execImageRelease (s : State) : Out :=
  s.act (fun d =>
    match d.cfg.load with
    | some im =>
      match im.header with
      | some h => if d.cfgState = gVERIFY ∧ im.idle < d.slate then d.imageRelease im h else d
      | none => d
    | none => d)

end Sys2Proof.Machine
end

