-- ==== Sys2Proof/Machine/Tamop.lean ====
section
/-! DEFINITION. The Tamop monitor's commands (16_debug_and_monitor, R367, Tables MON-1 and MON-2). A command's line and
its reply are given typed: the numbers the reply prints, the error code, and the status of "er 05". -/
namespace Sys2Proof.Machine
open Reg

/-- Tamop takes a command: it runs and has answered the last one. -/
def Dev.tamopDo (d : Dev) (f : Dev → Dev) : Dev := if d.tamopUp && d.sup.uart.wait == .none then f d else d

/-- A command's accesses to the block of register `a`: "er 04" where they meet an error response. -/
def Dev.tamopAt (d : Dev) (a : Nat) (f : Dev → Dev) : Dev :=
  match d.barred a with
  | some d' => d'.tamopError
  | none => f d.ok

def Dev.tamopWaits (d : Dev) (w : TamopWait) : Dev := d.setUart { d.sup.uart with wait := w }

/-! ## Words -/

def execTamopPk (addr : Word) (env : BusEnv) (s : State) : Out :=
  s.act (fun d => d.tamopDo (fun d => (d.busRead true .supervisor addr.toNat env).tamopTake false))

def execTamopRd (addr : Word) (env : BusEnv) (s : State) : Out :=
  s.act (fun d => d.tamopDo (fun d => (d.busRead false .supervisor addr.toNat env).tamopTake false))

def execTamopWr (addr v : Word) (env : BusEnv) (s : State) : Out :=
  let f := fun (d : Dev) => d.tamopDo (fun d => (d.busPut .supervisor addr.toNat v env).tamopTake true)
  if timedReg addr.toNat then s.timed f else s.act f

/-! ## Reels (R292, R302) -/

/-- What is printed of a slot: BUILD and TARGET of its header, or "empty" (no values). -/
def Dev.slotPrint (d : Dev) (slot : Nat) : List Nat :=
  let h := d.storeBytes (slot * 0x0A000000) 256
  if headerFormed h then [1, hdrBuild h, hdrTarget h] else [0]

/-- The headers of the four slots are read; a page that cannot be is an error response. -/
def Dev.reelRead (d : Dev) (pages : List PageErr) : Option Nat × Dev :=
  (List.range 4).foldl (fun (acc : Option Nat × Dev) k =>
    match acc with
    | (some st, d) => (some st, d)
    | (none, d) =>
      if d.rangeBusy (k * 0x0A000000) 256 then (some stACCESS, d) else d.pagesRead (k * 0x0A000000) 256 pages) (none, d)

def execTamopReel (pages : List PageErr) (s : State) : Out :=
  s.act (fun d => d.tamopDo (fun d => d.tamopAt NVS_BOOT_STAT (fun d =>
    let (bad, d) := d.reelRead pages
    match bad with
    | some _ => d.tamopError
    | none => d.tamopReply ([d.rf NVS_BOOT_STAT_CUR, d.rf NVS_BOOT_STAT_PREV, d.rf NVS_BOOT_STAT_SEQ, d.rf NVS_BOOT_STAT_VALID]
        ++ (List.range 4).flatMap d.slotPrint) 0)))

/-- NVS_BOOT is written and OP 2 started; Tamop answers at the operation's end. -/
def execTamopReelBoot (cur prev : Fin 4) (s : State) : Out :=
  s.act (fun d => d.tamopDo (fun d => d.tamopAt NVS_CMD (fun d =>
    let d := (d.wf NVS_BOOT_CUR cur).wf NVS_BOOT_PREV prev
    let busy : Bool := d.nstate != nIDLE
    let d := d.nvsCmdWrite (fieldSet 4 2 2 1)
    if busy then d.tamopReply [] (d.rf NVS_STAT_STATUS) else d.tamopWaits .boot)))

/-- START from the store; Tamop answers with the loader's final status. -/
def execTamopReelLoad (slot : Fin 4) (s : State) : Out :=
  s.act (fun d => d.tamopDo (fun d => d.tamopAt CFG_CTL (fun d =>
    let busy := d.loadBusy
    let d := d.cfgCtlWrite (fieldSet CFG_CTL_SLOT.lo CFG_CTL_SLOT.w slot 1)
    if busy then d.tamopReply [] stFULL else d.tamopWaits .load)))

/-! ## Cuts and Splices -/

/-- A line of `cut`. -/
def Dev.cutPrint (d : Dev) (i : Nat) : List Nat :=
  let c := d.cut i
  if c.state = .free then [] else [i, c.kind, c.target, c.state.code, c.status, c.tick]

def execTamopCut (s : State) : Out :=
  s.act (fun d => d.tamopDo (fun d => d.tamopReply ((List.range 32).flatMap d.cutPrint) 0))

/-- The lowest slot that is FREE and not reserved is selected, written and armed. -/
def Dev.tamopArm (d : Dev) (port tick : Nat) : Dev :=
  match (List.range 32).find? (fun i => (d.cut i).state == .free && !(d.cut i).reserved) with
  | none => d.tamopReply [] stFULL
  | some i =>
    let d := d.wf SLT_CUT_SEL_SLOT i
    let d := d.setCut i { (d.cut i) with tick := tick, target := port, reserved := true }
    let (st, d) := d.userArm i port tick
    d.tamopReply (if st = 0 then [i] else []) st

def execTamopCutUser (port : BitVec 16) (tick : BitVec 64) (s : State) : Out :=
  s.timed (fun d => d.tamopDo (fun d => d.tamopArm port.toNat tick.toNat))

/-- SPL_SRC and SPL_CUT_TICK are written and START given from the store; Tamop answers with the final status. -/
def execTamopCutSplice (ofs : Word) (tick : BitVec 64) (s : State) : Out :=
  s.act (fun d => d.tamopDo (fun d => d.tamopAt SPL_CTL (fun d =>
    let d := (d.plainWrite SPL_SRC ofs).wr64 SPL_CUT_TICK_LO SPL_CUT_TICK_HI tick.toNat
    let busy := d.spliceBusy
    let d := d.splCtlWrite (fieldSet SPL_CTL_SRC.lo 1 0 (d.rd SPL_CTL &&& 0xFFFFFFF8) ||| 1)
    if busy then d.tamopReply [] stFULL
    else if d.spliceBusy then d.tamopWaits .splice
    else d.tamopReply [d.rf SPL_STAT_STATUS] (d.rf SPL_STAT_STATUS))))

/-! ## The Dailies ring (R46) -/

/-- A record as `dl` prints it: tick, block, code, severity and the five detail bytes. -/
def recordPrint (r : BitVec 128) : List Nat :=
  let n := r.toNat
  [n % 2 ^ 64, n / 2 ^ 64 % 256, n / 2 ^ 72 % 256, n / 2 ^ 80 % 256, n / 2 ^ 88 % 256, n / 2 ^ 96 % 256, n / 2 ^ 104 % 256,
   n / 2 ^ 112 % 256, n / 2 ^ 120 % 256]

/-- Up to `n` oldest records; 16 where `n` is not given. -/
def execTamopDl (n : Option (BitVec 12)) (s : State) : Out :=
  s.act (fun d => d.tamopDo (fun d =>
    let k := min (match n with | some x => x.toNat | none => 16) (d.rf DLY_STAT_COUNT)
    d.tamopReply ((List.range k).flatMap (fun i =>
      recordPrint (SMap.at 0 d.hub.dailies ((d.rf DLY_TAIL_TAIL + i) % 2048)))) 0))

/-- DLY_TAIL advances by `n`; nothing is written for 0, and more than 2,048 is a bad argument. -/
def execTamopDlFree (n : BitVec 12) (s : State) : Out :=
  s.act (fun d => d.tamopDo (fun d =>
    if 2048 < n.toNat then (d.monLog 0x06 .note [2, 0, 0, 0, 0]).out (.tamop [] 2 0)
    else
      let d := if n = 0 then d else d.dlyTailWrite (BitVec.ofNat 32 ((d.rf DLY_TAIL_TAIL + n.toNat) % 2048))
      d.tamopReply [] 0))

/-! ## Status -/

def execTamopLane (l : Fin 512) (s : State) : Out :=
  s.act (fun d => d.tamopDo (fun d => d.tamopAt (LNQ_Li_STAT l) (fun d =>
    d.tamopReply [d.rf (LNQ_Li_PWR_TX_STATE l), d.rf (LNQ_Li_PWR_RX_STATE l), d.rf (LNQ_Li_STAT_PHASE l), d.rf (LNQ_Li_EYE_SCORE l),
      d.rf (LNQ_Li_EYE_V l), d.rf (LNQ_Li_EYE_H l), d.rf (LNQ_Li_EYE_CTLE l), d.rf (LNQ_Li_STAT_BLK_LOCK l),
      d.rf (LNQ_Li_STAT_HI_BER l)] 0)))

/-- The time of day is printed as its seconds and its fraction in 1/65,536 ns. -/
def execTamopTime (s : State) : Out :=
  s.act (fun d => d.tamopDo (fun d => d.tamopAt CTY_STAT (fun d =>
    d.tamopReply [d.slate, d.rf CTY_STAT_STATE, d.rf CTY_TE_EST_TE, d.rf CTY_TE_BOUND_BOUND, d.timeOfDay / 2 ^ 48,
      d.timeOfDay % 2 ^ 48] 0)))

def execTamopVote (p : Fin 30) (s : State) : Out :=
  s.act (fun d => d.tamopDo (fun d =>
    d.tamopReply ((List.range 8).map (fun c => (d.rf (GAF_DOMd_STAT_VOTES p) / 2 ^ c) % 2) ++ [d.domState p]) 0))

/-- GAF_SVOTE with one bit changed. -/
def Dev.tamopVote (d : Dev) (p : Nat) (b : Bool) : Dev :=
  (d.svoteWrite (fieldSet p 1 b.toNat (d.rd GAF_SVOTE))).tamopReply [] 0

def execTamopVoteOn (p : Fin 30) (s : State) : Out := s.act (fun d => d.tamopDo (fun d => d.tamopVote p true))
def execTamopVoteOff (p : Fin 30) (s : State) : Out := s.act (fun d => d.tamopDo (fun d => d.tamopVote p false))

/-- The new rate holds from the next line: the reply leaves at the old one. -/
def execTamopBaud (code : Fin 7) (s : State) : Out :=
  s.act (fun d => d.tamopDo (fun d =>
    let d := (d.tamopReply [] 0).wf MON_CFG_BAUD code
    d.setUart { d.sup.uart with baudSet := true }))

/-- The code of Table MON-2. -/
def tamopErrCode : TamopErr → Nat
  | .unknown => 1 | .argument => 2 | .length => 3

def execTamopUnknownCommand (err : TamopErr) (s : State) : Out :=
  s.act (fun d => d.tamopDo (fun d =>
    (d.monLog 0x06 .note [tamopErrCode err, 0, 0, 0, 0]).out (.tamop [] (tamopErrCode err) 0)))

end Sys2Proof.Machine
end

