-- ==== Sys2Proof/Machine/Twi.lean ====
section
/-! DEFINITION. The two-wire target port (15_supervisor_and_events, R349, R350, Table TWI-2): the host's accesses. -/
namespace Sys2Proof.Machine
open Reg

def Dev.setTwi (d : Dev) (t : Twi) : Dev := d.setSup { d.sup with twi := t }

/-- Is the control bus available to the port: P1 powered, D4 running and the block's clock enabled? -/
def Dev.twiBus (d : Dev) : Bool := d.p1On && !d.gaf.d4Stop && d.clocked TWI_CFG

/-- Does the port wait for the answer to an access of the host? -/
def Dev.twiWaits (d : Dev) : Bool :=
  [0, 1].any (fun die => match SMap.at none d.hub.userWin die with | some w => w.rq == .host | none => false) ||
  d.hub.busWaits.any (fun w => w.rq == .host) ||
  d.hub.lost.any (fun u => match u.load with | .access rq _ _ => rq == .host | _ => false)

/-- The host addresses a target: a match wakes P1 and D4, and stretches the clock while the bus is not available. -/
def Dev.twiMatch (d : Dev) (addr : BitVec 7) : Dev :=
  if !d.bit TWI_CFG_EN || d.rf TWI_CFG_ADDR != addr.toNat then d.out (.twiAck false)
  else
    let d := d.wake .twi
    if d.twiBus then d.out (.twiAck true) else d.setTwi { d.sup.twi with stretch := some d.slate }

def execTwiAddressMatch (addr : BitVec 7) (s : State) : Out := s.act (fun d => d.twiMatch addr)

/-- 1 ms of stretching without a control bus. -/
def execTwiWakeTimeout (s : State) : Out :=
  s.act (fun d =>
    match d.sup.twi.stretch with
    | some t =>
      if d.twiBus then (d.setTwi { d.sup.twi with stretch := none }).out (.twiAck true)
      else if elapsed (d.slate - t) 1000000 then
        ((d.setTwi { d.sup.twi with stretch := none, nak := true }).out .twiRelease).twiLog 0x05 .warn [0, 0, 0, 0, 0]
      else d
    | none => d)

/-- A transaction goes on past the address: it is taken where the port is enabled, has the bus and waits for no answer;
after a wake timeout its next byte is not acknowledged. -/
def Dev.twiTaken (d : Dev) (f : Dev → Dev) : Dev :=
  if !d.bit TWI_CFG_EN then d
  else if d.sup.twi.nak then (d.setTwi { d.sup.twi with nak := false }).out (.twiAck false)
  else if !d.twiBus || d.twiWaits then d
  else f (d.setTwi { d.sup.twi with stretch := none })

/-- The bytes after ADDR+W: the access is issued after the eighth; a ninth is not acknowledged; fewer are malformed. -/
def Dev.twiWrite (d : Dev) (bytes : List Byte) (e : BusEnv) : Dev :=
  let n := bytes.length
  let a := leNat (bytes.take 4)
  if n < 8 then d.twiLog 0x02 .warn [n, 0, 0, 0, 0]
  else
    let d := (d.busPut .host a (BitVec.ofNat 32 (leNat (bytesAt bytes 4 4))) e).twiTake true a
    if n = 8 then d else (d.out (.twiAck false)).twiLog 0x02 .warn [n, 0, 0, 0, 0]

def execTwiWrite (bytes : List Byte) (env : BusEnv) (s : State) : Out :=
  let f := fun (d : Dev) => d.twiTaken (fun d => d.twiWrite bytes env)
  if 8 ≤ bytes.length ∧ timedReg (leNat (bytes.take 4)) then s.timed f else s.act f

def execTwiRead (addr : Word) (env : BusEnv) (s : State) : Out :=
  s.act (fun d => d.twiTaken (fun d => (d.busRead false .host addr.toNat env).twiTake false addr.toNat))

def execTwiStatusRead (s : State) : Out :=
  s.act (fun d => d.twiTaken (fun d => d.out (.twiBytes [BitVec.ofNat 8 d.sup.twi.last])))

/-- TWI_SCL has been low for `lowNs`: over 25 ms the port is released. -/
def execTwiSclTimeout (lowNs : Nat) (s : State) : Out :=
  s.act (fun d =>
    if lowNs ≤ 25000000 then d
    else ((d.setTwi { d.sup.twi with stretch := none, nak := false }).out .twiRelease).twiLog 0x03 .warn [0, 0, 0, 0, 0])

end Sys2Proof.Machine
end

