-- ==== Sys2Proof/Machine/Dispatch.lean ====
section
/-! DEFINITION. The meaning of every command: one arm per constructor of `Instr`, each one call. -/
namespace Sys2Proof.Machine

def exec (i : Instr) (s : State) : Host.Outcome State Fault Refusal :=
  match i with
  | .slateTick env => Sys2Proof.Machine.execSlateTick env s
  | .dlyTailWrite rq v => Sys2Proof.Machine.execDlyTailWrite rq v s
  | .registerWrite rq addr v width env => Sys2Proof.Machine.execRegisterWrite rq addr v width env s
  | .holdingLowWordRead rq addr width => Sys2Proof.Machine.execHoldingLowWordRead rq addr width s
  | .readClear rq addr counted width => Sys2Proof.Machine.execReadClear rq addr counted width s
  | .controlBusTimeout rq addr write => Sys2Proof.Machine.execControlBusTimeout rq addr write s
  | .hubCommand item => Sys2Proof.Machine.execHubCommand item s
  | .commandAck item => Sys2Proof.Machine.execCommandAck item s
  | .bridgeRequestTimeout die chan load => Sys2Proof.Machine.execBridgeRequestTimeout die chan load s
  | .agentReport item value => Sys2Proof.Machine.execAgentReport item value s
  | .bridgeTransfer die chan num toHub ecc load data => Sys2Proof.Machine.execBridgeTransfer die chan num toHub ecc load data s
  | .timeWireMeasurement die ps => Sys2Proof.Machine.execTimeWireMeasurement die ps s
  | .userWindowAccess rq die ofs write data attached ans => Sys2Proof.Machine.execUserWindowAccess rq die ofs write data attached ans s
  | .fabricPortTimeout die => Sys2Proof.Machine.execFabricPortTimeout die s
  | .userCutArm rq v => Sys2Proof.Machine.execUserCutArm rq v s
  | .cutSlotReserve rq which v => Sys2Proof.Machine.execCutSlotReserve rq which v s
  | .cutCancel rq v => Sys2Proof.Machine.execCutCancel rq v s
  | .cutSiteArm die port time => Sys2Proof.Machine.execCutSiteArm die port time s
  | .cutSiteAck die => Sys2Proof.Machine.execCutSiteAck die s
  | .cutConfirm slot => Sys2Proof.Machine.execCutConfirm slot s
  | .cutPrepare => Sys2Proof.Machine.execCutPrepare s
  | .cutExecute => Sys2Proof.Machine.execCutExecute s
  | .slateStep => Sys2Proof.Machine.execSlateStep s
  | .loopRun inp => Sys2Proof.Machine.execLoopRun inp s
  | .ptpOffsetWrite rq v => Sys2Proof.Machine.execPtpOffsetWrite rq v s
  | .ptpPhaseSample n => Sys2Proof.Machine.execPtpPhaseSample n s
  | .refSlotEnable rq n v => Sys2Proof.Machine.execRefSlotEnable rq n v s
  | .loFailure ppm forNs => Sys2Proof.Machine.execLoFailure ppm forNs s
  | .slotLos n cause => Sys2Proof.Machine.execSlotLos n cause s
  | .slotLossClear n => Sys2Proof.Machine.execSlotLossClear n s
  | .slotQualified n => Sys2Proof.Machine.execSlotQualified n s
  | .waitToRestore diffT diffF => Sys2Proof.Machine.execWaitToRestore diffT diffF s
  | .todSetWrite rq v => Sys2Proof.Machine.execTodSetWrite rq v s
  | .todStep => Sys2Proof.Machine.execTodStep s
  | .modelSample => Sys2Proof.Machine.execModelSample s
  | .modelRefit => Sys2Proof.Machine.execModelRefit s
  | .modelClear rq v => Sys2Proof.Machine.execModelClear rq v s
  | .modelFreeze rq v => Sys2Proof.Machine.execModelFreeze rq v s
  | .modelUnfreeze rq v => Sys2Proof.Machine.execModelUnfreeze rq v s
  | .modelParamWrite rq lo hi => Sys2Proof.Machine.execModelParamWrite rq lo hi s
  | .extSensorPoll ans => Sys2Proof.Machine.execExtSensorPoll ans s
  | .ppsOutEdge => Sys2Proof.Machine.execPpsOutEdge s
  | .sysrefPulse n => Sys2Proof.Machine.execSysrefPulse n s
  | .sysrefGappedStart rq n v => Sys2Proof.Machine.execSysrefGappedStart rq n v s
  | .temStart rq v => Sys2Proof.Machine.execTemStart rq v s
  | .temSample phases => Sys2Proof.Machine.execTemSample phases s
  | .ppsInEdge n widthNs subPs => Sys2Proof.Machine.execPpsInEdge n widthNs subPs s
  | .todRxByte b framing => Sys2Proof.Machine.execTodRxByte b framing s
  | .todrxRead rq => Sys2Proof.Machine.execTodrxRead rq s
  | .probeSelectWrite rq die n v => Sys2Proof.Machine.execProbeSelectWrite rq die n v s
  | .captureArm rq die v => Sys2Proof.Machine.execCaptureArm rq die v s
  | .captureSwtrig rq die v => Sys2Proof.Machine.execCaptureSwtrig rq die v s
  | .captureTrigger die cycle ins => Sys2Proof.Machine.execCaptureTrigger die cycle ins s
  | .captureDone die cycle ins => Sys2Proof.Machine.execCaptureDone die cycle ins s
  | .captureAbort rq die v => Sys2Proof.Machine.execCaptureAbort rq die v s
  | .tileRamAccess die ram shape portA portB => Sys2Proof.Machine.execTileRamAccess die ram shape portA portB s
  | .queuePush die ram shape data pops => Sys2Proof.Machine.execQueuePush die ram shape data pops s
  | .queuePop die ram shape oreg pushes => Sys2Proof.Machine.execQueuePop die ram shape oreg pushes s
  | .deepRamAccess die ram port => Sys2Proof.Machine.execDeepRamAccess die ram port s
  | .sliceOperation die n c mate => Sys2Proof.Machine.execSliceOperation die n c mate s
  | .marchStart rq eng v => Sys2Proof.Machine.execMarchStart rq eng v s
  | .marchWindowEnd eng errs reads => Sys2Proof.Machine.execMarchWindowEnd eng errs reads s
  | .marchDone eng errs reads => Sys2Proof.Machine.execMarchDone eng errs reads s
  | .marchAbort rq eng v reads => Sys2Proof.Machine.execMarchAbort rq eng v reads s
  | .seNop n => Sys2Proof.Machine.execSeNop n s
  | .seAdd n sd sa sb => Sys2Proof.Machine.execSeAdd n sd sa sb s
  | .seSub n sd sa sb => Sys2Proof.Machine.execSeSub n sd sa sb s
  | .seAnd n sd sa sb => Sys2Proof.Machine.execSeAnd n sd sa sb s
  | .seOr n sd sa sb => Sys2Proof.Machine.execSeOr n sd sa sb s
  | .seXor n sd sa sb => Sys2Proof.Machine.execSeXor n sd sa sb s
  | .seShl n sd sa sb => Sys2Proof.Machine.execSeShl n sd sa sb s
  | .seShr n sd sa sb => Sys2Proof.Machine.execSeShr n sd sa sb s
  | .seSar n sd sa sb => Sys2Proof.Machine.execSeSar n sd sa sb s
  | .seMul n sd sa sb => Sys2Proof.Machine.execSeMul n sd sa sb s
  | .seCmp n sa sb => Sys2Proof.Machine.execSeCmp n sa sb s
  | .seAddi n sd sa imm => Sys2Proof.Machine.execSeAddi n sd sa imm s
  | .seCmpi n sa imm => Sys2Proof.Machine.execSeCmpi n sa imm s
  | .seMovl n sd imm => Sys2Proof.Machine.execSeMovl n sd imm s
  | .seMovh n sd imm => Sys2Proof.Machine.execSeMovh n sd imm s
  | .seMtag n ag r sa => Sys2Proof.Machine.execSeMtag n ag r sa s
  | .seMfag n sd ag r => Sys2Proof.Machine.execSeMfag n sd ag r s
  | .seRdt n sd item => Sys2Proof.Machine.execSeRdt n sd item s
  | .seLdv n ag vd pm errs => Sys2Proof.Machine.execSeLdv n ag vd pm errs s
  | .seStv n ag vs pm => Sys2Proof.Machine.execSeStv n ag vs pm s
  | .seLdb n ag vd pm errs => Sys2Proof.Machine.execSeLdb n ag vd pm errs s
  | .seLdx n ag sd pm errs => Sys2Proof.Machine.execSeLdx n ag sd pm errs s
  | .seStx n ag sr pm => Sys2Proof.Machine.execSeStx n ag sr pm s
  | .seLdy n ag vd pm errs => Sys2Proof.Machine.execSeLdy n ag vd pm errs s
  | .seLdyb n ag vd pm errs => Sys2Proof.Machine.execSeLdyb n ag vd pm errs s
  | .seVmul n acc va vb conj => Sys2Proof.Machine.execSeVmul n acc va vb conj s
  | .seVmac n acc va vb conj => Sys2Proof.Machine.execSeVmac n acc va vb conj s
  | .seVmsb n acc va vb conj => Sys2Proof.Machine.execSeVmsb n acc va vb conj s
  | .seVadd n vd va vb sat sh => Sys2Proof.Machine.execSeVadd n vd va vb sat sh s
  | .seVsub n vd va vb sat sh => Sys2Proof.Machine.execSeVsub n vd va vb sat sh s
  | .seVmov n vd va => Sys2Proof.Machine.execSeVmov n vd va s
  | .seVcmul n vd va vb conj sat sh => Sys2Proof.Machine.execSeVcmul n vd va vb conj sat sh s
  | .seVbfly n vd va vb vc dist conj sat sh => Sys2Proof.Machine.execSeVbfly n vd va vb vc dist conj sat sh s
  | .seSldLo n vd => Sys2Proof.Machine.execSeSldLo n vd s
  | .seSldHi n vd => Sys2Proof.Machine.execSeSldHi n vd s
  | .seSstLo n va => Sys2Proof.Machine.execSeSstLo n va s
  | .seSstHi n va => Sys2Proof.Machine.execSeSstHi n va s
  | .seVnar n vd acc k => Sys2Proof.Machine.execSeVnar n vd acc k s
  | .seVnars n vd acc sk => Sys2Proof.Machine.execSeVnars n vd acc sk s
  | .seVexpl n vd acc => Sys2Proof.Machine.execSeVexpl n vd acc s
  | .seVexpb n sd acc => Sys2Proof.Machine.execSeVexpb n sd acc s
  | .seVnorm n vd va sk => Sys2Proof.Machine.execSeVnorm n vd va sk s
  | .seVsat n vd va k => Sys2Proof.Machine.execSeVsat n vd va k s
  | .seRep n len cnt => Sys2Proof.Machine.execSeRep n len cnt s
  | .seBr n ofs => Sys2Proof.Machine.execSeBr n ofs s
  | .seBrz n ofs => Sys2Proof.Machine.execSeBrz n ofs s
  | .seBrnz n ofs => Sys2Proof.Machine.execSeBrnz n ofs s
  | .seJmps n sr => Sys2Proof.Machine.execSeJmps n sr s
  | .seKick n => Sys2Proof.Machine.execSeKick n s
  | .seSend n => Sys2Proof.Machine.execSeSend n s
  | .seEvt n code => Sys2Proof.Machine.execSeEvt n code s
  | .seBrk n => Sys2Proof.Machine.execSeBrk n s
  | .seDone n => Sys2Proof.Machine.execSeDone n s
  | .engineHalt rq n v => Sys2Proof.Machine.execEngineHalt rq n v s
  | .engineHaltRelease rq n v => Sys2Proof.Machine.execEngineHaltRelease rq n v s
  | .engineStep rq n v env => Sys2Proof.Machine.execEngineStep rq n v env s
  | .engineResume rq n v => Sys2Proof.Machine.execEngineResume rq n v s
  | .streamSymbolIn n words => Sys2Proof.Machine.execStreamSymbolIn n words s
  | .scratchpadAccess rq n elem write data idle ecc => Sys2Proof.Machine.execScratchpadAccess rq n elem write data idle ecc s
  | .scratchpadAccessTimeout rq n elem write => Sys2Proof.Machine.execScratchpadAccessTimeout rq n elem write s
  | .engineRamExtWrite rq n ram word data => Sys2Proof.Machine.execEngineRamExtWrite rq n ram word data s
  | .dlmTailWrite rq n v => Sys2Proof.Machine.execDlmTailWrite rq n v s
  | .descriptorStart n assigned errs envs back => Sys2Proof.Machine.execDescriptorStart n assigned errs envs back s
  | .descriptorComplete n envs back => Sys2Proof.Machine.execDescriptorComplete n envs back s
  | .moverResume rq n v => Sys2Proof.Machine.execMoverResume rq n v s
  | .callSheetEntryWrite rq entry word v => Sys2Proof.Machine.execCallSheetEntryWrite rq entry word v s
  | .scheduleCutArm rq v => Sys2Proof.Machine.execScheduleCutArm rq v s
  | .scheduleCutCancel rq v => Sys2Proof.Machine.execScheduleCutCancel rq v s
  | .bankStagingCheckEnd ue => Sys2Proof.Machine.execBankStagingCheckEnd ue s
  | .periodBoundary => Sys2Proof.Machine.execPeriodBoundary s
  | .entryFetch ecc => Sys2Proof.Machine.execEntryFetch ecc s
  | .operationIssue n => Sys2Proof.Machine.execOperationIssue n s
  | .entrySkip n => Sys2Proof.Machine.execEntrySkip n s
  | .operationCompletion n => Sys2Proof.Machine.execOperationCompletion n s
  | .successorRelease ecc => Sys2Proof.Machine.execSuccessorRelease ecc s
  | .schedulerStop rq v => Sys2Proof.Machine.execSchedulerStop rq v s
  | .pllEnable rq q p v => Sys2Proof.Machine.execPllEnable rq q p v s
  | .pllDisable rq q p v => Sys2Proof.Machine.execPllDisable rq q p v s
  | .pllLock q p => Sys2Proof.Machine.execPllLock q p s
  | .pllUnlock q p => Sys2Proof.Machine.execPllUnlock q p s
  | .lanePowerRequest rq l v => Sys2Proof.Machine.execLanePowerRequest rq l v s
  | .laneRequestEffect l => Sys2Proof.Machine.execLaneRequestEffect l s
  | .laneTransitionDone l rx => Sys2Proof.Machine.execLaneTransitionDone l rx s
  | .cdrLock l => Sys2Proof.Machine.execCdrLock l s
  | .cdrLockLoss l sig => Sys2Proof.Machine.execCdrLockLoss l sig s
  | .acquireEnd l => Sys2Proof.Machine.execAcquireEnd l s
  | .eyeSweepEnd l counts eq => Sys2Proof.Machine.execEyeSweepEnd l counts eq s
  | .blockLock l => Sys2Proof.Machine.execBlockLock l s
  | .blockLockLoss l => Sys2Proof.Machine.execBlockLockLoss l s
  | .hberWindowEnd l => Sys2Proof.Machine.execHberWindowEnd l s
  | .txeqWrite rq l v => Sys2Proof.Machine.execTxeqWrite rq l v s
  | .txBlock l blk reads => Sys2Proof.Machine.execTxBlock l blk reads s
  | .rxBlock l blk eq reads => Sys2Proof.Machine.execRxBlock l blk eq reads s
  | .slip l => Sys2Proof.Machine.execSlip l s
  | .loopbackWrite rq l v => Sys2Proof.Machine.execLoopbackWrite rq l v s
  | .patternCheckerSync l => Sys2Proof.Machine.execPatternCheckerSync l s
  | .inj rq l v => Sys2Proof.Machine.execInj rq l v s
  | .macEnable rq m v => Sys2Proof.Machine.execMacEnable rq m v s
  | .rxFrame m part => Sys2Proof.Machine.execRxFrame m part s
  | .txFrame m port stamp => Sys2Proof.Machine.execTxFrame m port stamp s
  | .txTimestamp m => Sys2Proof.Machine.execTxTimestamp m s
  | .txtsTagRead rq m => Sys2Proof.Machine.execTxtsTagRead rq m s
  | .linkFaultChange m lf rf amLock fecLock fec => Sys2Proof.Machine.execLinkFaultChange m lf rf amLock fecLock fec s
  | .alignmentLoss m mask fec => Sys2Proof.Machine.execAlignmentLoss m mask fec s
  | .linkEnable rq j v => Sys2Proof.Machine.execLinkEnable rq j v s
  | .embLock j => Sys2Proof.Machine.execEmbLock j s
  | .lemcBoundary j => Sys2Proof.Machine.execLemcBoundary j s
  | .rxLinkWord j chunks => Sys2Proof.Machine.execRxLinkWord j chunks s
  | .embLockLoss j lane => Sys2Proof.Machine.execEmbLockLoss j lane s
  | .txLinkWord j word => Sys2Proof.Machine.execTxLinkWord j word s
  | .meshPortEnable rq p v => Sys2Proof.Machine.execMeshPortEnable rq p v s
  | .hello p h b => Sys2Proof.Machine.execHello p h b s
  | .delayExchangeStart p => Sys2Proof.Machine.execDelayExchangeStart p s
  | .delay p h roundTrip diff time => Sys2Proof.Machine.execDelay p h roundTrip diff time s
  | .linkUp p peer => Sys2Proof.Machine.execLinkUp p peer s
  | .ack p h => Sys2Proof.Machine.execAck p h s
  | .nak p h => Sys2Proof.Machine.execNak p h s
  | .replayTimeout p => Sys2Proof.Machine.execReplayTimeout p s
  | .holdEnd p => Sys2Proof.Machine.execHoldEnd p s
  | .credit p h vc units => Sys2Proof.Machine.execCredit p h vc units s
  | .settleExpiry => Sys2Proof.Machine.execSettleExpiry s
  | .map source m diff => Sys2Proof.Machine.execMap source m diff s
  | .beatSend => Sys2Proof.Machine.execBeatSend s
  | .beat p h k tick => Sys2Proof.Machine.execBeat p h k tick s
  | .rootLost => Sys2Proof.Machine.execRootLost s
  | .broadcastClapper rq v => Sys2Proof.Machine.execBroadcastClapper rq v s
  | .barrierClapper rq v => Sys2Proof.Machine.execBarrierClapper rq v s
  | .snapshotClapper rq v => Sys2Proof.Machine.execSnapshotClapper rq v s
  | .resetClapper rq v => Sys2Proof.Machine.execResetClapper rq v s
  | .cutClapper rq v => Sys2Proof.Machine.execCutClapper rq v s
  | .clapper p h b => Sys2Proof.Machine.execClapper p h b s
  | .clapperExecute => Sys2Proof.Machine.execClapperExecute s
  | .report p h r => Sys2Proof.Machine.execReport p h r s
  | .clapperOriginEnd => Sys2Proof.Machine.execClapperOriginEnd s
  | .clapperCancel rq v => Sys2Proof.Machine.execClapperCancel rq v s
  | .barrierArrive src => Sys2Proof.Machine.execBarrierArrive src s
  | .barrierTimeout bar => Sys2Proof.Machine.execBarrierTimeout bar s
  | .data p h sent bytes => Sys2Proof.Machine.execData p h sent bytes s
  | .dataDelivery => Sys2Proof.Machine.execDataDelivery s
  | .burstRequest n port addr write panic => Sys2Proof.Machine.execBurstRequest n port addr write panic s
  | .dramCommandSelect n sub ready => Sys2Proof.Machine.execDramCommandSelect n sub ready s
  | .refresh n rank => Sys2Proof.Machine.execRefresh n rank s
  | .refreshRateRead n hot => Sys2Proof.Machine.execRefreshRateRead n hot s
  | .refreshWindowEnd n => Sys2Proof.Machine.execRefreshWindowEnd n s
  | .dqsDriftRead n drifts => Sys2Proof.Machine.execDqsDriftRead n drifts s
  | .trainingStart rq n v => Sys2Proof.Machine.execTrainingStart rq n v s
  | .trainingEnd n fail => Sys2Proof.Machine.execTrainingEnd n fail s
  | .portsOpen rq n v => Sys2Proof.Machine.execPortsOpen rq n v s
  | .portsClose rq n v => Sys2Proof.Machine.execPortsClose rq n v s
  | .frequencyChangeRequest rq n v => Sys2Proof.Machine.execFrequencyChangeRequest rq n v s
  | .frequencyChangeStart n => Sys2Proof.Machine.execFrequencyChangeStart n s
  | .frequencyChangeDone n => Sys2Proof.Machine.execFrequencyChangeDone n s
  | .dramClockLoss n => Sys2Proof.Machine.execDramClockLoss n s
  | .dramRequestTimeout n => Sys2Proof.Machine.execDramRequestTimeout n s
  | .sectorRead port mover ofs len envs back => Sys2Proof.Machine.execSectorRead port mover ofs len envs back s
  | .sectorWrite port ofs bytes poison envs back => Sys2Proof.Machine.execSectorWrite port ofs bytes poison envs back s
  | .dramWindowAccess rq ofs write fetch env back => Sys2Proof.Machine.execDramWindowAccess rq ofs write fetch env back s
  | .chmaskWrite rq v => Sys2Proof.Machine.execChmaskWrite rq v s
  | .channelInitDone n => Sys2Proof.Machine.execChannelInitDone n s
  | .keyCutArm rq n v => Sys2Proof.Machine.execKeyCutArm rq n v s
  | .keyCutCancel rq n v => Sys2Proof.Machine.execKeyCutCancel rq n v s
  | .rotationRewrite n env back => Sys2Proof.Machine.execRotationRewrite n env back s
  | .retireEntryWrite rq n e v => Sys2Proof.Machine.execRetireEntryWrite rq n e v s
  | .nvsWindowRead rq w fetch bch => Sys2Proof.Machine.execNvsWindowRead rq w fetch bch s
  | .nvsProgram rq v => Sys2Proof.Machine.execNvsProgram rq v s
  | .nvsClear rq v => Sys2Proof.Machine.execNvsClear rq v s
  | .bootRecordWrite rq v => Sys2Proof.Machine.execBootRecordWrite rq v s
  | .nvsPulseEnd => Sys2Proof.Machine.execNvsPulseEnd s
  | .nvsSuspend rq v => Sys2Proof.Machine.execNvsSuspend rq v s
  | .nvsResume rq v => Sys2Proof.Machine.execNvsResume rq v s
  | .nvsBrownout => Sys2Proof.Machine.execNvsBrownout s
  | .headerScan => Sys2Proof.Machine.execHeaderScan s
  | .keyWrite rq v => Sys2Proof.Machine.execKeyWrite rq v s
  | .keyErase rq v => Sys2Proof.Machine.execKeyErase rq v s
  | .tamper lowNs => Sys2Proof.Machine.execTamper lowNs s
  | .vbatLoss lowNs => Sys2Proof.Machine.execVbatLoss lowNs s
  | .loadStart rq v => Sys2Proof.Machine.execLoadStart rq v s
  | .loadAbort rq v => Sys2Proof.Machine.execLoadAbort rq v s
  | .streamEnd rq v => Sys2Proof.Machine.execStreamEnd rq v s
  | .cfgDataWrite rq v drained => Sys2Proof.Machine.execCfgDataWrite rq v drained s
  | .loadPortPacket hdr words => Sys2Proof.Machine.execLoadPortPacket hdr words s
  | .neighbourLoadRequest p h slot => Sys2Proof.Machine.execNeighbourLoadRequest p h slot s
  | .imageHeader splice pages => Sys2Proof.Machine.execImageHeader splice pages s
  | .framesSection splice pages => Sys2Proof.Machine.execFramesSection splice pages s
  | .memorySection splice pages march => Sys2Proof.Machine.execMemorySection splice pages march s
  | .tableSection splice pages => Sys2Proof.Machine.execTableSection splice pages s
  | .regsSection splice pages => Sys2Proof.Machine.execRegsSection splice pages s
  | .imageTrailer splice pages march => Sys2Proof.Machine.execImageTrailer splice pages march s
  | .imageRelease => Sys2Proof.Machine.execImageRelease s
  | .loaderIdleTimeout splice => Sys2Proof.Machine.execLoaderIdleTimeout splice s
  | .loadClearingDone => Sys2Proof.Machine.execLoadClearingDone s
  | .icpStart die at_ => Sys2Proof.Machine.execIcpStart die at_ s
  | .icpAbort die => Sys2Proof.Machine.execIcpAbort die s
  | .spliceStart rq v => Sys2Proof.Machine.execSpliceStart rq v s
  | .spliceAbort rq v => Sys2Proof.Machine.execSpliceAbort rq v s
  | .spliceStreamEnd rq v => Sys2Proof.Machine.execSpliceStreamEnd rq v s
  | .splDataWrite rq v drained => Sys2Proof.Machine.execSplDataWrite rq v drained s
  | .spliceClearingDone => Sys2Proof.Machine.execSpliceClearingDone s
  | .scrubPassStart => Sys2Proof.Machine.execScrubPassStart s
  | .scrubSlot die slot upsets goldLost => Sys2Proof.Machine.execScrubSlot die slot upsets goldLost s
  | .frameRepair pages stuck => Sys2Proof.Machine.execFrameRepair pages stuck s
  | .regionRelease rq r v => Sys2Proof.Machine.execRegionRelease rq r v s
  | .coreTrap cause addr => Sys2Proof.Machine.execCoreTrap cause addr s
  | .eventSourceFire src level => Sys2Proof.Machine.execEventSourceFire src level s
  | .eventPinEdge pin level ns => Sys2Proof.Machine.execEventPinEdge pin level ns s
  | .latchedEdgeDelivery => Sys2Proof.Machine.execLatchedEdgeDelivery s
  | .eventClaim t by_ => Sys2Proof.Machine.execEventClaim t by_ s
  | .eventComplete t src by_ => Sys2Proof.Machine.execEventComplete t src by_ s
  | .eventSetPending rq k v => Sys2Proof.Machine.execEventSetPending rq k v s
  | .eventClearPending rq k v => Sys2Proof.Machine.execEventClearPending rq k v s
  | .eventVectorEntry enabled => Sys2Proof.Machine.execEventVectorEntry enabled s
  | .nmiEntry returned => Sys2Proof.Machine.execNmiEntry returned s
  | .watchdogService rq v => Sys2Proof.Machine.execWatchdogService rq v s
  | .watchdogEnable rq v => Sys2Proof.Machine.execWatchdogEnable rq v s
  | .watchdogLock rq v => Sys2Proof.Machine.execWatchdogLock rq v s
  | .watchdogWarning => Sys2Proof.Machine.execWatchdogWarning s
  | .watchdogExpiry => Sys2Proof.Machine.execWatchdogExpiry s
  | .twiAddressMatch addr => Sys2Proof.Machine.execTwiAddressMatch addr s
  | .twiWakeTimeout => Sys2Proof.Machine.execTwiWakeTimeout s
  | .twiWrite bytes env => Sys2Proof.Machine.execTwiWrite bytes env s
  | .twiRead addr env => Sys2Proof.Machine.execTwiRead addr env s
  | .twiStatusRead => Sys2Proof.Machine.execTwiStatusRead s
  | .twiSclTimeout lowNs => Sys2Proof.Machine.execTwiSclTimeout lowNs s
  | .twiControllerGo rq v => Sys2Proof.Machine.execTwiControllerGo rq v s
  | .twiControllerEnd result => Sys2Proof.Machine.execTwiControllerEnd result s
  | .gpioWrite rq oe w v => Sys2Proof.Machine.execGpioWrite rq oe w v s
  | .gpioInputChange bit level => Sys2Proof.Machine.execGpioInputChange bit level s
  | .tapReset => Sys2Proof.Machine.execTapReset s
  | .extest cells sample => Sys2Proof.Machine.execExtest cells sample s
  | .idcode => Sys2Proof.Machine.execIdcode s
  | .samplePreload cells sample => Sys2Proof.Machine.execSamplePreload cells sample s
  | .bypass code => Sys2Proof.Machine.execBypass code s
  | .dbgAcc => Sys2Proof.Machine.execDbgAcc s
  | .debugNop => Sys2Proof.Machine.execDebugNop s
  | .debugRead addr env => Sys2Proof.Machine.execDebugRead addr env s
  | .debugWrite addr v env => Sys2Proof.Machine.execDebugWrite addr v env s
  | .peek addr env => Sys2Proof.Machine.execPeek addr env s
  | .coreRd addr => Sys2Proof.Machine.execCoreRd addr s
  | .coreWr addr v env => Sys2Proof.Machine.execCoreWr addr v env s
  | .feed v env => Sys2Proof.Machine.execFeed v env s
  | .coreHalt v env => Sys2Proof.Machine.execCoreHalt v env s
  | .reservationBreak stored pc => Sys2Proof.Machine.execReservationBreak stored pc s
  | .breakpointHit pc resv => Sys2Proof.Machine.execBreakpointHit pc resv s
  | .coreResume v env => Sys2Proof.Machine.execCoreResume v env s
  | .coreStep v env => Sys2Proof.Machine.execCoreStep v env s
  | .debugAttach v env => Sys2Proof.Machine.execDebugAttach v env s
  | .uartRxByte b framing taken => Sys2Proof.Machine.execUartRxByte b framing taken s
  | .uartBreak bits => Sys2Proof.Machine.execUartBreak bits s
  | .monDataWrite rq v => Sys2Proof.Machine.execMonDataWrite rq v s
  | .tamopLineTimeout => Sys2Proof.Machine.execTamopLineTimeout s
  | .tamopPk addr env => Sys2Proof.Machine.execTamopPk addr env s
  | .tamopRd addr env => Sys2Proof.Machine.execTamopRd addr env s
  | .tamopWr addr v env => Sys2Proof.Machine.execTamopWr addr v env s
  | .tamopReel pages => Sys2Proof.Machine.execTamopReel pages s
  | .tamopReelBoot cur prev => Sys2Proof.Machine.execTamopReelBoot cur prev s
  | .tamopReelLoad slot => Sys2Proof.Machine.execTamopReelLoad slot s
  | .tamopCut => Sys2Proof.Machine.execTamopCut s
  | .tamopCutUser port tick => Sys2Proof.Machine.execTamopCutUser port tick s
  | .tamopCutSplice ofs tick => Sys2Proof.Machine.execTamopCutSplice ofs tick s
  | .tamopDl n => Sys2Proof.Machine.execTamopDl n s
  | .tamopDlFree n => Sys2Proof.Machine.execTamopDlFree n s
  | .tamopLane l => Sys2Proof.Machine.execTamopLane l s
  | .tamopTime => Sys2Proof.Machine.execTamopTime s
  | .tamopVote p => Sys2Proof.Machine.execTamopVote p s
  | .tamopVoteOn p => Sys2Proof.Machine.execTamopVoteOn p s
  | .tamopVoteOff p => Sys2Proof.Machine.execTamopVoteOff p s
  | .tamopBaud code => Sys2Proof.Machine.execTamopBaud code s
  | .crystalWindow count => Sys2Proof.Machine.execCrystalWindow count s
  | .useXtal rq v => Sys2Proof.Machine.execUseXtal rq v s
  | .synthConfigWrite rq f v => Sys2Proof.Machine.execSynthConfigWrite rq f v s
  | .synthLock f => Sys2Proof.Machine.execSynthLock f s
  | .synthUnlock f => Sys2Proof.Machine.execSynthUnlock f s
  | .synthRelock f lost => Sys2Proof.Machine.execSynthRelock f lost s
  | .clockEnableWrite rq r v => Sys2Proof.Machine.execClockEnableWrite rq r v s
  | .fcntStart rq v => Sys2Proof.Machine.execFcntStart rq v s
  | .fcntDone count => Sys2Proof.Machine.execFcntDone count s
  | .fcntTimeout idleNs => Sys2Proof.Machine.execFcntTimeout idleNs s
  | .voteChange by_ => Sys2Proof.Machine.execVoteChange by_ s
  | .rampStart p => Sys2Proof.Machine.execRampStart p s
  | .rampEnd p => Sys2Proof.Machine.execRampEnd p s
  | .rampFault p => Sys2Proof.Machine.execRampFault p s
  | .supplyLoss p lowNs => Sys2Proof.Machine.execSupplyLoss p lowNs s
  | .drainEnd p => Sys2Proof.Machine.execDrainEnd p s
  | .domainOff p => Sys2Proof.Machine.execDomainOff p s
  | .powerCutArm rq v => Sys2Proof.Machine.execPowerCutArm rq v s
  | .powerCutCancel rq v => Sys2Proof.Machine.execPowerCutCancel rq v s
  | .waitForEvent => Sys2Proof.Machine.execWaitForEvent s
  | .wake by_ => Sys2Proof.Machine.execWake by_ s
  | .powerFailWarning rail dipNs => Sys2Proof.Machine.execPowerFailWarning rail dipNs s
  | .unitRelease rq v => Sys2Proof.Machine.execUnitRelease rq v s
  | .powerGood straps => Sys2Proof.Machine.execPowerGood straps s
  | .bootFallbackLoad => Sys2Proof.Machine.execBootFallbackLoad s
  | .firmwareDescriptor pages => Sys2Proof.Machine.execFirmwareDescriptor pages s
  | .powerGoodFall rail => Sys2Proof.Machine.execPowerGoodFall rail s
  | .resetPin lowNs => Sys2Proof.Machine.execResetPin lowNs s
  | .brownOut rail => Sys2Proof.Machine.execBrownOut rail s
  | .coreReset rq v => Sys2Proof.Machine.execCoreReset rq v s
  | .systemReset rq v => Sys2Proof.Machine.execSystemReset rq v s
  | .pllRateWrite rq q p v => Sys2Proof.Machine.execPllRateWrite rq q p v s
  | .laneConfigWrite rq l v => Sys2Proof.Machine.execLaneConfigWrite rq l v s
  | .shadowSetWrite rq n set which v => Sys2Proof.Machine.execShadowSetWrite rq n set which v s
  | .addressGeneratorWrite rq n ag r v => Sys2Proof.Machine.execAddressGeneratorWrite rq n ag r v s
  | .meshEnable rq v => Sys2Proof.Machine.execMeshEnable rq v s
  | .icpDataWord die data => Sys2Proof.Machine.execIcpDataWord die data s
  | .fuseKeyBlown => Sys2Proof.Machine.execFuseKeyBlown s
  | .resetNRisingEdge straps => Sys2Proof.Machine.execResetNRisingEdge straps s
  | .tamopUnknownCommand err => Sys2Proof.Machine.execTamopUnknownCommand err s

end Sys2Proof.Machine
end

