-- ==== Sys2Proof/WellFormed.lean ====
section
/-! DEFINITION. Well-formed commands: the bounds that the spec sets on operands and that their types do not already
carry. The meanings are total on every command. -/
namespace Sys2Proof

/-- Does the item's number name an item of its kind (Table ARCH-1): 64 regions, 30 domains, 512 lanes, 64 engines,
256 clock enables? -/
def itemFormed (i : Item) : Bool :=
  match i.kind with
  | .config | .halt => decide (i.num.toNat < 64)
  | .power => decide (i.num.toNat < 30)
  | .lane => true
  | .clock => decide (i.num.toNat < 256)

/-- Is the code one that Table DBG-1 leaves to BYPASS? -/
def bypassFormed (c : Byte) : Bool := c != 0x00 && c != 0x01 && c != 0x02 && c != 0x10

/-- Words of a load-port packet: as many as its header says, 0 for 16,384 (R310). -/
def packetFormed (hdr : Word) (n : Nat) : Bool :=
  n == (if hdr.toNat % 16384 = 0 then 16384 else hdr.toNat % 16384)

/-- A capture lies within its tick, 266,666⅔ units of 1/65,536 ns long, and its wait within Table LNQ-3. -/
def stampFormed (x : StampPoint) : Bool := decide (x.sub.toNat < 266667) && decide (x.wait.toNat ≤ 66)

/-- Are the operands of a command within the spec's bounds? -/
def wellFormed (i : Instr) : Bool :=
  match i with
  | .slateTick env => env.takes.all (fun x => decide (x.2 ≤ 5))
  | .hubCommand i => itemFormed i
  | .commandAck i => itemFormed i
  | .agentReport i _ => itemFormed i
  | .bridgeRequestTimeout _ _ (.item i) => itemFormed i
  | .bypass c => bypassFormed c
  | .extest cells sample => cells.length == sample.length
  | .samplePreload cells sample => cells.length == sample.length
  | .loadPortPacket hdr words => packetFormed hdr words.length
  | .data _ _ _ bytes => decide (bytes.length ≤ 256)
  | .txBlock _ _ reads => reads.all (fun w => decide (w.toNat ≤ 66))
  | .rxBlock _ _ _ reads => reads.all (fun w => decide (w.toNat ≤ 66))
  | .rxFrame _ (.head stamp b) => stampFormed stamp && decide (b.length ≤ 30)
  | .rxFrame _ (.tail _ _ _ _ _ drained) => decide (drained.length ≤ 4)
  | .txFrame _ _ stamp => stampFormed stamp
  | .powerFailWarning rail _ => decide (1 ≤ rail.toNat) && decide (rail.toNat ≤ 9)
  | .brownOut rail => decide (1 ≤ rail.toNat) && decide (rail.toNat ≤ 9)
  | .twiControllerEnd (.acked l) => decide (l.length ≤ 8)
  | _ => true

end Sys2Proof
end

