-- ==== Sys2Proof/Safety.lean ====
section
/-! DEFINITION. The terms claims are stated in: what it is for a command to complete, for an access to reach its register,
for a record to be logged, and for an effect to stay within named registers; and the safety of a state. -/
namespace Sys2Proof.Safety
open Sys2Proof.Machine Sys2Proof.Machine.Reg

/-- The command answers a next state, takes nothing from the queue and puts nothing into it, and `P` holds of the device
after it. -/
def Does (i : Instr) (s : State) (P : Dev → Prop) : Prop :=
  ∃ t, exec i s = .next t ∧ t.pending = s.pending ∧ P t.dev

/-- The device runs, a register is listed at `a` (R23), and nothing bars an access to it: its block is powered, out of
isolation and clocked, and no earlier event of the tick has won (R24, R34, R376, R387). -/
def Reaches (d : Dev) (a : Nat) : Prop := d.live = true ∧ (rowAt a).isSome = true ∧ d.barred a = none

/-- Nothing holds the access up: no bridge has lost it, no earlier access to its die is under way, its target answers, and it
has not waited before (R20, R25, R40). -/
def Prompt (d : Dev) (rq : Requester) (a : Nat) (write : Bool) (e : BusEnv) : Prop :=
  d.accessLost rq a write = false ∧ d.dieBusy a = false ∧ (hubLocal a && e.silent) = false ∧ d.busWaiting rq a write = false

/-- The Slate count still advances (R415). -/
def Counting (d : Dev) : Prop := d.slate ≠ slateMax

/-- Every register but those at the listed addresses holds what it held. -/
def RegsBut (l : List Nat) (d e : Dev) : Prop := ∀ a, a ∉ l → e.rd a = d.rd a

/-- Nothing but the registers listed, what hardware set of them on this tick, the Dailies ring and the answer of the bus
differs. -/
def Frame (l : List Nat) (d e : Dev) : Prop :=
  (∃ r w m p, e = { d with regs := r, sets := w, hub := { d.hub with dailies := m }, resp := p }) ∧ RegsBut l d e

/-- The registers the log writes. -/
def logRegs : List Nat := [DLY_STAT, DLY_DROP]

/-- A record is logged: where its severity is stored and the ring has room, it stands at the old HEAD, before the records of
its tick that are of a later class (R45, R46). -/
def Logs (d e : Dev) (blk code : Nat) (sev : Sev) (det : List Nat) : Prop :=
  min (d.rf DLY_CTL_MIN_SEV) 4 ≤ sev.code → d.rf DLY_STAT_COUNT < 2048 →
    SMap.at 0 e.hub.dailies (d.recPlace (record d.slate blk code sev.code det)) = record d.slate blk code sev.code det

/-- Lane `l` feeds a reference slot of Continuity: some slot names it (R181). -/
def Feeds (d : Dev) (l : Nat) : Prop := ∃ n : Fin 8, d.rf (CTY_REFn_CFG_KIND n) = 3 ∧ d.rf (CTY_REFn_CFG_NUM n) = l

/-- Engine `n` can issue a bundle with nothing else going on: it runs, powered and out of isolation, its operation's first bundle
due, with no write in flight, no loop body under way, no march run on its die, and a bundle after this one. -/
def EngineReady (d : Dev) (n : Nat) : Prop :=
  d.live = true ∧ d.seState n = seRUN ∧ d.seUp n = true ∧ (d.engine n).start ≤ d.slate ∧ (d.engine n).inflight = [] ∧ (d.engine n).loops = [] ∧
  (d.engine n).pastEnd = false ∧ d.rf (SE_PC_PC n) < 2047 ∧ SMap.at none d.fab.march (n / 32) = none

/-- Engine `n` goes on with the next bundle, and no register but its PC and its X counters differs. -/
def NextBundle (d e : Dev) (n : Nat) : Prop :=
  e.rf (SE_PC_PC n) = d.rf (SE_PC_PC n) + 1 ∧ e.seState n = seRUN ∧ RegsBut [SE_PC n, SE_XIDLE n, SE_XRUN n] d e

/-- Every waiting command is well formed. -/
def QueueFormed (s : State) : Prop := ∀ i ∈ s.pending, wellFormed i = true

/-- The register file is in canonical form and the Slate count is one it can hold. -/
def DevFormed (d : Dev) : Prop := SMap.wf resetWord d.regs = true ∧ d.slate ≤ slateMax

end Sys2Proof.Safety
end

