-- ==== Sys2Proof/Certificates/Slice0/Obligations.lean ====
section
/-! DEFINITION. The statements for the provers: what commands do, by the rules of the spec. -/
open Sys2Proof Sys2Proof.Machine Sys2Proof.Machine.Reg Sys2Proof.Safety

/-- For every command c, device and queue, a step of the machine with c at the front of its queue is exec of c on the
same device with the rest of the queue. On an empty queue a step answers the same state: the passing of a tick is the
command SLATE_TICK. That second part is the model's own convention, log entry 1.
Follows: 01_architecture.md (Control bus); 02_slate_and_device_rules.md (The Slate). -/
def Obligations.StepRunsTheFrontCommand : Prop :=
  (∀ (c : Instr) (d : Dev) (rest : List Instr),
    step { dev := d, pending := c :: rest } = exec c { dev := d, pending := rest }) ∧
  ∀ d : Dev, step { dev := d, pending := [] } = .next { dev := d, pending := [] }

/-- For every one of the 371 commands, with any operands, on any device whose Slate count is not held at 2^64 - 1, exec
answers a next state, and the queue of waiting commands is what it was. So no operand and no contents of the device
end a run.
Follows: 02_slate_and_device_rules.md (The Slate); 19_package_and_electrical.md; R415. -/
def Obligations.OrdinaryDataNeverEndsARun : Prop :=
  ∀ (i : Instr) (s : State), Counting s.dev → ∃ t, exec i s = .next t ∧ t.pending = s.pending

/-- No command is refused; a command that faults does so with slateHeld and only where the Slate count is held at 2^64 -
1, where the spec does not define Cuts, Clappers, schedules and the time of day. There CUT_PREPARE, CUT_EXECUTE and
PERIOD_BOUNDARY, for instance, do fault. The tick itself, and a read of any register, never fault.
Follows: 02_slate_and_device_rules.md (The Slate); R415. -/
def Obligations.HeldCountFaultsTimedCommandsOnly : Prop :=
  (∀ (i : Instr) (s : State) (r : Refusal), exec i s ≠ .refused r) ∧
  (∀ (i : Instr) (s : State) (f : Fault), exec i s = .fault f → f = .slateHeld ∧ s.dev.slate = slateMax) ∧
  (∀ s : State, s.dev.slate = slateMax → exec .cutPrepare s = .fault .slateHeld ∧ exec .cutExecute s = .fault .slateHeld ∧
    exec .periodBoundary s = .fault .slateHeld) ∧
  (∀ (s : State) (rq : Requester) (a : Word) (w : AccWidth) (env : TickEnv), (∃ t, exec (.slateTick env) s = .next t) ∧
    (∃ t, exec (.holdingLowWordRead rq a w) s = .next t))

/-- Whatever the device, if a step answers a next state, the queue after it is the queue before it without its first
command (an empty queue stays empty); so a queue of well-formed commands stays one.
Follows: 02_slate_and_device_rules.md (Order within a tick). -/
def Obligations.EveryStepConsumesTheFrontInOrder : Prop :=
  ∀ s t : State, step s = .next t → t.pending = s.pending.tail ∧ (QueueFormed s → QueueFormed t)

/-- Whatever the address, the value and the surroundings, a byte or halfword write, a byte or halfword read, an unaligned
word write and an unaligned read each answer a next state in which the response is an error and nothing else of the
device has changed. At the addresses of memories that is the model's choice, log entry 156.
Follows: R7. -/
def Obligations.NarrowAndUnalignedAccessesHaveNoEffect : Prop :=
  ∀ (s : State) (rq : Requester) (a v : Word) (w : AccWidth) (env : BusEnv), Counting s.dev →
    (w ≠ .word ∨ a.toNat % 4 ≠ 0) →
      Does (.registerWrite rq a v w env) s (fun e => e = s.dev.err) ∧
      Does (.holdingLowWordRead rq a w) s (fun e => e = s.dev.err) ∧ Does (.readClear rq a v w) s (fun e => e = s.dev.err)

/-- For every register of the Dailies, monitor and two-wire blocks but DLY_TAIL, MON_DATA and TWI_MCTL, a word write that
reaches it, and that nothing holds up, leaves each field as its access code of Table SCOPE-6 says (a
write-one-to-clear flag that hardware set on this very tick stays set), changes no other register and nothing else of
the device, and completes. An access to an address where no register is listed gets an error response and has no
effect.
Follows: 00_scope.md (Table SCOPE-6); 01_architecture.md (Control bus); 02_slate_and_device_rules.md (Order within a tick). -/
def Obligations.PlainRegistersActAsTheirAccessCodes : Prop :=
  ∀ (s : State) (rq : Requester) (a v : Word) (env : BusEnv),
    (∀ r, rowAt a.toNat = some r → Prompt s.dev rq a.toNat true env → s.dev.live = true → s.dev.barred a.toNat = none → a.toNat % 4 = 0 →
      (blockOf a.toNat = 0x0D ∨ blockOf a.toNat = 0x12 ∨ blockOf a.toNat = 0x13) → addrPlace a.toNat = .reg →
      a.toNat ≠ DLY_TAIL → a.toNat ≠ MON_DATA → a.toNat ≠ TWI_MCTL →
      Does (.registerWrite rq a v .word env) s (fun e =>
        e.rd a.toNat = rowWrite r (s.dev.rd a.toNat) (v &&& ~~~(s.dev.setNow a.toNat &&& w1cMask r)) ∧ e.resp = .done ∧
        Frame [a.toNat] s.dev e)) ∧
    (rowAt (regKey a.toNat) = none → addrPlace a.toNat = .reg → a.toNat % 4 = 0 → Counting s.dev →
      (Prompt s.dev rq a.toNat true env → Does (.registerWrite rq a v .word env) s (fun e => e = s.dev.err)) ∧
      (Prompt s.dev rq a.toNat false Machine.BusEnv.clean → Does (.holdingLowWordRead rq a .word) s (fun e => e = s.dev.err)))

/-- A read of SLT_NOW_LO returns bits [31:0] of the count and puts bits [63:32] into the holding register; a read of
SLT_NOW_HI returns what the holding register holds and changes nothing else.
Follows: R31. -/
def Obligations.LowWordHoldsTheHighWord : Prop :=
  ∀ (s : State) (rq : Requester),
    (Reaches s.dev SLT_NOW_LO → Prompt s.dev rq SLT_NOW_LO false Machine.BusEnv.clean →
     Does (.holdingLowWordRead rq (BitVec.ofNat 32 SLT_NOW_LO) .word) s (fun e =>
      e.resp = .data (BitVec.ofNat 32 s.dev.slate) ∧
      SMap.at 0 e.hold SLT_NOW_HI = BitVec.ofNat 32 (s.dev.slate / 2 ^ 32) ∧ e.regs = s.dev.regs ∧ e.slate = s.dev.slate)) ∧
    (Reaches s.dev SLT_NOW_HI → Prompt s.dev rq SLT_NOW_HI false Machine.BusEnv.clean →
     Does (.holdingLowWordRead rq (BitVec.ofNat 32 SLT_NOW_HI) .word) s (fun e =>
      e = { s.dev with resp := .data (SMap.at 0 s.dev.hold SLT_NOW_HI) }))

/-- A read of DLY_DROP that reaches it, and that nothing holds up, returns the word it held and leaves in both counts
what was counted in the same cycle. An access that waits for a hub-local target is given up once 4,096 cycles of the
bus clock have gone by: DLY code 0x04 names address and requester, the answer is an error, and it waits no more;
before that, and for an access that does not wait or whose target lies in die space or the DRAM window, nothing
changes.
Follows: 02_slate_and_device_rules.md (Counters; Timeouts). -/
def Obligations.ReadClearAndBusTimeout : Prop :=
  ∀ (s : State) (rq : Requester) (counted a : Word) (write : Bool),
    (Reaches s.dev DLY_DROP → Prompt s.dev rq DLY_DROP false Machine.BusEnv.clean →
     Does (.readClear rq (BitVec.ofNat 32 DLY_DROP) counted .word) s (fun e =>
      e.resp = .data (s.dev.rd DLY_DROP) ∧ e.rf DLY_DROP_LOW = fieldGet DLY_DROP_LOW.lo DLY_DROP_LOW.w counted ∧
      e.rf DLY_DROP_HIGH = fieldGet DLY_DROP_HIGH.lo DLY_DROP_HIGH.w counted ∧ Frame [DLY_DROP] s.dev e)) ∧
    (s.dev.live = true → rq ≠ .host → s.dev.sup.dbg.busy = none → s.dev.sup.uart.wait = .none → ∀ w : BusWait,
      s.dev.hub.busWaits.find? (fun w => w.rq == rq && w.addr == a.toNat && w.write == write) = some w →
      (a.toNat < 0x10000000 → s.dev.busExpired (s.dev.slate - w.since) = true → Does (.controlBusTimeout rq a write) s (fun e =>
        e.resp = .error ∧ e.busWaiting rq a.toNat write = false ∧ RegsBut logRegs s.dev e ∧
        Logs s.dev e 0x0D 0x04 .error [a.toNat, a.toNat / 2 ^ 8, a.toNat / 2 ^ 16, a.toNat / 2 ^ 24, rqCode rq])) ∧
      (s.dev.busExpired (s.dev.slate - w.since) = false → Does (.controlBusTimeout rq a write) s (fun e => e = s.dev))) ∧
    (0x10000000 ≤ a.toNat ∨ s.dev.busWaiting rq a.toNat write = false →
      Does (.controlBusTimeout rq a write) s (fun e => e = s.dev))

/-- A record that is stored stands at HEAD, unless the last record is of its tick and of a later event class: that record
then moves on to HEAD and the new one stands before it. A write of v frees d = (v - TAIL) mod 2,048 records: COUNT
falls by d and TAIL becomes v; with the ring full a write equal to TAIL frees all 2,048; a write whose d exceeds the
count is ignored. Nothing but DLY_STAT and DLY_TAIL changes.
Follows: 02_slate_and_device_rules.md (The Dailies). -/
def Obligations.DailiesTailFreesRecords : Prop :=
  (∀ (d : Dev) (blk code : Nat) (sev : Sev) (det : List Nat), min (d.rf DLY_CTL_MIN_SEV) 4 ≤ sev.code →
    0 < d.rf DLY_STAT_COUNT → d.rf DLY_STAT_COUNT < 2048 →
    let r := record d.slate blk code sev.code det
    let head := d.rf DLY_STAT_HEAD
    let last := SMap.at 0 d.hub.dailies ((head + 2047) % 2048)
    let e := d.log blk code sev det
    if recLater last r then SMap.at 0 e.hub.dailies head = last ∧ d.recPlace r ≠ head ∧ SMap.at 0 e.hub.dailies (d.recPlace r) = r
    else SMap.at 0 e.hub.dailies head = r) ∧
  ∀ (s : State) (rq : Requester) (v : Word), Reaches s.dev DLY_TAIL →
    let t := s.dev.rf DLY_TAIL_TAIL
    let c := s.dev.rf DLY_STAT_COUNT
    let n := fieldGet 0 11 v
    let k := (n + 2048 - t) % 2048
    ((¬ (c = 2048 ∧ n = t) → k ≤ c → Does (.dlyTailWrite rq v) s (fun e =>
        e.rf DLY_TAIL_TAIL = n ∧ e.rf DLY_STAT_COUNT = c - k ∧ Frame [DLY_STAT, DLY_TAIL] s.dev e)) ∧
     (c = 2048 → n = t → Does (.dlyTailWrite rq v) s (fun e => e.rf DLY_TAIL_TAIL = n ∧ e.rf DLY_STAT_COUNT = 0)) ∧
     (c < k → Does (.dlyTailWrite rq v) s (fun e => e = s.dev.ok)))

/-- On a device that runs: a hub command leaves the item's record outstanding and changes no register; its
acknowledgement ends that, the agent's copy holds the commanded value, and where that is the record still, or where
the record has moved on, no register changes. A report of a copy that differs from a record as last commanded, while
nothing is outstanding, sets MISMATCH of the die, isolates the engine, quad, domain or region, and rewrites the
agent's copy from the record; for an engine or a lane FAB code 0x04 is logged with the record. A report that agrees
changes no register, and while a command is outstanding none is compared.
Follows: 01_architecture.md (Items and agents). -/
def Obligations.ItemsFollowHubCommands : Prop :=
  ∀ (s : State) (i : Item) (value : Byte), s.dev.live = true →
    (itemValid i = true → Does (.hubCommand i) s (fun e =>
      e.outstandingOf i = some { sent := s.dev.slate, value := s.dev.hubRecord i } ∧ e.told i = s.dev.hubRecord i ∧
      e.regs = s.dev.regs)) ∧
    (∀ o, s.dev.outstandingOf i = some o → o.value = s.dev.hubRecord i ∨ s.dev.told i ≠ s.dev.hubRecord i →
      Does (.commandAck i) s (fun e => e.outstandingOf i = none ∧ e.agentCopy i = o.value ∧ e.regs = s.dev.regs)) ∧
    (itemValid i = true → s.dev.outstandingOf i = none → s.dev.told i = s.dev.hubRecord i → value.toNat ≠ s.dev.hubRecord i →
      Does (.agentReport i (some value)) s (fun e =>
        e.agentCopy i = e.hubRecord i ∧
        (i.kind ≠ .config → e.bit (FAB_BRG_STAT_MISMATCH (s.dev.itemDie i)) = true) ∧
        (i.kind = .config → e.bit (SPL_REGr_STAT_ISOLATED (itemUnit i)) = true) ∧
        (i.kind = .halt ∨ i.kind = .lane →
          Logs s.dev e 0x1A 0x04 .error [s.dev.itemDie i, itemCode i.kind, itemUnit i, itemUnit i / 256, s.dev.hubRecord i]) ∧
        (i.kind = .halt → SMap.at false e.gaf.isoEngine (itemUnit i) = true) ∧
        (i.kind = .lane → SMap.at false e.gaf.isoQuad (itemUnit i) = true) ∧
        (i.kind = .power → SMap.at false e.gaf.isoDomain (itemUnit i) = true))) ∧
    (itemValid i = true → value.toNat = s.dev.hubRecord i → Does (.agentReport i (some value)) s (fun e =>
      e.agentCopy i = value.toNat ∧ e.regs = s.dev.regs ∧ e.gaf = s.dev.gaf)) ∧
    (s.dev.agentCopy i = s.dev.hubRecord i ∨ (s.dev.outstandingOf i).isSome = true → Does (.agentReport i none) s (fun e =>
      e = s.dev))

/-- On a device that runs: on a data channel that is routed and powered and does not end at a mesh endpoint, a corrected
transfer sets CE, counts it, logs FAB code 0x01 and is delivered unchanged, an uncorrectable one sets UE, logs FAB
code 0x02 and is delivered with its poison mark, and a clean one is delivered with no flag; on a data channel without
power nothing happens. On the other channels a corrected transfer is counted and logged, and an uncorrectable one
sets UE and is discarded, its request left without an answer. A request of an item with no acknowledgement for 2 us
sets TIMEOUT and is no longer outstanding; a control-bus request that was lost 2 us ago sets TIMEOUT, logs FAB code
0x03 and is answered with an error, and before that nothing happens. A time-wire measurement made a second or more
after the last is taken as it is while it stays within 20 ps, and otherwise approached in steps of 5 ps; one made
sooner is not.
Follows: 01_architecture.md (Bridges; Time wires). -/
def Obligations.BridgesCorrectPoisonAndTimeOut : Prop :=
  ∀ (s : State) (die : Fin 2) (chan : Channel) (num : Fin 15) (toHub : Bool) (load : BridgeLoad) (data : List Byte),
    s.dev.live = true →
    (∀ stop, s.dev.channelEnd die num = some stop → toHub = false ∨ stop ≠ .mesh →
      Does (.bridgeTransfer die .data num toHub .corrected load data) s (fun e =>
        e.bit (FAB_BRG_STAT_CE die) = true ∧
        e.rf (FAB_BRG_STAT_CE_COUNT die) = satU (FAB_BRG_STAT_CE_COUNT die).w (s.dev.rf (FAB_BRG_STAT_CE_COUNT die) + 1) ∧
        Logs s.dev e 0x1A 0x01 .info [die, 0, num.val, (!toHub).toNat, 0] ∧
        e.outs = .bridge die num.val toHub false data stop :: s.dev.outs) ∧
      Does (.bridgeTransfer die .data num toHub .uncorrectable load data) s (fun e =>
        e.bit (FAB_BRG_STAT_UE die) = true ∧ e.outs = .bridge die num.val toHub true data stop :: s.dev.outs ∧
        Logs s.dev e 0x1A 0x02 .error [die, num.val, (!toHub).toNat, 0, 0]) ∧
      Does (.bridgeTransfer die .data num toHub .clean load data) s (fun e =>
        e = s.dev.out (.bridge die num.val toHub false data stop))) ∧
    (∀ ecc, s.dev.channelEnd die num = none → Does (.bridgeTransfer die .data num toHub ecc load data) s (fun e => e = s.dev)) ∧
    (chan ≠ .data →
      Does (.bridgeTransfer die chan num toHub .corrected load data) s (fun e =>
        e.bit (FAB_BRG_STAT_CE die) = true ∧
        e.rf (FAB_BRG_STAT_CE_COUNT die) = satU (FAB_BRG_STAT_CE_COUNT die).w (s.dev.rf (FAB_BRG_STAT_CE_COUNT die) + 1) ∧
        Logs s.dev e 0x1A 0x01 .info [die, channelCode chan, 0, (!toHub).toNat, 0] ∧ e.outs = s.dev.outs) ∧
      Does (.bridgeTransfer die chan num toHub .uncorrectable load data) s (fun e =>
        e.bit (FAB_BRG_STAT_UE die) = true ∧ e.outs = s.dev.outs ∧
        (s.dev.lostAt die load = none → e.lostAt die load = some s.dev.slate))) ∧
    (∀ (i : Item) (o : Outstanding), chan ≠ .data → s.dev.outstandingOf i = some o → elapsed (s.dev.slate - o.sent) 2000 = true →
      i.kind ≠ .config → Does (.bridgeRequestTimeout die chan (.item i)) s (fun e =>
        e.outstandingOf i = none ∧ e.bit (FAB_BRG_STAT_TIMEOUT die) = true ∧ e.agentCopy i = e.hubRecord i)) ∧
    (∀ (a : Word) (w : Bool) (t : Nat), chan ≠ .data → s.dev.sup.dbg.busy = none →
      s.dev.lostAt die (.access .debug a w) = some t →
      (elapsed (s.dev.slate - t) 2000 = true → Does (.bridgeRequestTimeout die chan (.access .debug a w)) s (fun e =>
        e.resp = .error ∧ e.bit (FAB_BRG_STAT_TIMEOUT die) = true ∧ e.lostAt die (.access .debug a w) = none ∧
        Logs s.dev e 0x1A 0x03 .error [die, channelCode chan, 0, 0, 0])) ∧
      (elapsed (s.dev.slate - t) 2000 = false → Does (.bridgeRequestTimeout die chan (.access .debug a w)) s (fun e =>
        e = s.dev))) ∧
    (∀ ps : Int, (SMap.at none s.dev.hub.timeWire die = none → Does (.timeWireMeasurement die ps) s (fun e =>
        SMap.at none e.hub.timeWire die = some { inUse := ps, last := ps, at_ := s.dev.slate })) ∧
      (∀ w : TimeWire, SMap.at none s.dev.hub.timeWire die = some w →
        (s.dev.slate < w.at_ + ticksPerSec → Does (.timeWireMeasurement die ps) s (fun e => e = s.dev)) ∧
        (w.at_ + ticksPerSec ≤ s.dev.slate → w.inUse = w.last →
          (-20 ≤ ps - w.last → ps - w.last ≤ 20 → Does (.timeWireMeasurement die ps) s (fun e =>
            SMap.at none e.hub.timeWire die = some { inUse := ps, last := ps, at_ := s.dev.slate })) ∧
          (20 < ps - w.last → Does (.timeWireMeasurement die ps) s (fun e =>
            SMap.at none e.hub.timeWire die = some { inUse := w.inUse + 5, last := ps, at_ := s.dev.slate })) ∧
          (ps - w.last < -20 → Does (.timeWireMeasurement die ps) s (fun e =>
            SMap.at none e.hub.timeWire die = some { inUse := w.inUse - 5, last := ps, at_ := s.dev.slate })))))

/-- On a device that runs, with no access of the die under way: an access where no port is attached, or unaligned, gets
an error, and so does one whose region is isolated; where a live port is attached it sees the access, and its answer
is the response; without an answer the access waits, holding its start. After 10 us an access that waits is given up
with an error, and FAB code 0x05 names the die, the offset and the requester.
Follows: 01_architecture.md (Die space). -/
def Obligations.UserWindowPassesToTheFabricPort : Prop :=
  ∀ (s : State) (rq : Requester) (die : Fin 2) (ofs : BitVec 26) (write : Bool) (data w : Word), s.dev.live = true →
    (SMap.at none s.dev.hub.userWin die = none →
      s.dev.busWaiting rq (dieBase die + 0x4000000 + ofs.toNat) write = false → ∀ r : Fin 64,
      (∀ ans, Does (.userWindowAccess rq die ofs write data none ans) s (fun e => e = s.dev.err)) ∧
      (∀ ans, ofs.toNat % 4 ≠ 0 → Does (.userWindowAccess rq die ofs write data (some r) ans) s (fun e => e = s.dev.err)) ∧
      (∀ ans, s.dev.bit (SPL_REGr_STAT_ISOLATED r) = true → Does (.userWindowAccess rq die ofs write data (some r) ans) s
        (fun e => e.resp = .error ∧ e.outs = s.dev.outs)) ∧
      (ofs.toNat % 4 = 0 → s.dev.bit (SPL_REGr_STAT_ISOLATED r) = false → s.dev.domainUp (s.dev.regionDomain r) = true →
       Does (.userWindowAccess rq die ofs write data (some r) (some w)) s (fun e =>
        e.resp = (if write then Resp.done else Resp.data w) ∧
        e.outs = .userPort die ofs.toNat write false (if write then data else 0) :: s.dev.outs ∧ e.regs = s.dev.regs)) ∧
      (ofs.toNat % 4 = 0 → s.dev.bit (SPL_REGr_STAT_ISOLATED r) = false → s.dev.domainUp (s.dev.regionDomain r) = true →
       Does (.userWindowAccess rq die ofs write data (some r) none) s (fun e =>
        e.resp = .none ∧ e.regs = s.dev.regs ∧
        SMap.at none e.hub.userWin die = some { rq := rq, ofs := ofs.toNat, write := write, since := s.dev.slate }))) ∧
    (∀ x : WinAccess, SMap.at none s.dev.hub.userWin die = some x → x.rq = .debug → s.dev.sup.dbg.busy = none →
      elapsed (s.dev.slate - x.since) 10000 = true → Does (.fabricPortTimeout die) s (fun e =>
        SMap.at none e.hub.userWin die = none ∧ e.resp = .error ∧
        Logs s.dev e 0x1A 0x05 .error [die, x.ofs / 4, x.ofs / 2 ^ 10, x.ofs / 2 ^ 18, rqCode x.rq + 128 * x.write.toNat]))

/-- On a device that runs, SLATE_TICK completes: it brings the device over an edge at which the count is one more (2^64 -
1 stays), the outputs, marks and pulses of the tick that ends are gone, and the registers are those that the events
sampled at its end leave; the state after the command is what the engines' outputs and the blocks make of that edge.
On a device that does not run it changes nothing.
Follows: 02_slate_and_device_rules.md (The Slate). -/
def Obligations.TheSlateAdvancesByOne : Prop :=
  ∀ (s : State) (env : TickEnv),
    (s.dev.live = true → Does (.slateTick env) s (fun e => e = ((s.dev.nextEdge env).streamTick env.takes).tickBlocks)) ∧
    ((s.dev.nextEdge env).slate = min (s.dev.slate + 1) slateMax ∧ (s.dev.nextEdge env).outs = [] ∧
      (s.dev.nextEdge env).marks = [] ∧ (s.dev.nextEdge env).hub.pulses = [] ∧
      (s.dev.nextEdge env).regs = (s.dev.tickRuns env).sampleSources.regs) ∧
    (s.dev.live = false → Does (.slateTick env) s (fun e => e = s.dev))

/-- For a write that reaches SLT_CUT_CTL or the tick registers with a slot c selected: while c is FREE a tick write
stores its half and reserves the slot; ARM with a target of 15 or less and T at least 4,096 ticks ahead arms and
confirms a USER Cut; a shorter lead is refused with LEAD, CUT_FAIL and SLT code 0x03; a target above 15 with ACCESS.
CANCEL fails an ARMED USER Cut with ABORT while T - 64 is to come, frees a slot that has ended, and does nothing to a
PREPARED one. A slot that is not FREE ignores the tick write.
Follows: 02_slate_and_device_rules.md (Cuts; Cut slots). -/
def Obligations.SoftwareArmsAndCancelsCuts : Prop :=
  ∀ (s : State) (rq : Requester) (v : Word), Counting s.dev →
    let d := s.dev
    let i := d.selSlot
    let c := d.cut i
    (Reaches d SLT_CUT_TICK_LO → c.state = .free → Does (.cutSlotReserve rq .tickLo v) s (fun e =>
      e.cut i = { c with tick := c.tick / 2 ^ 32 * 2 ^ 32 + v.toNat, reserved := true } ∧ e.regs = d.regs)) ∧
    (Reaches d SLT_CUT_TICK_HI → c.state = .free → Does (.cutSlotReserve rq .tickHi v) s (fun e =>
      e.cut i = { c with tick := v.toNat * 2 ^ 32 + c.tick % 2 ^ 32, reserved := true } ∧ e.regs = d.regs)) ∧
    (Reaches d SLT_CUT_TICK_LO → c.state ≠ .free → Does (.cutSlotReserve rq .tickLo v) s (fun e => e = d.ok)) ∧
    (Reaches d SLT_CUT_CTL → c.state = .free →
      Does (.cutSlotReserve rq .target v) s (fun e =>
        e.cut i = { c with target := v.toNat / 2 ^ 16, reserved := true } ∧ e.regs = d.regs) ∧
      (v.getLsbD 1 = false →
        (v.toNat / 2 ^ 16 ≤ 15 → d.slate + 4096 ≤ c.tick → Does (.userCutArm rq v) s (fun e =>
          e.cut i = { armedSlot kUSER (v.toNat / 2 ^ 16) c.tick with confirmed := true } ∧ e.regs = d.regs)) ∧
        (v.toNat / 2 ^ 16 ≤ 15 → c.tick < d.slate + 4096 → Does (.userCutArm rq v) s (fun e =>
          (e.cut i).state = .free ∧ (e.cut i).status = stLEAD ∧ e.bit SLT_STAT_CUT_FAIL = true ∧
          Logs d e 0x01 0x03 .warn [kUSER, v.toNat / 2 ^ 16, v.toNat / 2 ^ 16 / 256, stLEAD, 0])) ∧
        (15 < v.toNat / 2 ^ 16 → Does (.userCutArm rq v) s (fun e =>
          (e.cut i).state = .free ∧ (e.cut i).status = stACCESS ∧ e.bit SLT_STAT_CUT_FAIL = true)))) ∧
    (Reaches d SLT_CUT_CTL → v.getLsbD 0 = false →
      (c.state = .armed → c.kind = kUSER → d.slate + 64 < c.tick → Does (.cutCancel rq v) s (fun e =>
        e.cut i = { c with state := .failed, status := stABORT } ∧ e.bit SLT_STAT_CUT_FAIL = true ∧ RegsBut [SLT_STAT] d e)) ∧
      (c.state = .done ∨ c.state = .failed → Does (.cutCancel rq v) s (fun e =>
        (e.cut i).state = .free ∧ e.regs = d.regs)) ∧
      (c.state = .prepared → Does (.cutCancel rq v) s (fun e => e = d.ok)))

/-- While the Slate counts, on a device that runs, with the site's host tile live: a request with 4,096 ticks of lead
takes the slot that is picked, confirmed at once, and its answer DONE with the slot waits for the next tick; a
shorter lead is answered with LEAD; an ARM while an answer waits changes nothing. From that tick on the site raises
ACK once, with status and slot.
Follows: 02_slate_and_device_rules.md (Cut sites). -/
def Obligations.CutSitesArmAndAreAnswered : Prop :=
  ∀ (s : State) (die : Fin 2) (port : BitVec 4) (t : BitVec 64), Counting s.dev → s.dev.live = true →
    s.dev.cutSiteDead die = false →
    (SMap.at none s.dev.hub.siteAck die = none →
      (∀ i, s.dev.pickSlot = some i → s.dev.slate + 4096 ≤ t.toNat → Does (.cutSiteArm die port t) s (fun e =>
        e.cut i = { armedSlot kUSER port.toNat t.toNat with confirmed := true } ∧
        SMap.at none e.hub.siteAck die = some (s.dev.slate + 1, stDONE, i) ∧ e.regs = s.dev.regs)) ∧
      (t.toNat < s.dev.slate + 4096 → Does (.cutSiteArm die port t) s (fun e =>
        SMap.at none e.hub.siteAck die = some (s.dev.slate + 1, stLEAD, 0) ∧ e.hub.cuts = s.dev.hub.cuts))) ∧
    (∀ a, SMap.at none s.dev.hub.siteAck die = some a →
      Does (.cutSiteArm die port t) s (fun e => e = s.dev) ∧
      (a.1 ≤ s.dev.slate → Does (.cutSiteAck die) s (fun e =>
        SMap.at none e.hub.siteAck die = none ∧ e.outs = .cutAck die a.2.1 a.2.2 :: s.dev.outs)))

/-- While the Slate counts, on a device that runs: a staged unit confirms an ARMED Cut up to T - 64; on T - 64 every
confirmed Cut that is due is PREPARED and no other slot changes, where no due Cut lacks its confirmation, and a
single due USER Cut without one fails with TIMEOUT and SLT code 0x02; a USER Cut that alone executes is DONE, sets
CUT_DONE, logs SLT code 0x01 and pulses its number at the Cut site of both dies.
Follows: 02_slate_and_device_rules.md (Cuts). -/
def Obligations.CutsAreDecidedAndExecute : Prop :=
  ∀ (s : State) (k : Fin 32), Counting s.dev → s.dev.live = true →
    let d := s.dev
    let c := d.cut k
    let due := fun j => (d.cut j).state = .armed ∧ (d.cut j).decided d.slate = true
    (c.state = .armed → d.slate + 64 ≤ c.tick → d.cutStaged k = true → Does (.cutConfirm k) s (fun e =>
      e.cut k = { c with confirmed := true } ∧ e.regs = d.regs)) ∧
    ((∀ j, j < 32 → due j → (d.cut j).confirmed = true) → Does .cutPrepare s (fun e =>
      (due k → e.cut k = { c with state := .prepared }) ∧ (¬ due k → e.cut k = c) ∧ e.regs = d.regs)) ∧
    (due k → c.confirmed = false → c.kind = kUSER → (∀ j, j < 32 → j ≠ k → ¬ due j) → Does .cutPrepare s (fun e =>
      e.cut k = { c with state := .failed, status := stTIMEOUT } ∧ e.bit SLT_STAT_CUT_FAIL = true ∧
      Logs d e 0x01 0x02 .error [k, c.kind, c.target, c.target / 256, stTIMEOUT])) ∧
    (d.cutsDue = [k.val] → c.kind = kUSER → d.cutSiteDead 0 = false → d.cutSiteDead 1 = false →
      Does .cutExecute s (fun e =>
        e.cut k = { c with state := .done, status := stDONE } ∧ e.bit SLT_STAT_CUT_DONE = true ∧
        e.outs = .cutPulse 1 c.target :: .cutPulse 0 c.target :: d.outs ∧
        Logs d e 0x01 0x01 .info [k, c.kind, c.target, c.target / 256, 0]))

/-- On a device that runs, outside the losing part, with no Cut live and no scrub pass under way: a Slate step that is
due moves the count by its difference, never past 2^64 - 1 nor below 0, sets SLT_STAT.STEPPED and MSH_EVT.STEP, and
is no longer pending. A step that is not yet due changes nothing.
Follows: 10_mesh_multidevice.md (Joining); 02_slate_and_device_rules.md (The Slate). -/
def Obligations.SlateStepMovesTheCount : Prop :=
  ∀ (s : State) (t : Nat) (k : Int), s.dev.live = true → s.dev.mesh.step = some (t, k) →
    (t ≤ s.dev.slate → s.dev.mstate ≠ mSTEPPING → s.dev.cfg.passAt = none → (∀ i, i < 32 → (s.dev.cut i).live = false) →
      Does .slateStep s (fun e => e.slate = steppedCount s.dev.slate k ∧ e.mesh.step = none ∧
        e.bit SLT_STAT_STEPPED = true ∧ e.bit MSH_EVT_STEP = true)) ∧
    (s.dev.slate < t → Does .slateStep s (fun e => e = s.dev))

/-- A write that would enable a second slot on a source already held is ignored and logs CTY code 0x0F; a slot newly
enabled starts in LOS, after which Continuity votes. While its lane is down, the loss of lock returns an enabled slot
of kind 3 to LOS at once, flags it, drops its sample and logs code 0x03; an offset beyond FREQ_LIM for a second does
so with code 0x04 and the measured offset, and while it is not beyond it nothing changes. A slot in LOS whose loss
condition has cleared moves to QUALIFYING, and one whose has not stays; after QUAL_TIME seconds it is QUALIFIED, or
in WAIT where it is better than a selected slot. On the tick of a loop run the slots that have waited out WTR in
revertive mode become QUALIFIED and the selectors run; on another tick, or with none, nothing changes. With LO_IN
more than 1,000 ppm off for 1 ms and the crystal good, LO_FAIL sets, the synthesiser takes the crystal and code 0x0A
is logged; off for less than that nothing changes.
Follows: 03_continuity_timing.md (Reference slots; Qualification; LO failure). -/
def Obligations.ReferenceSlotsQualify : Prop :=
  ∀ (s : State) (rq : Requester) (n : Fin 8) (v : Word),
    let d := s.dev
    let src := sourceOf (fieldGet 4 4 v) (fieldGet 16 9 v)
    (Reaches d (CTY_REFn_CFG n) →
      (fieldGet 0 1 v = 1 → d.sourceHeld n src = true → Does (.refSlotEnable rq n v) s (fun e =>
        Frame logRegs d e ∧
        Logs d e 0x02 0x0F .warn [n, fieldGet 4 4 v, fieldGet 16 9 v, fieldGet 16 9 v / 256, 0])) ∧
      (fieldGet 0 1 v = 1 → d.sourceHeld n src = false → d.bit (CTY_REFn_CFG_EN n) = false →
        Does (.refSlotEnable rq n v) s (fun e => ∃ m : Dev, e = m.ctyVotes ∧ m.rf (CTY_REFn_STAT_QSTATE n) = 0 ∧
          m.slot n = RefSlot.idle ∧ m.rd (CTY_REFn_CFG n) = (d.plainWrite (CTY_REFn_CFG n) v).rd (CTY_REFn_CFG n)))) ∧
    (d.live = true →
      (d.bit (CTY_REFn_CFG_EN n) = true → d.rf (CTY_REFn_STAT_QSTATE n) ≠ 0 →
        (d.rf (CTY_REFn_CFG_KIND n) = 3 → d.laneDown (d.rf (CTY_REFn_CFG_NUM n)) = true →
          Does (.slotLos n .laneLock) s (fun e => e.rf (CTY_REFn_STAT_QSTATE n) = 0 ∧
            e.bit (CTY_REFn_STAT_LOS n) = true ∧ e.bit CTY_STAT_LOS = true ∧ (e.slot n).sample = none ∧
            Logs d e 0x02 0x03 .warn [n, 3, 1, 0, 0])) ∧
        (∀ t, (d.slot n).offSince = some t → t + ticksPerSec ≤ d.slate → Does (.slotLos n .freqLimit) s (fun e =>
          let o := lowBits 24 (d.rfs (CTY_REFn_STAT_FOFS n))
          e.rf (CTY_REFn_STAT_QSTATE n) = 0 ∧ (e.slot n).sample = none ∧
          Logs d e 0x02 0x04 .warn [n, o, o / 256, o / 65536, 0])) ∧
        ((d.slot n).offSince = none → Does (.slotLos n .freqLimit) s (fun e => e = d))) ∧
      (d.bit (CTY_REFn_CFG_EN n) = true → d.rf (CTY_REFn_STAT_QSTATE n) = 0 →
        (d.lossCleared n = true → Does (.slotLossClear n) s (fun e =>
          e.rf (CTY_REFn_STAT_QSTATE n) = 1 ∧ (e.slot n).qualSince = d.slate ∧ RegsBut [CTY_REFn_STAT n] d e)) ∧
        (d.lossCleared n = false → Does (.slotLossClear n) s (fun e => e = d))) ∧
      (d.rf (CTY_REFn_STAT_QSTATE n) = 1 →
        (d.slot n).qualSince + d.rf (CTY_REFn_QUAL_QUAL_TIME n) * ticksPerSec ≤ d.slate →
        Does (.slotQualified n) s (fun e =>
          e.rf (CTY_REFn_STAT_QSTATE n) = (if d.betterThanSelected n then 3 else 2) ∧ RegsBut [CTY_REFn_STAT n] d e)) ∧
      (∀ diffT diffF : Int,
        (d.slate % ticksPerMs = 0 → d.restoreDue ≠ [] → Does (.waitToRestore diffT diffF) s (fun e =>
          e = (d.restoreDue.foldl Dev.restored d).selectors diffT diffF)) ∧
        (d.slate % ticksPerMs ≠ 0 ∨ d.restoreDue = [] → Does (.waitToRestore diffT diffF) s (fun e => e = d))) ∧
      (∀ (ppm : Int) (ns : Nat), 1000 < ppm ∨ ppm < -1000 → d.bit CKC_STAT_XTAL_OK = true → d.cty.loXtal = false →
        (1000000 ≤ ns → Does (.loFailure ppm ns) s (fun e => e.bit CTY_STAT_LO_FAIL = true ∧ e.cty.loXtal = true ∧
          Logs d e 0x02 0x0A .error [lowBits 16 ppm, lowBits 16 ppm / 256, 0, 0, 0])) ∧
        (ns < 1000000 → Does (.loFailure ppm ns) s (fun e => e = d))))

/-- On a device that runs, a LOOP_RUN on a tick that is a multiple of 245,760 and has had none does the loop's work,
once: a second one on that tick, and one on any other tick, changes nothing. Held in free-run with the correction at
0, no history and no valid model, that work leaves FREERUN, keeps the correction at 0 and sets the bound to all ones.
A PTP_OFFSET_WRITE that reaches CTY_PTP_OFS adds the written offset to its PTP slot, or discards it with CTY code
0x0B where the slot is not of kind 2. On a second boundary PTP_PHASE_SAMPLE makes the lower median of the offsets the
slot's sample and empties the list. A PPS_IN_EDGE of an enabled PPS slot is rejected with code 0x05 where it is
shorter than 100 ns, where its second has had an edge, and where it lies more than 24,576 ticks off; otherwise its
phase becomes the sample of its second.
Follows: 03_continuity_timing.md (The loop; Phase samples; Timing inputs). -/
def Obligations.TheLoopRunsOnItsTick : Prop :=
  ∀ (s : State) (n : Fin 8),
    let d := s.dev
    (∀ inp : LoopInput,
      (d.live = true → d.slate % ticksPerMs = 0 → d.cty.lastRun ≠ some d.slate → Does (.loopRun inp) s (fun e =>
        e = ({ d with cty := { d.cty with lastRun := some d.slate } }).loopWork inp)) ∧
      (d.slate % ticksPerMs ≠ 0 ∨ d.cty.lastRun = some d.slate → Does (.loopRun inp) s (fun e => e = d)) ∧
      (d.live = true → d.slate % ticksPerMs = 0 → d.cty.lastRun ≠ some d.slate → d.rf CTY_CTL_MODE = 1 →
        d.rf CTY_STAT_STATE = ctyFREERUN → d.bit CTY_STAT_MDL_VALID = false → d.fcw = 0 → d.cty.fcwHist = [] →
        Does (.loopRun inp) s (fun e => e.rf CTY_STAT_STATE = ctyFREERUN ∧ e.fcw = 0 ∧
          e.rf CTY_TE_BOUND_BOUND = 0xFFFFFFFF ∧ e.cty.lastRun = some d.slate))) ∧
    (∀ (rq : Requester) (v : Word), Reaches d CTY_PTP_OFS →
      let k := d.rf CTY_PTP_META_SLOT
      (d.rf (CTY_REFn_CFG_KIND k) = 2 → Does (.ptpOffsetWrite rq v) s (fun e =>
        (e.slot k).offsets = (v.toInt * 65536 + (d.rf CTY_PTP_META_FRAC : Nat)) :: (d.slot k).offsets ∧
        (e.slot k).heardAt = some d.slate ∧ e.regs = d.regs)) ∧
      (d.rf (CTY_REFn_CFG_KIND k) ≠ 2 → Does (.ptpOffsetWrite rq v) s (fun e =>
        Frame logRegs d e ∧ Logs d e 0x02 0x0B .note [k, 0, 0, 0, 0]))) ∧
    (d.live = true → d.secondEdge = true → d.bit (CTY_REFn_CFG_EN n) = true → d.rf (CTY_REFn_CFG_KIND n) = 2 →
      Does (.ptpPhaseSample n) s (fun e => (e.slot n).offsets = [] ∧ (e.slot n).sample = medianLow (d.slot n).offsets ∧
        (e.slot n).sampleAt = d.slate ∧ e.regs = d.regs)) ∧
    (∀ (w : Nat) (subPs : Int), d.live = true → d.bit (CTY_REFn_CFG_EN n) = true → d.rf (CTY_REFn_CFG_KIND n) = 1 →
      let us := lowBits 16 (d.edgeOfs * 3125 / 768000)
      let twice := d.cty.mapped = true ∧ (d.slot n).lastSec = some d.nearSec
      let far := d.cty.mapped = true ∧ (24576 < d.edgeOfs ∨ d.edgeOfs < -24576)
      (w < 100 → Does (.ppsInEdge n w subPs) s (fun e =>
        Frame logRegs d e ∧ Logs d e 0x02 0x05 .note [n, us, us / 256, 2, 0])) ∧
      (100 ≤ w → twice → Does (.ppsInEdge n w subPs) s (fun e =>
        Frame logRegs d e ∧ Logs d e 0x02 0x05 .note [n, us, us / 256, 0, 0])) ∧
      (100 ≤ w → ¬ twice → far → Does (.ppsInEdge n w subPs) s (fun e =>
        Frame logRegs d e ∧ Logs d e 0x02 0x05 .note [n, us, us / 256, 1, 0])) ∧
      (100 ≤ w → ¬ twice → ¬ far → Does (.ppsInEdge n w subPs) s (fun e =>
        (e.slot n).sample = some (roundFree d.free (d.edgeOfs * 3125000 + subPs * 768) 768) ∧
        (e.slot n).sampleAt = d.slate ∧ (e.slot n).lastSec = some d.nearSec ∧ e.regs = d.regs)))

/-- A write of CTY_TOD_SET other than 0 waits, and at the next second boundary MAP_SEC moves by it and TOD_STEP sets.
CLEAR erases the model: no parameter or sample is kept, and MDL_VALID and LO_FAIL are clear. FREEZE set begins a
restore; with it set a low and a high word write the selected parameter 0 to 12; with it clear they are ignored;
clearing FREEZE after such a write makes the model valid. A second that ends in LOCKED long enough yields a sample
that waits 16 s. MODEL_REFIT, where one is due, records its tick and how many samples lie in AWIN; where the samples
fix a fit, the refit completes: the fitted coefficients are stored, rounded, with the present tick, and MDL_VALID
says whether AWIN holds 86,400 samples; where they fix none, no other parameter changes and MDL_VALID clears. Where
none is due nothing changes.
Follows: 03_continuity_timing.md (Time of day; The oscillator model). -/
def Obligations.TimeOfDaySteps : Prop :=
  ∀ (s : State) (rq : Requester) (v lo hi : Word),
    let d := s.dev
    (Reaches d CTY_TOD_SET → v ≠ 0 → Does (.todSetWrite rq v) s (fun e => e.cty.todPend = v.toInt ∧ e.regs = d.regs)) ∧
    (Counting d → d.live = true → d.secondEdge = true → d.cty.todPend ≠ 0 → Does .todStep s (fun e =>
      e.rd CTY_MAP_SEC_LO = BitVec.ofNat 32 (lowBits 48 ((d.mapSec : Int) + d.cty.todPend)) ∧
      e.rd CTY_MAP_SEC_HI = BitVec.ofNat 32 (lowBits 48 ((d.mapSec : Int) + d.cty.todPend) / 2 ^ 32) ∧
      e.cty.todPend = 0 ∧ e.bit CTY_STAT_TOD_STEP = true)) ∧
    (Reaches d CTY_MDL_CTL →
      Does (.modelClear rq v) s (fun e => e.cty.params = [] ∧ e.cty.samples = [] ∧ e.bit CTY_STAT_MDL_VALID = false ∧
        e.bit CTY_STAT_LO_FAIL = false) ∧
      (v.getLsbD 31 = false → d.bit CTY_MDL_CTL_FREEZE = false → Does (.modelFreeze rq v) s (fun e =>
        e.bit CTY_MDL_CTL_FREEZE = true ∧ e.cty.mdlRestored = false ∧ e.cty.params = d.cty.params)) ∧
      (v.getLsbD 31 = false → d.bit CTY_MDL_CTL_FREEZE = true → d.cty.mdlRestored = true → Does (.modelUnfreeze rq v) s (fun e =>
        e.bit CTY_MDL_CTL_FREEZE = false ∧ e.bit CTY_STAT_MDL_VALID = true ∧ e.cty.everLocked = true))) ∧
    (Reaches d CTY_MDL_VAL_LO → Reaches d CTY_MDL_VAL_HI →
      (d.bit CTY_MDL_CTL_FREEZE = true → d.rf CTY_MDL_SEL_INDEX ≤ 12 → Does (.modelParamWrite rq lo hi) s (fun e =>
        e.param (d.rf CTY_MDL_SEL_INDEX) = signedOf 64 (hi.toNat * 2 ^ 32 + lo.toNat) ∧ e.cty.mdlRestored = true ∧
        e.regs = d.regs)) ∧
      (d.bit CTY_MDL_CTL_FREEZE = false → d.cty.mdlLo = none → Does (.modelParamWrite rq lo hi) s (fun e => e = d.ok))) ∧
    (d.live = true →
      (∀ since, d.cty.lockedSince = some since → since + ticksPerSec ≤ d.slate → d.rf CTY_STAT_STATE = ctyLOCKED →
        d.slate % ticksPerSec = 0 → d.loBad = false → d.bit CTY_MDL_CTL_FREEZE = false →
        d.cty.fcwHist ≠ [] → d.cty.tempHist ≠ [] → d.cty.pendSamples = [] → Does .modelSample s (fun e =>
          e.cty.pendSamples.length = 1 ∧ e.cty.pendSamples.map (fun m => m.tick) = [d.slate] ∧ RegsBut [CTY_STAT] d e)) ∧
      (d.refitDue = false → Does .modelRefit s (fun e => e = d)) ∧
      (d.refitDue = true →
        (∀ r, d.refitFit = some r → Does .modelRefit s (fun e =>
          e.cty.lastRefit = d.slate ∧ e.param 12 = (d.inAwin.length : Int) ∧ e.cty.refitDone = true ∧
          e.param 0 = ratRound d.free r.1.1 ∧ e.param 1 = ratRound (d.free + 1) r.1.2 ∧ e.param 2 = ratRound (d.free + 3) r.2.1 ∧
          e.param 3 = ratRound (d.free + 4) r.2.2.1 ∧ e.param 4 = ratRound (d.free + 5) r.2.2.2 ∧
          e.param 11 = (d.slate : Int) ∧ (e.bit CTY_STAT_MDL_VALID = true ↔ 86400 ≤ d.inAwin.length))) ∧
        (d.refitFit = none → Does .modelRefit s (fun e =>
          e.cty.lastRefit = d.slate ∧ e.param 12 = (d.inAwin.length : Int) ∧ e.cty.refitDone = false ∧
          (∀ i, i ≠ 12 → e.param i = d.param i) ∧ e.bit CTY_STAT_MDL_VALID = false))))

/-- On a second boundary an enabled PPS_OUT rises with its shift in whole cycles and fine steps and its width. SYSREF in
continuous mode pulses on each qualifying tick and on no other; a write of MODE 2 starts a burst of COUNT pulses
4,096 ticks later, and a count of 0 none. START of a time error measurement with a window of 0 is DONE at once with
zero results, otherwise runs for WINDOW seconds; a second in which a point has no sample counts without being used;
its last second sets DONE with USED and the minimum and maximum seen, and within a second nothing changes. A sensor
reading in range is taken; one outside, or none, fails the sensor and logs CTY code 0x09. A received byte enters the
FIFO, or is dropped with FERR or OVR and code 0x0D; a read returns and removes the oldest.
Follows: 03_continuity_timing.md (Timing outputs; Measuring time error; Timing inputs). -/
def Obligations.TimingOutputsAndInputs : Prop :=
  ∀ (s : State) (rq : Requester) (n : Fin 8) (v : Word),
    let d := s.dev
    (Counting d → d.live = true → d.secondEdge = true → d.bit CTY_PPS_CTL_EN = true → Does .ppsOutEdge s (fun e =>
      let dly := d.rfs CTY_PPS_DLY_DLY
      e = d.out (.ppsOut (dly * 384 / 390625) (roundHalfUp (dly * 384 - dly * 384 / 390625 * 390625) (15 * 384))
        (max 1 (min 999 (d.rf CTY_PPS_CTL_WIDTH)))))) ∧
    (d.live = true → d.rf (CTY_SYSs_CTL_MODE n) = 1 → d.rf (CTY_SYSs_PER_PER n) ≠ 0 →
      let r := ((d.slate : Int) - (d.rf (CTY_SYSs_OFS_OFS n) : Nat)) % (d.rf (CTY_SYSs_PER_PER n) : Int)
      (r = 0 → Does (.sysrefPulse n) s (fun e => e = d.sysrefOut n)) ∧ (r ≠ 0 → Does (.sysrefPulse n) s (fun e => e = d))) ∧
    (Reaches d (CTY_SYSs_CTL n) → Does (.sysrefGappedStart rq n v) s (fun e =>
      SMap.at none e.cty.bursts n =
        if fieldGet 8 8 v = 0 then none else some { start := d.slate + 4096, left := fieldGet 8 8 v })) ∧
    (Reaches d CTY_TEM_CTL →
      (d.rf CTY_TEM_WIN_WINDOW = 0 → Does (.temStart rq v) s (fun e =>
        e.bit CTY_TEM_CTL_DONE = true ∧ e.rd CTY_TEM_MEAN = 0 ∧ e.rd CTY_TEM_MIN = 0 ∧ e.rd CTY_TEM_MAX = 0)) ∧
      (d.rf CTY_TEM_WIN_WINDOW ≠ 0 → Does (.temStart rq v) s (fun e => e.bit CTY_TEM_CTL_DONE = false ∧
        e.cty.tem = some { next := d.slate + ticksPerSec, left := d.rf CTY_TEM_WIN_WINDOW, used := 0, sum := 0, lo := 0, hi := 0 }))) ∧
    (d.live = true → ∀ (r : TemRun) (phases : List (Fin 8 × Int)), d.cty.tem = some r →
      (∀ x, r.left = 1 → r.used ≠ 0 → r.next ≤ d.slate → d.temDiff phases = some x → Does (.temSample phases) s (fun e =>
        e.cty.tem = none ∧ e.bit CTY_TEM_CTL_DONE = true ∧ e.rf CTY_TEM_CTL_USED = (r.used + 1) % 2 ^ CTY_TEM_CTL_USED.w ∧
        e.rd CTY_TEM_MIN = (d.wfs CTY_TEM_MIN_VALUE (satTo 32 (min r.lo x))).rd CTY_TEM_MIN ∧
        e.rd CTY_TEM_MAX = (d.wfs CTY_TEM_MAX_VALUE (satTo 32 (max r.hi x))).rd CTY_TEM_MAX)) ∧
      (1 < r.left → r.next ≤ d.slate → d.temDiff phases = none → Does (.temSample phases) s (fun e =>
        e.cty.tem = some { r with left := r.left - 1, next := r.next + ticksPerSec })) ∧
      (d.slate < r.next → Does (.temSample phases) s (fun e => e = d))) ∧
    (d.live = true → d.rf CTY_MDL_CTL_SENSOR = 1 →
      Does (.extSensorPoll none) s (fun e => e.cty.tempFail = true ∧ Logs d e 0x02 0x09 .warn [1, 0, 0, 0, 0]) ∧
      (∀ t : BitVec 16, -60 * 256 ≤ t.toInt → t.toInt ≤ 150 * 256 → Does (.extSensorPoll (some t)) s (fun e =>
        e.cty.tempFail = false ∧ e.cty.extTemp = t.toInt ∧ e.regs = d.regs))) ∧
    (d.live = true → ∀ b : Byte,
      Does (.todRxByte b true) s (fun e => e.bit CTY_TODRX_FERR = true ∧ e.cty.todFifo = d.cty.todFifo ∧
        Logs d e 0x02 0x0D .note [0, 0, 0, 0, 0]) ∧
      (d.cty.todFifo.length < 256 → Does (.todRxByte b false) s (fun e => e.cty.todFifo = d.cty.todFifo ++ [b] ∧
        e.bit CTY_TODRX_VALID = true ∧ RegsBut [CTY_TODRX] d e)) ∧
      (256 ≤ d.cty.todFifo.length → Does (.todRxByte b false) s (fun e => e.bit CTY_TODRX_OVR = true ∧
        e.cty.todFifo = d.cty.todFifo))) ∧
    (Reaches d CTY_TODRX → Does (.todrxRead rq) s (fun e => e.resp = .data (d.rd CTY_TODRX) ∧
      e.cty.todFifo = d.cty.todFifo.drop 1 ∧ RegsBut [CTY_TODRX] d e))

/-- For a die: a probe select write is taken when no capture is active and its tile exists, and otherwise refused with
FAB code 0x06. ARM with POST between 1 and 16,384, every enabled probe on the clock and no passed tick arms the unit
with no sample; POST 0 is DONE at once; a POST above 16,384 is aborted with LENGTH; a probe off the clock, or a
trigger tick that is not ahead, ends it with its status and FAB code 0x08. SWTRIG of an ARMED capture awaits the next
sample: the clock cycle that takes it makes the unit TRIGGERED, with the cycle and the tick. In a TRIGGERED unit with
one sample left the next cycle makes it DONE. While a capture is not ARMED, CAPTURE_TRIGGER changes nothing, and
while it is not TRIGGERED, CAPTURE_DONE changes nothing. ABORT of an active capture ends it with ABORT and FAB code
0x08.
Follows: 04_fabric_logic_and_routing.md (Probes; Capture). -/
def Obligations.CaptureArmsTriggersAndEnds : Prop :=
  ∀ (s : State) (rq : Requester) (die : Fin 2) (n : Fin 64) (v : Word) (k : Nat) (ins : List FabricInput),
    let d := s.dev
    let f := d.rf (FAB_CAP_CTL_CLK die)
    let nextCycle := SMap.at 0 d.fab.ran f = k ∧ k < d.synthCycles f
    (Reaches d (FAB_PRB_SELn die n) →
      (7199 < fieldGet 0 13 v → Does (.probeSelectWrite rq die n v) s (fun e =>
        Frame logRegs d e ∧ Logs d e 0x1A 0x06 .warn [die, n, 0, 0, 0])) ∧
      (fieldGet 0 13 v ≤ 7199 → d.capActive die = true → Does (.probeSelectWrite rq die n v) s (fun e =>
        Frame logRegs d e ∧ Logs d e 0x1A 0x06 .warn [die, n, 1, 0, 0])) ∧
      (fieldGet 0 13 v ≤ 7199 → d.capActive die = false → Does (.probeSelectWrite rq die n v) s (fun e =>
        e = d.ok.plainWrite (FAB_PRB_SELn die n) v))) ∧
    (Reaches d (FAB_CAP_CTL die) → d.capActive die = false → v.getLsbD 1 = false → v.getLsbD 2 = false →
      let w := d.ok.plainWrite (FAB_CAP_CTL die) (v ||| 1)
      let post := w.rf (FAB_CAP_CTL_POST die)
      let past := w.rf (FAB_CAP_CTL_TRIG_SRC die) = 2 ∧ w.rd64 (FAB_CAP_AT_LO die) (FAB_CAP_AT_HI die) ≤ d.slate
      (post = 0 → Does (.captureArm rq die v) s (fun e => e.rf (FAB_CAP_STAT_STATE die) = 3 ∧
        e.rf (FAB_CAP_STAT_STATUS die) = stDONE ∧ e.bit (FAB_CAP_STAT_DONE die) = true)) ∧
      (16384 < post → Does (.captureArm rq die v) s (fun e => e.rf (FAB_CAP_STAT_STATE die) = 4 ∧
        e.rf (FAB_CAP_STAT_STATUS die) = stLENGTH ∧ e.bit (FAB_CAP_STAT_ENDED die) = true)) ∧
      (0 < post → post ≤ 16384 →
        (w.capOnClock die = false → Does (.captureArm rq die v) s (fun e => e.rf (FAB_CAP_STAT_STATE die) = 4 ∧
          e.rf (FAB_CAP_STAT_STATUS die) = 9 ∧ Logs d e 0x1A 0x08 .warn [die, 9, 3, 0, 0])) ∧
        (w.capOnClock die = true → past → Does (.captureArm rq die v) s (fun e => e.rf (FAB_CAP_STAT_STATE die) = 4 ∧
          e.rf (FAB_CAP_STAT_STATUS die) = 8 ∧ Logs d e 0x1A 0x08 .warn [die, 8, 2, 0, 0])) ∧
        (w.capOnClock die = true → ¬ past → Does (.captureArm rq die v) s (fun e => e.rf (FAB_CAP_STAT_STATE die) = 1 ∧
          e.rf (FAB_CAP_CNT_COUNT die) = 0 ∧ (e.capOf die).buf = [] ∧ (e.capOf die).sw = false)))) ∧
    (d.rf (FAB_CAP_STAT_STATE die) ≠ 1 → Does (.captureTrigger die k ins) s (fun e => e = d)) ∧
    (d.rf (FAB_CAP_STAT_STATE die) ≠ 2 → Does (.captureDone die k ins) s (fun e => e = d)) ∧
    (d.live = true → d.rf (FAB_CAP_STAT_STATE die) = 1 → (d.capOf die).sw = true → nextCycle → 2 ≤ d.rf (FAB_CAP_CTL_POST die) →
      Does (.captureTrigger die k ins) s (fun e => e.rf (FAB_CAP_STAT_STATE die) = 2 ∧
        e.rf (FAB_CAP_CNT_PHASE die) = k % 2 ^ (FAB_CAP_CNT_PHASE die).w ∧
        e.rd (FAB_CAP_TRIG_TICK_LO die) = BitVec.ofNat 32 d.slate ∧
        e.rd (FAB_CAP_TRIG_TICK_HI die) = BitVec.ofNat 32 (d.slate / 2 ^ 32))) ∧
    (d.live = true → d.rf (FAB_CAP_STAT_STATE die) = 2 → (d.capOf die).left = 1 → nextCycle →
      Does (.captureDone die k ins) s (fun e => e.rf (FAB_CAP_STAT_STATE die) = 3 ∧
        e.rf (FAB_CAP_STAT_STATUS die) = stDONE ∧ e.bit (FAB_CAP_STAT_DONE die) = true)) ∧
    (Reaches d (FAB_CAP_CTL die) → d.capActive die = true → v.getLsbD 0 = false →
      (v.getLsbD 2 = false → Does (.captureAbort rq die v) s (fun e => e.rf (FAB_CAP_STAT_STATE die) = 4 ∧
        e.rf (FAB_CAP_STAT_STATUS die) = stABORT ∧ e.bit (FAB_CAP_STAT_ENDED die) = true ∧
        Logs d e 0x1A 0x08 .warn [die, stABORT, 0, 0, 0])) ∧
      (v.getLsbD 1 = false → d.rf (FAB_CAP_STAT_STATE die) = 1 → Does (.captureSwtrig rq die v) s (fun e =>
        e = d.ok.setCap die { d.capOf die with sw := true })))

/-- For a RAM whose tile is live and not under test: a write stores the low bits of its shape's width in its word and
leaves every other word of the shape and every other 40-bit word of the fabric; a read beside a write takes the old
word, on its schedule; with both ports writing one word port A's value is stored, COLL sets and the collision counts;
in a protected shape a corrected read counts and sets CE and changes no word, and a read beyond correction sets UE,
logs FAB code 0x0B and is delivered with PSN. A push joins the tail of the queue while it has room, as its side sees
it, and otherwise overflows; a pop takes the head, or underflows. A deep RAM's write and read act alike.
Follows: 05_fabric_memory_and_arithmetic.md (Tile RAMs; Queue shape; Deep RAMs; Memory errors). -/
def Obligations.FabricMemoriesReadAndWrite : Prop :=
  ∀ (s : State) (die : Fin 2) (ram : Fin 2560) (deep : Fin 128) (shape : RamShape) (a : BitVec 16) (x y : BitVec 40) (o : Bool),
    s.dev.live = true → s.dev.marchOf die = none →
    let d := s.dev
    let k := a.toNat % shapeWords shape
    let acc := fun (w : Option (BitVec 40)) (c : Ecc) =>
      ({ addr := a, write := w, psn := false, ecc := c, flip := 0, oreg := o } : PortAccess)
    (d.ramLive .tile die ram = true →
      Does (.tileRamAccess die ram shape (some (acc (some x) .clean)) none) s (fun e =>
        e.tileGet die ram shape k = lowN (shapeWidth shape) x ∧ e.regs = d.regs ∧ e.fab.deep = d.fab.deep ∧
        (∀ j, j < shapeWords shape → j ≠ k → e.tileGet die ram shape j = d.tileGet die ram shape j) ∧
        (∀ j, j ≠ tileKey die ram (testWord shape k) → SMap.at 0 e.fab.tile j = SMap.at 0 d.fab.tile j)) ∧
      Does (.tileRamAccess die ram shape (some (acc none .clean)) (some (acc (some y) .clean))) s (fun e =>
        e.tileGet die ram shape k = lowN (shapeWidth shape) y ∧ e.regs = d.regs ∧
        e.outs = .ramRead die .tile ram 0 (d.tileGet die ram shape k) true (shape == .e32 && d.tilePsn die ram k)
          (tileCycles shape o) :: d.outs) ∧
      Does (.tileRamAccess die ram shape (some (acc (some x) .clean)) (some (acc (some y) .clean))) s (fun e =>
        e.tileGet die ram shape k = lowN (shapeWidth shape) x ∧ e.bit (FAB_MEM_STAT_COLL die) = true ∧
        e.rf (FAB_MEM_CNT_COLL_COUNT die) = satU (FAB_MEM_CNT_COLL_COUNT die).w (d.rf (FAB_MEM_CNT_COLL_COUNT die) + 1)) ∧
      (shape = .e32 →
        Does (.tileRamAccess die ram shape (some (acc none .corrected)) none) s (fun e =>
          e.bit (FAB_MEM_STAT_CE die) = true ∧ e.fab.tile = d.fab.tile ∧
          e.rf (FAB_MEM_CNT_CE_COUNT die) = satU (FAB_MEM_CNT_CE_COUNT die).w (d.rf (FAB_MEM_CNT_CE_COUNT die) + 1)) ∧
        Does (.tileRamAccess die ram shape (some (acc none .uncorrectable)) none) s (fun e =>
          e.bit (FAB_MEM_STAT_UE die) = true ∧ e.fab.tile = d.fab.tile ∧
          e.outs = .ramRead die .tile ram 0 (d.tileGet die ram shape k) true true (tileCycles shape o) :: d.outs ∧
          Logs d e 0x1A 0x0B .error [die, 0, ram, ram / 256, 0])) ∧
      (∀ ages : List Nat, shape ≠ .e32 → (∀ g ∈ ages, g ≠ 3) →
        let lag := (ages.filter (fun g => decide (g < 3))).length
        let n := (d.queueOf die ram).length
        (n + lag < shapeWords shape → Does (.queuePush die ram shape x ages) s (fun e =>
          e.queueOf die ram = d.queueOf die ram ++ [lowN (shapeWidth shape) x] ∧ e.regs = d.regs)) ∧
        (shapeWords shape ≤ n + lag → Does (.queuePush die ram shape x ages) s (fun e =>
          e.queueOf die ram = d.queueOf die ram ∧ e.bit (FAB_MEM_STAT_QERR die) = true ∧
          Logs d e 0x1A 0x0D .warn [die, ram, ram / 256, 0, 0])) ∧
        (lag < n → Does (.queuePop die ram shape o ages) s (fun e =>
          e.queueOf die ram = (d.queueOf die ram).tail ∧
          e.outs = .ramRead die .tile ram 1 ((d.queueOf die ram).headD 0) true false (tileCycles shape o) :: d.outs)) ∧
        (n ≤ lag → Does (.queuePop die ram shape o ages) s (fun e =>
          e.queueOf die ram = d.queueOf die ram ∧ e.bit (FAB_MEM_STAT_QERR die) = true)))) ∧
    (d.ramLive .deep die deep = true →
      Does (.deepRamAccess die deep (acc (some x) .clean)) s (fun e => e.deepWord die deep a.toNat = x.setWidth 32 ∧ e.regs = d.regs ∧
        (∀ j, j ≠ deepKey die deep a.toNat → SMap.at 0 e.fab.deep j = SMap.at 0 d.fab.deep j)) ∧
      Does (.deepRamAccess die deep (acc none .clean)) s (fun e => e.fab = d.fab ∧ e.regs = d.regs ∧
        e.outs = .ramRead die .deep deep 0 (lowN 32 ((d.deepWord die deep a.toNat).setWidth 40)) true
          (SMap.at false d.fab.deepPsn (deepKey die deep a.toNat)) 5 :: d.outs))

/-- One cycle of a slice on a live tile moves its operands one stage on and drives its outputs, and in single and dual
8-bit mode nothing but that slice and its output changes. With a product waiting, in single mode, the accumulator
becomes the low 58 bits (or the clamped value) of the sum of the accumulator (0 with LOAD), the product (its negative
with SUB), C where enabled and the cascade where enabled; the overflow flag sets where the sum is outside 58 bits
and, without LOAD, stays set; the output is that sum narrowed. In complex mode the even slice of a pair forms ac - bd
of what the two slices hold. A slice on an isolated tile keeps what it holds and drives zero.
Follows: 05_fabric_memory_and_arithmetic.md (Arithmetic slices). -/
def Obligations.SlicesMultiplyAndAccumulate : Prop :=
  ∀ (s : State) (die : Fin 2) (n : Fin 6144) (cfg : SliceConfig) (inp : SliceInput) (pcin : BitVec 58) (pp : Bool)
    (mate : SliceCycle), s.dev.live = true →
    let d := s.dev
    let key := die.val * 6144 + n.val
    let x := d.slice die n
    let y := fun (e : Dev) => e.slice die n
    let c : SliceCycle := { cfg := cfg, inp := inp, pcin := pcin, pcinPsn := pp }
    (d.tileDead die (cfg.host.val % 120) (cfg.host.val / 120) = none →
      (cfg.mode ≠ .complex → Does (.sliceOperation die n c mate) s (fun e =>
        (y e).s1 = some inp ∧ (y e).s2 = x.s1.map (fun i => (i, preAdder cfg i)) ∧
        e.regs = d.regs ∧ e.fab.tile = d.fab.tile ∧
        (∀ j, j ≠ key → SMap.at Slice.idle e.fab.slices j = SMap.at Slice.idle d.fab.slices j) ∧
        e.outs = .sliceOut die n (y e).out (y e).ovf (y e).sat (y e).psn :: d.outs ∧
        (∀ q, x.s3 = some q → cfg.mode = .single →
          let sum := (if q.load then 0 else x.acc.toInt) + (if q.sub then -q.p else q.p) +
            (if cfg.cEn then q.c else 0).toInt + (if cfg.casc then pcin else 0).toInt
          (y e).acc = BitVec.ofInt 58 (clip 58 cfg.accSat sum) ∧
          (y e).ovf = (outside 58 sum || (x.ovf && !q.load)) ∧
          (y e).out = BitVec.ofNat 48 (lowBits (cfg.width + 1) (clip (cfg.width + 1) cfg.outSat (narrow cfg.shift sum)))) ∧
        (∀ i, x.s2 = some (i, preAdder cfg i) → cfg.mode = .single →
          (y e).s3 = some { p := preAdder cfg i * i.b.toInt, pHi := 0, c := i.c, load := i.load, sub := i.sub, psn := i.psn }))) ∧
      (cfg.mode = .complex → n.val % 2 = 0 → ∀ (i j : SliceInput) (p q : Int), x.s2 = some (i, p) →
        (d.slice die (n.val + 1)).s2 = some (j, q) → i.conj = false →
        Does (.sliceOperation die n c mate) s (fun e => (y e).s3 =
          some { p := sgn 18 i.a * sgn 18 j.a - sgn 18 i.b * sgn 18 j.b, pHi := 0, c := i.c, load := i.load, sub := i.sub, psn := i.psn }))) ∧
    (d.tileDead die (cfg.host.val % 120) (cfg.host.val / 120) ≠ none → cfg.mode ≠ .complex →
      Does (.sliceOperation die n c mate) s (fun e => e = d.out (.sliceOut die n 0 false false false)))

/-- START with no kinds selected is DONE at once; with a run RUNNING it is ignored; where nothing bars the run it is
RUNNING with its selection from the present tick. When a preserving run's window is restored the next window is under
test, and an aborted run ends with ABORT. A run that has had its time and, preserving, comes to its last window is
DONE, a destructive one with the selected memories holding zero; before that MARCH_DONE changes nothing. The first
read of a memory that differs from what was written counts as one failure and sets FAIL. ABORT of a destructive run
ends it with ABORT, of a preserving one waits for its window.
Follows: 05_fabric_memory_and_arithmetic.md (March tests). -/
def Obligations.MarchRunsTestTheMemories : Prop :=
  ∀ (s : State) (rq : Requester) (eng : Fin 3) (v : Word),
    let d := s.dev
    let w := if eng.val = 2 then (v ||| 1) &&& ~~~(0x60 : Word) else (v ||| 1)
    let m0 := d.plainWrite (FAB_MT_CTL eng) w
    (Reaches d (FAB_MT_CTL eng) → v.getLsbD 1 = false →
      (d.rf (FAB_MT_STAT_STATE eng) = 1 → Does (.marchStart rq eng v) s (fun e => e = d.ok)) ∧
      (d.rf (FAB_MT_STAT_STATE eng) ≠ 1 → (m0.marchSel eng).1 = 0 → Does (.marchStart rq eng v) s (fun e =>
        e.rf (FAB_MT_STAT_STATE eng) = 2 ∧ e.rf (FAB_MT_STAT_STATUS eng) = stDONE ∧ e.bit (FAB_MT_STAT_DONE eng) = true ∧
        e.marchOf eng = none)) ∧
      (d.rf (FAB_MT_STAT_STATE eng) ≠ 1 → (m0.marchSel eng).1 ≠ 0 →
        (((d.ok.plainWrite (FAB_MT_CTL eng) w).wr (FAB_MT_FAIL eng) 0).off (FAB_MT_STAT_FAILS eng)).marchBarred eng
          (m0.bit (FAB_MT_CTL_PRESERVE eng)) = false →
        Does (.marchStart rq eng v) s (fun e => e.rf (FAB_MT_STAT_STATE eng) = 1 ∧
          ∃ m, e.marchOf eng = some m ∧ m.kinds = (m0.marchSel eng).1 ∧ m.since = d.slate ∧ m.window = 0 ∧ m.held = []))) ∧
    (∀ m, d.marchOf eng = some m → d.live = true →
      (m.preserve = true → m.held = [] →
        (m.abort = false → Does (.marchWindowEnd eng [] []) s (fun e =>
          e.marchOf eng = some { m with window := m.window + 1, held := [] } ∧ e.regs = d.regs)) ∧
        (m.abort = true → Does (.marchWindowEnd eng [] []) s (fun e => e.marchOf eng = none ∧
          e.rf (FAB_MT_STAT_STATUS eng) = stABORT ∧ e.rf (FAB_MT_STAT_STATE eng) = 3 ∧ e.bit (FAB_MT_STAT_DONE eng) = true))) ∧
      (d.marchOver eng m = false → Does (.marchDone eng [] []) s (fun e => e = d)) ∧
      (d.marchOver eng m = true → m.preserve = false →
        Does (.marchDone eng [] []) s (fun e => e = (d.marchZero eng m).marchEnd eng stDONE false ∧
          e.rf (FAB_MT_STAT_STATE eng) = 2 ∧ e.bit (FAB_MT_STAT_DONE eng) = true ∧ e.marchOf eng = none) ∧
        (∀ r : MarchRead, marchBad r = true → (m.kindList eng).contains r.kind = true → m.tests r.kind r.index.toNat = true →
          m.failed = [] → Does (.marchDone eng [] [r]) s (fun e => e.marchOf eng = none ∧ e.bit (FAB_MT_STAT_FAIL eng) = true ∧
            e.rf (FAB_MT_STAT_FAILS eng) = satU (FAB_MT_STAT_FAILS eng).w (d.rf (FAB_MT_STAT_FAILS eng) + 1)))) ∧
      (d.marchOver eng m = true → m.preserve = true → m.held = [] → Does (.marchDone eng [] []) s (fun e =>
        e.rf (FAB_MT_STAT_STATE eng) = 2 ∧ e.rf (FAB_MT_STAT_STATUS eng) = stDONE ∧ e.marchOf eng = none)) ∧
      (Reaches d (FAB_MT_CTL eng) → v.getLsbD 0 = false → d.rf (FAB_MT_STAT_STATE eng) = 1 →
        (m.preserve = true → Does (.marchAbort rq eng v []) s (fun e => e.marchOf eng = some { m with abort := true } ∧ e.regs = d.regs)) ∧
        (m.preserve = false → Does (.marchAbort rq eng v []) s (fun e => e.marchOf eng = none ∧
          e.rf (FAB_MT_STAT_STATUS eng) = stABORT))))

/-- On an engine that is ready, each scalar operation leaves in its destination the value of Table SE-6 with the poison
of its sources, leaves every other scalar register, the vectors and the scratchpads as they were, and goes on with
the next bundle: sums and differences modulo 2^32, shifts by the low five bits, the compares' Z, N and poison flags,
immediates sign-extended, MOVL and MOVH halves, address-generator registers written and read, and the time-bus items.
Follows: 06_signal_engines.md (Table SE-6; Poison). -/
def Obligations.ScalarOperationsOfTheEngines : Prop :=
  ∀ (s : State) (n : Fin 64) (sd sa sb : Fin 16) (imm : BitVec 15) (h : BitVec 16) (ag : Fin 4) (r : AgReg),
    EngineReady s.dev n →
    let d := s.dev
    let a := (d.engine n).sreg sa
    let b := (d.engine n).sreg sb
    let sh := b.v.toNat % 32
    let sets := fun (i : Instr) (x : SVal) => Does i s (fun e => (e.engine n).sreg sd = x ∧
      (∀ k, k ≠ sd.val → (e.engine n).sreg k = (d.engine n).sreg k) ∧ (e.engine n).v = (d.engine n).v ∧ e.se.spad = d.se.spad ∧
      e.mem = d.mem ∧ NextBundle d e n)
    let flags := fun (i : Instr) (x y : Word) (p : Bool) => Does i s (fun e => (e.engine n).z = decide (x = y) ∧
      (e.engine n).n = (x - y).msb ∧ (e.engine n).fp = p ∧ (e.engine n).s = (d.engine n).s ∧ NextBundle d e n)
    Does (.seNop n) s (fun e => (e.engine n).s = (d.engine n).s ∧ (e.engine n).v = (d.engine n).v ∧ NextBundle d e n) ∧
    sets (.seAdd n sd sa sb) { v := a.v + b.v, p := a.p || b.p } ∧
    sets (.seSub n sd sa sb) { v := a.v - b.v, p := a.p || b.p } ∧
    sets (.seAnd n sd sa sb) { v := a.v &&& b.v, p := a.p || b.p } ∧
    sets (.seOr n sd sa sb) { v := a.v ||| b.v, p := a.p || b.p } ∧
    sets (.seXor n sd sa sb) { v := a.v ^^^ b.v, p := a.p || b.p } ∧
    sets (.seShl n sd sa sb) { v := a.v <<< sh, p := a.p || b.p } ∧
    sets (.seShr n sd sa sb) { v := a.v >>> sh, p := a.p || b.p } ∧
    sets (.seSar n sd sa sb) { v := a.v.sshiftRight sh, p := a.p || b.p } ∧
    sets (.seMul n sd sa sb) { v := a.v * b.v, p := a.p || b.p } ∧
    flags (.seCmp n sa sb) a.v b.v (a.p || b.p) ∧
    sets (.seAddi n sd sa imm) { v := a.v + BitVec.ofInt 32 imm.toInt, p := a.p } ∧
    flags (.seCmpi n sa imm) a.v (BitVec.ofInt 32 imm.toInt) a.p ∧
    sets (.seMovl n sd h) { v := BitVec.ofNat 32 h.toNat, p := false } ∧
    sets (.seMovh n sd h) { v := (BitVec.ofNat 32 h.toNat <<< 16) ||| (((d.engine n).sreg sd).v &&& 0xFFFF), p := ((d.engine n).sreg sd).p } ∧
    sets (.seMfag n sd ag r) { v := d.rd (agWord n ag (agCode r)), p := false } ∧
    sets (.seRdt n sd 0) { v := BitVec.ofNat 32 d.slate, p := false } ∧
    sets (.seRdt n sd 1) { v := (d.engine n).rdtHi, p := false } ∧
    Does (.seRdt n sd 0) s (fun e => (e.engine n).rdtHi = BitVec.ofNat 32 (d.slate / 2 ^ 32)) ∧
    (a.p = false → Does (.seMtag n ag r sa) s (fun e =>
      e.rd (agWord n ag (agCode r)) = (d.plainWrite (agWord n ag (agCode r)) a.v).rd (agWord n ag (agCode r)) ∧
      e.rf (SE_PC_PC n) = d.rf (SE_PC_PC n) + 1 ∧ (e.engine n).s = (d.engine n).s))

/-- On an engine that is ready, with no memory error: a load puts the elements its address generator addresses in flight,
to land three cycles on, and leaves the memories as they were; a store writes the elements of its register at those
addresses, with their poison, leaves every other element and every other register, and post-modification alone moves
OFS. A vector access through a misaligned base traps with ALIGN and stores nothing.
Follows: 06_signal_engines.md (Tables SE-7, SE-8; Address generators; Traps). -/
def Obligations.MemoryOperationsOfTheEngines : Prop :=
  ∀ (s : State) (n : Fin 64) (ag : Fin 4) (vr : Fin 32) (sr : Fin 16) (pm : Bool), EngineReady s.dev n →
    let d := s.dev
    let eng := d.engine n
    let ofs := if pm then (d.agPost n ag).rf (SE_AGk_OFS_OFS n ag) else d.rf (SE_AGk_OFS_OFS n ag)
    let av := d.agAddr n ag 32 65536
    let a1 := d.agAddr n ag 1 65536
    let yv := d.agAddr n ag 32 16384
    let y1 := d.agAddr n ag 1 16384
    let loads := fun (i : Instr) (w : EngineWrite) => Does i s (fun e => (e.engine n).inflight = [{ left := 3, w := w }] ∧
      e.se.spad = d.se.spad ∧ e.se.coef = d.se.coef ∧ e.rf (SE_AGk_OFS_OFS n ag) = ofs ∧
      e.rf (SE_PC_PC n) = d.rf (SE_PC_PC n) + 1 ∧ (e.engine n).s = eng.s ∧ (e.engine n).v = eng.v)
    (d.agMisaligned n ag = false →
      loads (.seLdv n ag vr pm LaneErrs.none) (.v vr (elemsVec (fun i => d.spadElem n ((av + i) % 65536)))) ∧
      loads (.seLdy n ag vr pm LaneErrs.none) (.v vr (elemsVec (fun i => d.coefElem n ((yv + i) % 16384)))) ∧
      Does (.seStv n ag vr pm) s (fun e =>
        (∀ i, i < 32 → e.spadElem n (av + i) = { v := (eng.vreg vr).elem i, p := (eng.vreg vr).p.getLsbD i }) ∧
        (∀ k, (∀ i, i < 32 → k ≠ n.val * 65536 + (av + i) % 65536) → SMap.at Elem.zero e.se.spad k = SMap.at Elem.zero d.se.spad k) ∧
        e.se.coef = d.se.coef ∧ (e.engine n).s = eng.s ∧ (e.engine n).v = eng.v ∧ e.rf (SE_AGk_OFS_OFS n ag) = ofs)) ∧
    (d.agMisaligned n ag = true →
      Does (.seStv n ag vr pm) s (fun e => e.seState n = seTRAPPED ∧ e.rf (SE_TRAP_CAUSE n) = 4 ∧ e.rf (SE_TRAP_SLOT n) = 1 ∧
        e.se.spad = d.se.spad)) ∧
    loads (.seLdb n ag vr pm LaneErrs.none) (.v vr { x := vecBits (fun _ => (d.spadElem n (a1 % 65536)).v), p := allLanes (d.spadElem n (a1 % 65536)).p }) ∧
    loads (.seLdx n ag sr pm LaneErrs.none) (.s sr { v := (d.spadElem n (a1 % 65536)).v, p := (d.spadElem n (a1 % 65536)).p }) ∧
    loads (.seLdyb n ag vr pm LaneErrs.none) (.v vr { x := vecBits (fun _ => (d.coefElem n (y1 % 16384)).v), p := allLanes (d.coefElem n (y1 % 16384)).p }) ∧
    Does (.seStx n ag sr pm) s (fun e => e.spadElem n a1 = { v := (eng.sreg sr).v, p := (eng.sreg sr).p } ∧
      (∀ k, k ≠ n.val * 65536 + a1 % 65536 → SMap.at Elem.zero e.se.spad k = SMap.at Elem.zero d.se.spad k) ∧
      e.se.coef = d.se.coef ∧ (e.engine n).s = eng.s ∧ e.rf (SE_AGk_OFS_OFS n ag) = ofs)

/-- On an engine that is ready: VADD, VSUB and VMOV put their narrowed, saturated or wrapped lanes in flight for two
cycles, VCMUL and VBFLY for four, with the poison of their sources lane by lane; VMUL, VMAC and VMSB leave the exact
complex products, alone, added to or taken from the set, wrapped or saturated to 48 bits, in the accumulator at once
and for the M slot after four cycles. No scalar or vector register has changed yet, and no memory.
Follows: 06_signal_engines.md (Table SE-9; Arithmetic; Poison). -/
def Obligations.VectorOperationsOfTheEngines : Prop :=
  ∀ (s : State) (n : Fin 64) (acc : Fin 4) (vd va vb vc : Fin 32) (conj sat sh : Bool), EngineReady s.dev n →
    let d := s.dev
    let eng := d.engine n
    let a := eng.vreg va
    let b := eng.vreg vb
    let w := eng.vreg vc
    let out := fun (q : Nat) (x : Int) => clip 16 sat (narrow q x)
    let puts := fun (i : Instr) (l : List InFlight) => Does i s (fun e => (e.engine n).inflight = l ∧ (e.engine n).v = eng.v ∧
      (e.engine n).s = eng.s ∧ (e.engine n).acc = eng.acc ∧ e.se.spad = d.se.spad ∧ NextBundle d e n)
    let old := eng.accOf acc
    let accs := fun (i : Instr) (f : MacFn) (p : BitVec 32) => Does i s (fun e =>
      (e.engine n).accOf acc = accOfLanes (fun i => both (clip 48 (d.bit (SE_CTL_ACC_SAT n)))
        (macLane f (old.lane i) (cmul (a.lane i) (conjOf conj (b.lane i))))) p ∧
      (e.engine n).accM = eng.accM ∧ (e.engine n).v = eng.v ∧ (e.engine n).inflight.length = 1 ∧
      e.rf (SE_PC_PC n) = d.rf (SE_PC_PC n) + 1)
    puts (.seVadd n vd va vb sat sh) [{ left := 2, w := .v vd (vecOf (fun i =>
      (out sh.toNat ((a.lane i).1 + (b.lane i).1), out sh.toNat ((a.lane i).2 + (b.lane i).2))) (a.p ||| b.p)) }] ∧
    puts (.seVsub n vd va vb sat sh) [{ left := 2, w := .v vd (vecOf (fun i =>
      (out sh.toNat ((a.lane i).1 - (b.lane i).1), out sh.toNat ((a.lane i).2 - (b.lane i).2))) (a.p ||| b.p)) }] ∧
    puts (.seVmov n vd va) [{ left := 2, w := .v vd a }] ∧
    puts (.seVcmul n vd va vb conj sat sh) [{ left := 4, w := .v vd (vecOf (fun i =>
      both (out (15 + sh.toNat)) (cmul (a.lane i) (conjOf conj (b.lane i)))) (a.p ||| b.p)) }] ∧
    (vd.val % 2 = 0 → puts (.seVbfly n vd va vb vc 0 conj sat sh)
      [{ left := 4, w := .v vd (vecOf (fun i => (bflyPair conj sat sh.toNat (a.lane i) (b.lane i) (w.lane i)).1) (a.p ||| b.p ||| w.p)) },
       { left := 4, w := .v (vd + 1) (vecOf (fun i => (bflyPair conj sat sh.toNat (a.lane i) (b.lane i) (w.lane i)).2) (a.p ||| b.p ||| w.p)) }]) ∧
    accs (.seVmul n acc va vb conj) .set (a.p ||| b.p) ∧
    accs (.seVmac n acc va vb conj) .add (old.p ||| a.p ||| b.p) ∧
    accs (.seVmsb n acc va vb conj) .sub (old.p ||| a.p ||| b.p)

/-- On an engine that is ready: SLDLO and SLDHI take the next word of the input symbol and put it in flight for their
half, and trap with STREAM where no word waits; SSTLO and SSTHI join the half to the open output symbol; VNAR, VNARS,
VEXPL, VEXPB, VNORM and VSAT put their results in flight for two cycles with the poison of their sources; VSAT with a
K outside 1 to 15 is illegal and traps.
Follows: 06_signal_engines.md (Table SE-10; Stream ports; Traps). -/
def Obligations.StreamAndSpecialOperations : Prop :=
  ∀ (s : State) (n : Fin 64) (acc : Fin 4) (vd va k : Fin 32) (sk : Fin 16), EngineReady s.dev n →
    let d := s.dev
    let eng := d.engine n
    let z := eng.accView acc
    let v := eng.vreg va
    let puts := fun (i : Instr) (l : List InFlight) => Does i s (fun e => (e.engine n).inflight = l ∧ (e.engine n).v = eng.v ∧
      (e.engine n).s = eng.s ∧ (e.engine n).accM = eng.accM ∧ NextBundle d e n)
    let q := (max 0 (min 47 (eng.sreg sk).v.toInt)).toNat
    let m := (List.range 32).foldl (fun m i => min m (min (rsb 16 (v.lane i).1) (rsb 16 (v.lane i).2))) 15
    (∀ w ws rest, eng.inSyms = (w :: ws) :: rest →
      Does (.seSldLo n vd) s (fun e => (e.engine n).inflight = [{ left := 2, w := .half vd false w }] ∧
        (e.engine n).inSyms = ws :: rest ∧ e.rf (SE_PC_PC n) = d.rf (SE_PC_PC n) + 1) ∧
      Does (.seSldHi n vd) s (fun e => (e.engine n).inflight = [{ left := 2, w := .half vd true w }] ∧
        (e.engine n).inSyms = ws :: rest)) ∧
    (eng.inSyms = [] → Does (.seSldLo n vd) s (fun e => e.seState n = seTRAPPED ∧ e.rf (SE_TRAP_CAUSE n) = 6) ∧
      Does (.seSldHi n vd) s (fun e => e.seState n = seTRAPPED ∧ e.rf (SE_TRAP_CAUSE n) = 6)) ∧
    (eng.outOpen.length + (eng.outClosed.map List.length).sum < 512 →
      Does (.seSstLo n va) s (fun e => (e.engine n).outOpen = eng.outOpen ++ [v.half false] ∧ (e.engine n).outClosed = eng.outClosed ∧
        e.rf (SE_PC_PC n) = d.rf (SE_PC_PC n) + 1) ∧
      Does (.seSstHi n va) s (fun e => (e.engine n).outOpen = eng.outOpen ++ [v.half true] ∧ (e.engine n).outClosed = eng.outClosed ∧
        e.rf (SE_PC_PC n) = d.rf (SE_PC_PC n) + 1)) ∧
    puts (.seVnar n vd acc k) [{ left := 2, w := .v vd (narVec z k z.p) }] ∧
    puts (.seVnars n vd acc sk) [{ left := 2, w := .v vd (narVec z q (z.p ||| allLanes (eng.sreg sk).p)) }] ∧
    puts (.seVexpl n vd acc) [{ left := 2, w := .v vd (vecOf (fun i => ((accExp (z.lane i) : Nat), 0)) z.p) }] ∧
    puts (.seVexpb n sk acc) [{ left := 2, w := .s sk { v := BitVec.ofNat 32 ((List.range 32).foldl (fun m i => min m (accExp (z.lane i))) 47), p := z.p != 0 } }] ∧
    puts (.seVnorm n vd va sk) [{ left := 2, w := .v vd (vecOf (fun i => both (fun x => x * 2 ^ m) (v.lane i)) (allLanes (v.p != 0))) },
      { left := 2, w := .s sk { v := BitVec.ofNat 32 m, p := v.p != 0 } }] ∧
    (1 ≤ k.val → k.val ≤ 15 → puts (.seVsat n vd va k) [{ left := 2, w := .v vd (vecOf (fun i => both (satTo (k + 1)) (v.lane i)) v.p) }]) ∧
    (k.val = 0 ∨ 15 < k.val → Does (.seVsat n vd va k) s (fun e => e.seState n = seTRAPPED ∧ e.rf (SE_TRAP_CAUSE n) = 2 ∧
      e.rf (SE_TRAP_SLOT n) = 4))

/-- On an engine that is ready: REP with a count of 0 skips its body, otherwise the body runs with its count; a taken
branch goes to its target, a branch not taken to the next bundle; JMPS goes to the low 11 bits of its register; KICK
advances the mover's TAIL or sets FULL; SEND closes the open symbol; EVT sets its code; BRK halts; DONE ends the
operation, IDLE or, with HALT set, HALTED.
Follows: 06_signal_engines.md (Table SE-11; Loops; Operations). -/
def Obligations.ControlOperationsOfTheEngines : Prop :=
  ∀ (s : State) (n : Fin 64) (len : Fin 32) (cnt : Fin 8) (o : BitVec 8) (code : BitVec 8), EngineReady s.dev n →
    let d := s.dev
    let eng := d.engine n
    let pc := d.rf (SE_PC_PC n)
    let t : Int := (pc : Int) + o.toInt
    let goes := fun (i : Instr) (x : Nat) => Does i s (fun e => e.rf (SE_PC_PC n) = x ∧ (e.engine n).s = eng.s ∧
      (e.engine n).v = eng.v ∧ e.seState n = seRUN ∧ e.se.spad = d.se.spad)
    let c := eng.sreg cnt
    (pc + len.val + 2 < 2048 → c.p = false →
      (c.v = 0 → goes (.seRep n len cnt) (pc + len.val + 2)) ∧
      (c.v ≠ 0 → Does (.seRep n len cnt) s (fun e => e.rf (SE_PC_PC n) = pc + 1 ∧
        (e.engine n).loops = [{ start := pc + 1, len := len.val + 1, left := c.v.toNat }] ∧
        (e.engine n).cache = d.bodyCache n (pc + 1) (len.val + 1)))) ∧
    (0 ≤ t → t ≤ 2047 → goes (.seBr n o) t.toNat ∧
      (eng.fp = false → eng.z = true → goes (.seBrz n o) t.toNat) ∧ (eng.fp = false → eng.z = false → goes (.seBrnz n o) t.toNat)) ∧
    (eng.fp = false → (eng.z = false → goes (.seBrz n o) (pc + 1)) ∧ (eng.z = true → goes (.seBrnz n o) (pc + 1))) ∧
    (c.p = false → goes (.seJmps n cnt) (c.v.toNat % 2048)) ∧
    ((d.rf (DLM_TAIL_TAIL n) + 1) % 16 ≠ d.rf (DLM_STAT_HEAD n) → Does (.seKick n) s (fun e =>
      e.rf (DLM_TAIL_TAIL n) = (d.rf (DLM_TAIL_TAIL n) + 1) % 16 ∧ e.rf (SE_PC_PC n) = pc + 1)) ∧
    ((d.rf (DLM_TAIL_TAIL n) + 1) % 16 = d.rf (DLM_STAT_HEAD n) → Does (.seKick n) s (fun e =>
      e.rf (DLM_TAIL_TAIL n) = d.rf (DLM_TAIL_TAIL n) ∧ e.bit (DLM_STAT_FULL n) = true ∧ e.rf (SE_PC_PC n) = pc + 1)) ∧
    Does (.seSend n) s (fun e => (e.engine n).outOpen = [] ∧
      (e.engine n).outClosed = (if eng.outOpen = [] then eng.outClosed else eng.outClosed ++ [eng.outOpen]) ∧ e.rf (SE_PC_PC n) = pc + 1) ∧
    Does (.seEvt n code) s (fun e => e.rf (SE_EVT_CODE n) = code.toNat ∧ e.bit (SE_STAT_EVT n) = true ∧ e.rf (SE_PC_PC n) = pc + 1) ∧
    Does (.seBrk n) s (fun e => e.seState n = seHALTED ∧ e.rf (SE_PC_PC n) = pc + 1 ∧ (e.engine n).s = eng.s) ∧
    Does (.seDone n) s (fun e => e.seState n = (if d.bit (SE_CTL_HALT n) then seHALTED else seIDLE) ∧ (e.engine n).inOp = false ∧
      (e.engine n).outOpen = [] ∧ e.se.spad = d.se.spad)

/-- A write of HALT halts a running or idle engine; cleared, it lets a halted one run on with its operation or fall idle;
RESUME brings a trapped engine back; STEP on a running one does nothing; on a halted one it issues the bundle at PC:
a bundle of six NOPs moves PC on and leaves the engine halted, a bundle that does not decode traps as ILLEGAL. A
symbol that fits is stored whole, one above 512 words refused with SE code 0x05. A scratchpad access that nothing
holds up, in an idle cycle, reads or writes the element; without one it waits from its tick on, and once it has
waited 2 us it gets an error and SE code 0x07. The external port writes the coefficient element; an address-generator
write is taken unless the engine runs.
Follows: 06_signal_engines.md (Engine controls; Stream ports; Engine memories). -/
def Obligations.EngineControlsAndWindows : Prop :=
  ∀ (s : State) (rq : Requester) (n : Fin 64) (v : Word) (x : BitVec 16) (w : BitVec 14) (words : List StreamWord) (env : IssueEnv)
    (ag : Fin 4) (r : AgReg),
    let d := s.dev
    (Reaches d (SE_CTL n) → v.getLsbD 1 = false → v.getLsbD 2 = false →
      (d.seState n = seRUN ∨ d.seState n = seIDLE → Does (.engineHalt rq n v) s (fun e => e.seState n = seHALTED)) ∧
      (d.seState n = seHALTED → Does (.engineHaltRelease rq n v) s (fun e =>
        e.seState n = if (d.engine n).inOp then seRUN else seIDLE))) ∧
    (Reaches d (SE_CTL n) → v.getLsbD 0 = false → v.getLsbD 2 = false → d.seState n = seRUN →
      Does (.engineStep rq n v env) s (fun e => e.seState n = seRUN ∧ e.se = d.se)) ∧
    (Reaches d (SE_CTL n) → v.getLsbD 0 = true → v.getLsbD 1 = true → v.getLsbD 2 = false → d.seState n = seHALTED → d.seUp n = true →
      (d.engine n).inflight = [] → (d.engine n).loops = [] → (d.engine n).pastEnd = false → d.rf (SE_PC_PC n) < 2047 →
      SMap.at none d.fab.march (n / 32) = none →
      (decodeBundle (d.progBundle n (d.rf (SE_PC_PC n))) = .inl Bundle.nops → Does (.engineStep rq n v IssueEnv.clean) s (fun e =>
        e.seState n = seHALTED ∧ e.rf (SE_PC_PC n) = d.rf (SE_PC_PC n) + 1 ∧ (e.engine n).s = (d.engine n).s ∧
        (e.engine n).v = (d.engine n).v ∧ e.se.spad = d.se.spad)) ∧
      (∀ slot, decodeBundle (d.progBundle n (d.rf (SE_PC_PC n))) = .inr slot → Does (.engineStep rq n v IssueEnv.clean) s (fun e =>
        e.seState n = seTRAPPED ∧ e.rf (SE_TRAP_CAUSE n) = 2 ∧ e.rf (SE_TRAP_PC n) = d.rf (SE_PC_PC n) ∧ e.se.spad = d.se.spad))) ∧
    (Reaches d (SE_CTL n) → v.getLsbD 0 = false → v.getLsbD 1 = false → d.seState n = seTRAPPED →
      Does (.engineResume rq n v) s (fun e => e.seState n = seIDLE ∧ e.bit (SE_TRAP_VALID n) = false)) ∧
    (d.live = true → d.seUp n = true → d.fromNeighbour n = false →
      (0 < words.length → d.rf (SE_STRM_IN_WORDS n) + words.length ≤ 512 → Does (.streamSymbolIn n words) s (fun e =>
        (e.engine n).inSyms = (d.engine n).inSyms ++ [words])) ∧
      (512 < words.length → Does (.streamSymbolIn n words) s (fun e => (e.engine n).inSyms = (d.engine n).inSyms ∧
        e.bit (SE_STAT_STRM_REJ n) = true ∧ Logs d e 0x18 0x05 .warn [n, words.length, words.length / 256, 0, 0]))) ∧
    (d.live = true → d.barred (spadAddr n x) = none → (∀ write, Prompt d rq (spadAddr n x) write Machine.BusEnv.clean) →
      Does (.scratchpadAccess rq n x true v true .clean) s (fun e => e.spadElem n x.toNat = { v := v, p := false } ∧ e.resp = .done ∧
        (∀ k, k ≠ n.val * 65536 + x.toNat → SMap.at Elem.zero e.se.spad k = SMap.at Elem.zero d.se.spad k) ∧ e.regs = d.regs) ∧
      ((d.spadElem n x.toNat).p = false → Does (.scratchpadAccess rq n x false v true .clean) s (fun e =>
        e.resp = .data (d.spadElem n x.toNat).v ∧ e.se = d.se ∧ e.regs = d.regs)) ∧
      (d.seState n = seRUN → Does (.scratchpadAccess rq n x false v false .clean) s (fun e => e.resp = .none ∧ e.se = d.se ∧
        e.hub.busWaits = d.hub.busWaits ++ [{ rq := rq, addr := spadAddr n x, write := false, since := d.slate }]))) ∧
    (d.live = true → d.sup.dbg.busy = none → ∀ w : BusWait,
      d.hub.busWaits.find? (fun w => w.rq == .debug && w.addr == spadAddr n x && w.write == false) = some w →
      elapsed (d.slate - w.since) 2000 = true → Does (.scratchpadAccessTimeout .debug n x false) s (fun e =>
        e.resp = .error ∧ e.se = d.se ∧ e.busWaiting .debug (spadAddr n x) false = false ∧
        Logs d e 0x18 0x07 .error [n, x.toNat, x.toNat / 256, 0, 0])) ∧
    (d.live = true → d.barred (engineBase n + 0x10000 + w.toNat * 4) = none →
      Does (.engineRamExtWrite rq n .coefficient w v) s (fun e => e.coefElem n w.toNat = { v := v, p := false } ∧ e.resp = .done ∧
        e.se.spad = d.se.spad ∧ e.se.prog = d.se.prog ∧ e.regs = d.regs)) ∧
    (Reaches d (agWord n ag (agCode r)) →
      (d.seState n = seRUN → Does (.addressGeneratorWrite rq n ag r v) s (fun e => Frame logRegs d e ∧
        Logs d e 0x18 0x08 .warn [n, ag, agCode r, 0, 0])) ∧
      (d.seState n ≠ seRUN → Does (.addressGeneratorWrite rq n ag r v) s (fun e =>
        e = d.ok.plainWrite (agWord n ag (agCode r)) v)))

/-- A write of DLM_TAIL sets the low four bits and nothing else; RESUME of a HALTED mover leaves it IDLE. An idle enabled
mover with a waiting descriptor whose tick has come and which passes the checks reads its whole scratchpad block and
is BUSY, or, with a poisoned element in the block, halts, flags and logs DLM code 0x02; one that fails a check ends
at once with that status, of length 0 with DONE. The descriptor in service writes its whole destination block in the
engine's scratchpad, clean, and ends DONE: LAST, HEAD and the done counts move on.
Follows: 06_signal_engines.md (The Dolly movers; Tables SE-13, SE-14). -/
def Obligations.MoversRunTheirDescriptors : Prop :=
  ∀ (s : State) (rq : Requester) (n : Fin 64) (v : Word) (assigned : Bool) (envs : List SectorEnv) (back : CacheBack),
    let d := s.dev
    let h := d.rf (DLM_STAT_HEAD n)
    let x := d.descriptor n h
    let src := (List.range (descLen x / 4)).map (fun i => descSrc x / 4 + i)
    (Reaches d (DLM_TAIL n) → Does (.dlmTailWrite rq n v) s (fun e => e.rf (DLM_TAIL_TAIL n) = v.toNat % 16 ∧
      RegsBut [DLM_TAIL n] d e)) ∧
    (Reaches d (DLM_CTL n) → Does (.moverResume rq n v) s (fun e =>
      e.rf (DLM_STAT_STATE n) = (if d.rf (DLM_STAT_STATE n) = vHALTED then vIDLE else d.rf (DLM_STAT_STATE n)) ∧
      RegsBut [DLM_CTL n, DLM_STAT n] d e)) ∧
    (d.live = true → d.moverLive n = true → d.bit (DLM_CTL_EN n) = true → d.rf (DLM_STAT_STATE n) = vIDLE →
      h ≠ d.rf (DLM_TAIL_TAIL n) → descAfter x ≤ d.slate →
      (∀ st, descCheck x assigned = some st → Does (.descriptorStart n assigned [] envs back) s (fun e =>
        e = d.descEnd n st ∧ e.rf (DLM_STAT_LAST n) = st ∧ e.rf (DLM_STAT_HEAD n) = (h + 1) % 16 ∧
        (st ≠ stDONE → e.bit (DLM_STAT_ERR n) = true))) ∧
      (descCheck x assigned = none → descSrcSpace x = 1 →
        ((∀ i ∈ src, (d.spadElem n i).p = false) → Does (.descriptorStart n assigned [] envs back) s (fun e =>
          e.rf (DLM_STAT_STATE n) = vBUSY ∧
          SMap.at none e.se.move n = some (src.flatMap (fun i => leBytes 4 (d.spadElem n i).v.toNat)) ∧
          RegsBut [DLM_STAT n] d e)) ∧
        ((∃ i ∈ src, (d.spadElem n i).p = true) → Does (.descriptorStart n assigned [] envs back) s (fun e =>
          e.rf (DLM_STAT_STATE n) = vHALTED ∧ e.bit (DLM_STAT_HALT n) = true ∧ e.rf (DLM_STAT_LAST n) = stPOISON ∧
          Logs d e 0x19 0x02 .error [n, h, 1, 0, 0])))) ∧
    (∀ b : List Byte, d.live = true → d.moverLive n = true → SMap.at none d.se.move n = some b → descDstSpace x = 1 →
      descDst x / 4 + b.length / 4 ≤ 65536 → Does (.descriptorComplete n envs back) s (fun e =>
        (∀ i, i < b.length / 4 →
          e.spadElem n (descDst x / 4 + i) = { v := BitVec.ofNat 32 (leNat (bytesAt b (4 * i) 4)), p := false }) ∧
        (∀ k, (∀ i, i < b.length / 4 → k ≠ n.val * 65536 + (descDst x / 4 + i)) →
          SMap.at Elem.zero e.se.spad k = SMap.at Elem.zero d.se.spad k) ∧
        e.rf (DLM_STAT_LAST n) = stDONE ∧ e.rf (DLM_STAT_STATE n) = vIDLE ∧ e.rf (DLM_STAT_HEAD n) = (h + 1) % 16 ∧
        e.bit (DLM_STAT_DONE n) = true ∧ e.rf (DLM_CNT_DONE_COUNT n) = satU (DLM_CNT_DONE_COUNT n).w (d.rf (DLM_CNT_DONE_COUNT n) + 1) ∧
        SMap.at none e.se.move n = none))

/-- A word written to the store of a free bank replaces that word of the entry and no other entry; to a bank that is
STAGED or ACTIVE it is refused with REFUSED, an error response and CSH code 0x09. While the Slate counts: ARM for a
bank no bar stands against, with lead and a slot, takes the slot and stages the bank; for a bank the scheduler runs
it is refused with ACCESS. The check of a valid bank confirms the Cut after LEN/16 ticks, rounded up; an invalid one
sets INVALID, captures the entry and logs CSH code 0x07. CANCEL before the decision fails the Cut with ABORT and
frees the bank. STOP empties the lists, leaves the scheduler STOPPING while operations run and STOPPED otherwise, and
logs CSH code 0x0A.
Follows: 07_call_sheet_and_scheduler.md (Entries; Staging and switching; Stopping). -/
def Obligations.TheCallSheetIsWrittenStagedAndSwitched : Prop :=
  ∀ (s : State) (rq : Requester) (v : Word),
    let d := s.dev
    (∀ (en : BitVec 19) (k : Fin 4), d.live = true → d.barred (0x04000000 + en.toNat * 16 + k * 4) = none →
      let b := en.toNat / bankSize
      (d.bankFree b = true → Does (.callSheetEntryWrite rq en k v) s (fun e =>
        e.entry b (en.toNat % bankSize) = setEntryWord (d.entry b (en.toNat % bankSize)) k v ∧
        (∀ i, i ≠ en.toNat → SMap.at 0 e.csh.entries i = SMap.at 0 d.csh.entries i) ∧ e.regs = d.regs ∧ e.resp = .done)) ∧
      (d.bankFree b = false → Does (.callSheetEntryWrite rq en k v) s (fun e =>
        e.csh = d.csh ∧ e.bit CSH_STAT_REFUSED = true ∧ e.resp = .error ∧ RegsBut (CSH_STAT :: logRegs) d e ∧
        Logs d e 0x06 0x09 .warn (entDetail b (en.toNat % bankSize) ++ [rqCode rq, 0])))) ∧
    (Reaches d CSH_CUT_CTL → Counting d →
      let b := fieldGet 2 1 v
      let t := d.rd64 CSH_CUT_TICK_LO CSH_CUT_TICK_HI
      (v.getLsbD 1 = false →
        (∀ i, d.scheduleBar b = none → d.slate + 4096 ≤ t → d.pickSlot = some i → Does (.scheduleCutArm rq v) s (fun e =>
          e.cut i = armedSlot kSCHEDULE b t ∧ e.csh.staged = some (b, i) ∧ e.csh.checkAt = some d.slate ∧
          e.rf CSH_CUT_CTL_SLOT = i ∧ e.rf CSH_CUT_CTL_STATUS = stDONE ∧ RegsBut [CSH_CUT_CTL] d e)) ∧
        (d.scheduleBar b = none → t < d.slate + 4096 → Does (.scheduleCutArm rq v) s (fun e =>
          e.rf CSH_CUT_CTL_STATUS = stLEAD ∧ e.csh = d.csh ∧ e.bit SLT_STAT_CUT_FAIL = true ∧
          Logs d e 0x01 0x03 .warn [kSCHEDULE, b, 0, stLEAD, 0])) ∧
        (d.bankActive b = true → Does (.scheduleCutArm rq v) s (fun e =>
          e.rf CSH_CUT_CTL_STATUS = stACCESS ∧ e.csh = d.csh ∧ Logs d e 0x01 0x03 .warn [kSCHEDULE, b, 0, stACCESS, 0]))) ∧
      (v.getLsbD 0 = false → ∀ b i, d.csh.staged = some (b, i) → d.cancellable i = true → Does (.scheduleCutCancel rq v) s (fun e =>
        (e.cut i).state = .failed ∧ (e.cut i).status = stABORT ∧ e.csh.staged = none ∧ e.csh.checkAt = none ∧
        e.csh.entries = d.csh.entries))) ∧
    (∀ (b i t : Nat), d.live = true → Counting d → d.csh.staged = some (b, i) → d.csh.checkAt = some t →
      (d.bankInvalid b none = none → t + (d.bankLen b + 15) / 16 ≤ d.slate → (d.cut i).state = .armed →
        Does (.bankStagingCheckEnd none) s (fun e => e.cut i = { d.cut i with confirmed := true } ∧ e.csh.checkAt = none ∧
          e.regs = d.regs)) ∧
      (∀ x r, d.bankInvalid b none = some (x, r) → t + x / 16 + 1 ≤ d.slate → Does (.bankStagingCheckEnd none) s (fun e =>
        e.bit CSH_STAT_INVALID = true ∧ e.bit CSH_ERR_VALID = true ∧ e.csh.checkAt = none ∧ e.hub.cuts = d.hub.cuts ∧
        Logs d e 0x06 0x07 .error (entDetail b x ++ [r, 0])))) ∧
    (Reaches d CSH_CTL → Does (.schedulerStop rq v) s (fun e => e.csh.lists = [] ∧
      e.rf CSH_STAT_STATE = (if d.inService then 2 else 0) ∧ (∀ n, (SMap.at none e.csh.ops n).isSome = (SMap.at none d.csh.ops n).isSome) ∧
      Logs d e 0x06 0x0A .info [0, 0, 0, 0, 0]))

/-- While the Slate counts, on a device that runs: in the order of Table CSH-6, each where no earlier step of its tick is
still due: a boundary whose tick has come starts the next period, whose start registers show its tick; fetch puts an
OP whose list has room at the end of its engine's list and moves on; a head that nothing holds back issues: it leaves
its list, is in service, counts and the engine runs it; a head due to be skipped leaves its list, counts, flags SKIP
and logs CSH code 0x02 with its mode; an operation whose report is due frees its engine; and the releases due raise
the counts of the entries they name, and no others stay due.
Follows: 07_call_sheet_and_scheduler.md (Periods; Fetch; Issue; Lateness; Completion). -/
def Obligations.TheSchedulerFetchesIssuesSkipsAndCompletes : Prop :=
  ∀ (s : State) (n : Fin 64), Counting s.dev → s.dev.live = true →
    let d := s.dev
    (d.rf CSH_STAT_STATE = 1 → d.periodTick (d.csh.period + 1) ≤ d.slate → d.switchDue = false → Does .periodBoundary s (fun e =>
      e.csh.period = d.csh.period + 1 ∧ e.csh.rels = d.csh.rels.filter (fun r => d.csh.period < r.period) ∧ e.csh.released = [] ∧
      e.rd CSH_PSTART_LO = BitVec.ofNat 32 (d.periodTick (d.csh.period + 1)) ∧
      e.rd CSH_PSTART_HI = BitVec.ofNat 32 (d.periodTick (d.csh.period + 1) / 2 ^ 32) ∧
      e.rf CSH_PCOUNT_COUNT = satU 32 (d.rf CSH_PCOUNT_COUNT + 1) ∧ e.rf (CSH_ENGn_MVDONE_COUNT n) = 0)) ∧
    (d.rf CSH_STAT_STATE ≠ 1 → Does .periodBoundary s (fun e => e = d)) ∧
    (let i := d.csh.fetchIdx
     let x := d.entry d.runBank i
     d.rf CSH_STAT_STATE = 1 → d.csh.fetchAt ≤ d.slate → d.csh.acted.contains 64 = false → d.storeHeld i = false → d.csh.fetchK ≤ d.csh.period + 1 →
      d.bankLen d.runBank = i + 1 → entType x = 1 → (d.readyList (opEngine x)).length < 256 → Does (.entryFetch []) s (fun e =>
        e.readyList (opEngine x) = d.readyList (opEngine x) ++
          [{ bank := d.runBank, index := i, period := d.csh.fetchK, early := d.periodTick d.csh.fetchK + opEarly x, entry := x }] ∧
        e.csh.fetchK = d.csh.fetchK + 1 ∧ e.csh.fetchIdx = 0)) ∧
    (∀ i rest, d.listsReady = true → d.readyList n = i :: rest → d.csh.acted.contains n.val = false →
      (d.skipMode n i = none → d.waitCode n i = 0 → Does (.operationIssue n) s (fun e =>
        e.readyList n = rest ∧
        SMap.at none e.csh.ops n = some { item := i, issue := d.slate, since := d.slate, rep := none, old := false } ∧
        e.rf (CSH_ENGn_ISSUE_COUNT n) = satU 32 (d.rf (CSH_ENGn_ISSUE_COUNT n) + 1) ∧
        e.seState n = seRUN ∧ e.rf (SE_PC_PC n) = opProg i.entry ∧ (e.engine n).inOp = true)) ∧
      (∀ m, d.skipMode n i = some m → Does (.entrySkip n) s (fun e =>
        e.readyList n = rest ∧ e.csh.ops = d.csh.ops ∧ e.bit CSH_STAT_SKIP = true ∧
        e.rf (CSH_ENGn_LATE_SKIP n) = satU 16 (d.rf (CSH_ENGn_LATE_SKIP n) + 1) ∧
        Logs d e 0x06 0x02 .warn (n.val :: entDetail i.bank i.index ++ [m])))) ∧
    (∀ o due st, SMap.at none d.csh.ops n = some o → o.rep = some (due, st) → due ≤ d.slate →
      d.switchDue = false → d.boundaryDue = false → Does (.operationCompletion n) s (fun e =>
      SMap.at none e.csh.ops n = none ∧ e.csh.lists = d.csh.lists ∧
      (st ≠ stDONE → e.rf (CSH_ENGn_EXP_ABORTED n) = satU 16 (d.rf (CSH_ENGn_EXP_ABORTED n) + 1)) ∧
      (st = stDONE → o.old = false → o.item.period = d.csh.period → opSuccKind o.item.entry = 1 →
        e.csh.rels = d.csh.rels ++ [{ due := d.slate + 1, period := d.csh.period, link := false, index := opSucc o.item.entry }]))) ∧
    (∀ r : CshRelease, d.csh.rels = [r] → r.due ≤ d.slate → r.period = d.csh.period →
      d.switchDue = false → d.boundaryDue = false → d.completionDue = false →
      (r.link = false → Does (.successorRelease []) s (fun e => e.csh.rels = [] ∧
        SMap.at 0 e.csh.released r.index = SMap.at 0 d.csh.released r.index + 1 ∧ e.regs = d.regs)) ∧
      (r.link = true → d.storeHeld r.index = false → entType (d.entry d.runBank r.index) = 2 → linkNext (d.entry d.runBank r.index) = none →
        Does (.successorRelease []) s (fun e => e.csh.rels = [] ∧ e.regs = d.regs ∧
          ∀ j ∈ linkOps (d.entry d.runBank r.index), SMap.at 0 d.csh.released j < SMap.at 0 e.csh.released j)))

/-- An enabled PLL keeps its rate: a rate write while it is enabled or outside 16,000,000 to 32,750,000 is refused with
LNQ code 0x0A, any other is taken. Enabling a PLL takes its write; disabling one in use is refused with code 0x0A,
one not in use loses lock. An enabled PLL locks; one that held lock and loses it, where no lane of its quad feeds a
slot of Continuity, sets UNLOCK and logs code 0x07 with the lanes that use it. A power request acts at once, or, with
AT_EN and a later tick in AT, is pending and acts on that tick. A direction that enters a state is in it when its
transition is done, with SLEEP_DONE and code 0x06; a transmit wake whose tick has come is ON with WAKE_DONE. A write
of the lane's configuration is refused with code 0x0A unless both directions are OFF.
Follows: 08_serial_lanes.md (PLLs; Power states). -/
def Obligations.PllsAndLanePowerStates : Prop :=
  ∀ (s : State) (rq : Requester) (q : Fin 128) (p : Fin 2) (l : Fin 512) (v : Word),
    let d := s.dev
    let refused := fun (i : Instr) (q lane ofs : Nat) => Does i s (fun e => Frame logRegs d e ∧
      Logs d e 0x15 0x0A .warn [q, lane, ofs, ofs / 256, 0])
    (Reaches d (LNQ_PLLp_RATE q p) →
      (d.bit (LNQ_PLLp_CFG_EN q p) = true ∨ fieldGet 0 26 v < 16000000 ∨ 32750000 < fieldGet 0 26 v →
        refused (.pllRateWrite rq q p v) q 0xFF (0x14 + p.val * 0x10)) ∧
      (d.bit (LNQ_PLLp_CFG_EN q p) = false → 16000000 ≤ fieldGet 0 26 v → fieldGet 0 26 v ≤ 32750000 →
        Does (.pllRateWrite rq q p v) s (fun e => e.rf (LNQ_PLLp_RATE_RATE q p) = fieldGet 0 26 v ∧
          Frame [LNQ_PLLp_RATE q p] d e))) ∧
    (Reaches d (LNQ_PLLp_CFG q p) →
      Does (.pllEnable rq q p v) s (fun e => e.bit (LNQ_PLLp_CFG_EN q p) = true ∧ Frame [LNQ_PLLp_CFG q p] d e) ∧
      (d.pllInUse q p = true → refused (.pllDisable rq q p v) q 0xFF (0x10 + p.val * 0x10)) ∧
      (d.pllInUse q p = false → Does (.pllDisable rq q p v) s (fun e => e.bit (LNQ_PLLp_CFG_EN q p) = false ∧
        e.bit (LNQ_PLLp_STAT_LOCK q p) = false ∧ Frame [LNQ_PLLp_CFG q p, LNQ_PLLp_STAT q p] d e))) ∧
    (Reaches d (LNQ_Li_CFG l) →
      (d.txState l = lOFF → d.rxState l = lOFF → Does (.laneConfigWrite rq l v) s (fun e =>
        e.rd (LNQ_Li_CFG l) = (d.plainWrite (LNQ_Li_CFG l) v).rd (LNQ_Li_CFG l) ∧ Frame [LNQ_Li_CFG l] d e)) ∧
      (d.txState l ≠ lOFF ∨ d.rxState l ≠ lOFF → refused (.laneConfigWrite rq l v) (quadOf l) (l.val % 4) 0)) ∧
    (Reaches d (LNQ_Li_PWR l) →
      let w := d.ok.plainWrite (LNQ_Li_PWR l) v
      (w.bit (LNQ_Li_PWR_AT_EN l) = true → d.slate < d.laneAt l → Does (.lanePowerRequest rq l v) s (fun e =>
        e.bit (LNQ_Li_PWR_PENDING l) = true ∧ e.txState l = w.txState l ∧ e.rxState l = w.rxState l ∧ e.lanes = d.lanes)) ∧
      (w.bit (LNQ_Li_PWR_AT_EN l) = false ∨ d.laneAt l ≤ d.slate → Does (.lanePowerRequest rq l v) s (fun e =>
        e = w.laneEffect l ∧ e.bit (LNQ_Li_PWR_PENDING l) = false))) ∧
    (d.live = true →
      (d.bit (LNQ_PLLp_CFG_EN q p) = true → Does (.pllLock q p) s (fun e => e.bit (LNQ_PLLp_STAT_LOCK q p) = true ∧
        RegsBut [LNQ_PLLp_STAT q p] d e)) ∧
      (d.bit (LNQ_PLLp_STAT_LOCK q p) = true → (∀ i ∈ quadLanes q, ¬ Feeds d i) →
        let mask := ([0, 1, 2, 3].map (fun i => if d.txUses (4 * q + i) p || d.rxUses (4 * q + i) p then 2 ^ i else 0)).sum
        Does (.pllUnlock q p) s (fun e => e.bit (LNQ_PLLp_STAT_LOCK q p) = false ∧ e.bit (LNQ_PLLp_STAT_UNLOCK q p) = true ∧
          Logs d e 0x15 0x07 .error [q, p, mask, 0, 0])) ∧
      (d.bit (LNQ_Li_PWR_PENDING l) = true → d.laneAt l ≤ d.slate → Does (.laneRequestEffect l) s (fun e => e = d.laneEffect l ∧
        e.bit (LNQ_Li_PWR_PENDING l) = false)) ∧
      (d.rxState l = lENTERING → (d.lane l).rxTo ≤ 4 → Does (.laneTransitionDone l true) s (fun e =>
        e.rxState l = (d.lane l).rxTo ∧ e.txState l = d.txState l ∧
        e.bit (LNQ_Li_STAT_SLEEP_DONE l) = (d.bit (LNQ_Li_STAT_SLEEP_DONE l) || (d.lane l).rxTo != lON) ∧
        Logs d e 0x15 0x06 .info [l, l.val / 256, 1, (d.lane l).rxTo, 0])) ∧
      (∀ t, d.txState l = lWAKING → (d.lane l).txDue = some t → t ≤ d.slate → Does (.laneTransitionDone l false) s (fun e =>
        e.txState l = lON ∧ e.rxState l = d.rxState l ∧ e.bit (LNQ_Li_STAT_WAKE_DONE l) = true ∧
        Logs d e 0x15 0x06 .info [l, l.val / 256, 0, lON, 0])))

/-- On a device that runs: a receive direction that wakes or is ON, with its PLL locked, gains clock-recovery lock and
enters ACQUIRE or TRACK, and one that woke is ON; losing it clears the locks, sets CDR_LOSS and puts every qualified
slot of Continuity that the lane feeds in LOS; where it feeds none, LNQ code 0x01 is logged, and no other register
but EYE.CTLE of a lane in ACQUIRE changes. A sweep in ACQUIRE counts as open the points of 64 whose disagreements do
not exceed ERRLIM, leaves its score and openings and counts the code; the trial sweep of TRACK changes no register;
ACQUIRE ends after 16 sweeps with the best code and enters TRACK. Block lock is gained in PCS66 mode under
clock-recovery lock after 64 consecutive valid headers; 16 invalid headers in 64 lose it, which sets BLK_LOSS and,
where the lane feeds no slot of Continuity, logs code 0x02; an HBER window, over HBER_WIN microseconds after it
began, above the limit raises HI_BER with code 0x03, one within it clears HI_BER. SLIP moves the boundary by one bit
in RAW66 mode only.
Follows: 08_serial_lanes.md (Receive adaptation; The 64b/66b sublayer). -/
def Obligations.ReceiveLocksAndAdaptation : Prop :=
  ∀ (s : State) (l : Fin 512) (sig : Bool) (pts : EyeCounts), s.dev.live = true →
    let d := s.dev
    let v := ((pts.threshold.take 64).filter (fun c => decide (c ≤ d.rf (LNQ_Li_ADAPT_ERRLIM l)))).length
    let h := ((pts.phase.take 64).filter (fun c => decide (c ≤ d.rf (LNQ_Li_ADAPT_ERRLIM l)))).length
    let x := d.lane l
    ((d.rxState l = lWAKING ∨ d.rxState l = lON) → d.rxPllLock l = true → d.bit (LNQ_Li_STAT_CDR_LOCK l) = false →
      Does (.cdrLock l) s (fun e => e.bit (LNQ_Li_STAT_CDR_LOCK l) = true ∧ e.rxState l = lON ∧
        e.rf (LNQ_Li_STAT_PHASE l) = (if x.acquire then 1 else 2) ∧ e.txState l = d.txState l)) ∧
    (d.bit (LNQ_Li_STAT_CDR_LOCK l) = true → Does (.cdrLockLoss l sig) s (fun e =>
      e.bit (LNQ_Li_STAT_CDR_LOCK l) = false ∧ e.bit (LNQ_Li_STAT_BLK_LOCK l) = false ∧ e.rf (LNQ_Li_STAT_PHASE l) = 0 ∧
      e.bit (LNQ_Li_STAT_CDR_LOSS l) = true ∧ e.bit (LNQ_Li_STAT_SIG_DET l) = sig ∧ e.rxState l = d.rxState l ∧
      (∀ n : Fin 8, d.rf (CTY_REFn_CFG_KIND n) = 3 → d.rf (CTY_REFn_CFG_NUM n) = l → d.bit (CTY_REFn_CFG_EN n) = true →
        e.rf (CTY_REFn_STAT_QSTATE n) = 0) ∧
      (¬ Feeds d l → Logs d e 0x15 0x01 .warn [l, l.val / 256, sig.toNat, 0, 0] ∧
        (d.rf (LNQ_Li_STAT_PHASE l) ≠ 1 → RegsBut (LNQ_Li_STAT l :: logRegs) d e)))) ∧
    (d.rxState l = lON → d.bit (LNQ_Li_STAT_CDR_LOCK l) = true → d.rf (LNQ_Li_STAT_PHASE l) = 1 → x.acqCode < 16 →
      Does (.eyeSweepEnd l pts none) s (fun e =>
        e.rf (LNQ_Li_EYE_SCORE l) = min 255 (v * h / 8) ∧ e.rf (LNQ_Li_EYE_V l) = v ∧ e.rf (LNQ_Li_EYE_H l) = h ∧
        (e.lane l).acqCode = x.acqCode + 1 ∧ (e.lane l).acqBest = betterCode x.acqBest (eyeScore v h) x.acqCode ∧
        RegsBut [LNQ_Li_EYE l] d e)) ∧
    (d.rf (LNQ_Li_STAT_PHASE l) = 2 → x.trialDue = true → d.bit (LNQ_Li_ADAPT_FREEZE l) = false →
      Does (.eyeSweepEnd l pts none) s (fun e => (e.lane l).trialDue = false ∧ e.regs = d.regs)) ∧
    (∀ sc c, x.acqBest = some (sc, c) → c < 16 → d.rf (LNQ_Li_STAT_PHASE l) = 1 → x.acqCode = 16 → Does (.acquireEnd l) s (fun e =>
      e.rf (LNQ_Li_EYE_CTLE l) = c ∧ e.rf (LNQ_Li_STAT_PHASE l) = 2 ∧ (e.lane l).acquire = false ∧
      (sc < d.rf (LNQ_Li_ADAPT_MIN_SCORE l) → e.bit (LNQ_Li_STAT_ADAPT_FAIL l) = true ∧
        Logs d e 0x15 0x05 .warn [l, l.val / 256, sc, c, 0]))) ∧
    (d.rxState l = lON → d.bit (LNQ_Li_STAT_CDR_LOCK l) = true → d.laneMode l = 0 → d.bit (LNQ_Li_STAT_BLK_LOCK l) = false → 64 ≤ x.hdrGood → Does (.blockLock l) s (fun e =>
      e.bit (LNQ_Li_STAT_BLK_LOCK l) = true ∧ (e.lane l).hber = 0 ∧ (e.lane l).hberAt = d.slate ∧ RegsBut [LNQ_Li_STAT l] d e)) ∧
    (d.blkLock l = true → 16 ≤ (x.hdrBad.filter (fun b => b)).length → Does (.blockLockLoss l) s (fun e =>
      e.bit (LNQ_Li_STAT_BLK_LOCK l) = false ∧ e.bit (LNQ_Li_STAT_BLK_LOSS l) = true ∧ (¬ Feeds d l →
      Logs d e 0x15 0x02 .warn [l, l.val / 256, 0, 0, 0]))) ∧
    (d.bit (LNQ_Li_STAT_BLK_LOCK l) = true →
      (x.hberAt * 100 + 24576 * max 1 (d.rf (LNQ_Li_PCS_HBER_WIN l)) ≤ 100 * d.slate →
      (d.rf (LNQ_Li_PCS_HBER_LIM l) < x.hber → d.bit (LNQ_Li_STAT_HI_BER l) = false → Does (.hberWindowEnd l) s (fun e =>
        e.bit (LNQ_Li_STAT_HI_BER l) = true ∧ e.bit (LNQ_Li_STAT_HBER_EV l) = true ∧ (e.lane l).hber = 0 ∧
        Logs d e 0x15 0x03 .warn [l, l.val / 256, x.hber, x.hber / 256, 0])) ∧
      (x.hber ≤ d.rf (LNQ_Li_PCS_HBER_LIM l) → Does (.hberWindowEnd l) s (fun e =>
        e.bit (LNQ_Li_STAT_HI_BER l) = false ∧ (e.lane l).hber = 0 ∧ RegsBut [LNQ_Li_STAT l] d e))) ∧
      (100 * d.slate < x.hberAt * 100 + 24576 * max 1 (d.rf (LNQ_Li_PCS_HBER_WIN l)) → Does (.hberWindowEnd l) s (fun e => e = d))) ∧
    (d.laneMode l = 2 → Does (.slip l) s (fun e => (e.lane l).bound = (x.bound + 1) % 66 ∧ e.regs = d.regs)) ∧
    (d.laneMode l ≠ 2 → Does (.slip l) s (fun e => e = d))

/-- A transmit side that is ON on a live quad with its PLL locked and no loopback, generator, scrambler, injection or
inversion sends the block of an owner whose site is live, or the fill block where none comes, and logs LNQ code 0x0B
where the owner had sent before. At a receive side that is ON, locked, without loopback, inversion, checker,
equaliser update or pending code, in a RAW mode, the block time's bits enter the elastic buffer as a block, in RAW66
from the word boundary, and a read cycle hands it from an empty buffer to the owner with its wait, at most the block
time; a full buffer discards it with EB_DROP and code 0x08. An equaliser setting within the limits is taken, any
other refused with code 0x0A; INJ waits for the next block; a loopback write that leaves generator and checker as
they are stores its setting. A checker whose last 64 bits are the pattern's gains sync, and one that has met 64
errors in 1,024 bits loses it with code 0x09.
Follows: 08_serial_lanes.md (The 64b/66b sublayer; Elastic buffer; Loopbacks and patterns). -/
def Obligations.LaneBlocksPatternsAndLoopbacks : Prop :=
  ∀ (s : State) (rq : Requester) (l : Fin 512) (blk : LaneBlock) (wait : BitVec 7) (v : Word),
    let d := s.dev
    let x := d.lane l
    (d.live = true → d.txState l = lON → d.txPllLock l = true → d.quadLive l = true → x.loopNow = 0 → d.loopOf l = 0 → x.inject = false →
      d.bit (LNQ_Li_TEST_GEN_EN l) = false → d.bit (LNQ_Li_CFG_SCR_EN l) = false → d.bit (LNQ_Li_CFG_TX_POL l) = false →
      (d.laneOwner l ≠ 0 → d.siteLive l = true → Does (.txBlock l (some blk) []) s (fun e => e.outs = .laneTx l blk.hdr blk.data :: d.outs ∧ (e.lane l).sentData = true ∧
        e.regs = d.regs)) ∧
      Does (.txBlock l none []) s (fun e => e.outs = .laneTx l (d.fillBlock l).hdr (d.fillBlock l).data :: d.outs ∧
        (e.lane l).sentData = false ∧ (x.sentData = true → Logs d e 0x15 0x0B .note [l, l.val / 256, d.laneOwner l, 0, 0]))) ∧
    (d.live = true → d.rxState l = lON → d.bit (LNQ_Li_STAT_CDR_LOCK l) = true → d.quadLive l = true → x.loopNow = 0 → d.loopOf l = 0 →
      d.laneMode l ≠ 0 → d.bit (LNQ_Li_CFG_RX_POL l) = false → d.bit (LNQ_Li_TEST_CHK_EN l) = false → x.ctleNext = none →
      let b := if d.laneMode l = 1 then blk else framedBlock x.prev (blockLine blk) x.bound
      let w := min wait.toNat (if d.laneMode l = 1 then 64 else 66)
      (x.eb = [] → d.laneOwner l ≠ 0 → d.siteLive l = true → Does (.rxBlock l blk none [wait]) s (fun e =>
        e.outs = .laneRx l b.hdr b.data false w :: d.outs ∧
        e.rf (LNQ_Li_RXLAT_WAIT l) = w ∧ (e.lane l).eb = [] ∧ RegsBut [LNQ_Li_RXLAT l] d e)) ∧
      (x.eb.length < 32 → Does (.rxBlock l blk none []) s (fun e => (e.lane l).eb = x.eb ++ [(b, false)] ∧ e.outs = d.outs ∧
        e.regs = d.regs)) ∧
      (32 ≤ x.eb.length → Does (.rxBlock l blk none []) s (fun e => e.outs = d.outs ∧ (e.lane l).eb = x.eb ∧ e.bit (LNQ_Li_STAT_EB_ERR l) = true ∧
        e.rf (LNQ_Li_CNT_EB_DROP l) = satU (LNQ_Li_CNT_EB_DROP l).w (d.rf (LNQ_Li_CNT_EB_DROP l) + 1) ∧
        Logs d e 0x15 0x08 .warn [l, l.val / 256, 0, 0, 0]))) ∧
    (Reaches d (LNQ_Li_TXEQ l) →
      let pre := fieldGet 0 5 v
      let main := fieldGet 5 6 v
      let post := fieldGet 11 5 v
      (pre ≤ 12 → post ≤ 20 → 24 ≤ main → pre + main + post ≤ 48 → Does (.txeqWrite rq l v) s (fun e =>
        e.rd (LNQ_Li_TXEQ l) = (d.plainWrite (LNQ_Li_TXEQ l) v).rd (LNQ_Li_TXEQ l) ∧ Frame [LNQ_Li_TXEQ l] d e)) ∧
      (12 < pre ∨ 20 < post ∨ main < 24 ∨ 48 < pre + main + post → Does (.txeqWrite rq l v) s (fun e => Frame logRegs d e ∧
        Logs d e 0x15 0x0A .warn [quadOf l, l.val % 4, 0x10, 0, 0]))) ∧
    (Reaches d (LNQ_Li_TEST l) →
      Does (.inj rq l v) s (fun e => (e.lane l).inject = true) ∧
      (let w := d.plainWrite (LNQ_Li_TEST l) v
       v.getLsbD 13 = false → w.rf (LNQ_Li_TEST_LOOP l) ≠ 3 →
        w.bit (LNQ_Li_TEST_GEN_EN l) = d.bit (LNQ_Li_TEST_GEN_EN l) → w.rf (LNQ_Li_TEST_GEN l) = d.rf (LNQ_Li_TEST_GEN l) →
        w.bit (LNQ_Li_TEST_CHK_EN l) = d.bit (LNQ_Li_TEST_CHK_EN l) → w.rf (LNQ_Li_TEST_CHK l) = d.rf (LNQ_Li_TEST_CHK l) → Does (.loopbackWrite rq l v) s (fun e =>
          e.rd (LNQ_Li_TEST l) = w.rd (LNQ_Li_TEST l) ∧ Frame [LNQ_Li_TEST l] d e))) ∧
    (d.live = true → d.bit (LNQ_Li_TEST_CHK_EN l) = true →
      (∀ ph, d.bit (LNQ_Li_TEST_CHK_SYNC l) = false → 64 ≤ x.chk.seen →
        patternFit (d.rf (LNQ_Li_TEST_CHK l)) (d.upat l) x.chk.hist = some ph → Does (.patternCheckerSync l) s (fun e =>
        e.bit (LNQ_Li_TEST_CHK_SYNC l) = true ∧ (e.lane l).chk.pos = ph ∧ RegsBut [LNQ_Li_TEST l] d e)) ∧
      (d.bit (LNQ_Li_TEST_CHK_SYNC l) = true → x.chk.lost = true → Does (.patternCheckerSync l) s (fun e =>
        e.bit (LNQ_Li_TEST_CHK_SYNC l) = false ∧ Logs d e 0x15 0x09 .note [l, l.val / 256, 0, 0, 0])))

/-- A MAC that is not enabled and not absorbed in a group is enabled where its speed fits its place and its lanes, with
LF set and the link down; otherwise the write is refused with ETH code 0x0A; clearing EN drops its buffers. A live
MAC of 10GBASE-R takes its fault bits, with LF also where its lanes are not locked, and reports them; loss of
alignment of a group sets LF and logs code 0x09. The header of a received frame is parsed and its timestamp taken; at
its end a frame whose port buffer has no room counts as overflow, a short or long one as discarded, one with a bad
FCS as FCS error, and a well-formed one with a good check sequence is handed whole to the port its parse names,
without its FCS and with that timestamp, and counts. A transmit frame over the length is rejected with LENGTH and
code 0x06; a plain one, with an empty buffer on a link that is up, leaves with its CRC and counts, and with TS_REQ
its tag and timestamp wait. The oldest such timestamp joins the FIFO of 64, or is lost with TS_OVF and code 0x07; a
tag read takes the oldest of the FIFO.
Follows: 09_ethernet_fronthaul_converters.md (MACs; Receive; Transmit; Timestamps). -/
def Obligations.MacsReceiveAndTransmitFrames : Prop :=
  ∀ (s : State) (rq : Requester) (m : Fin 32) (v : Word) (ts : BitVec 96) (stamp : StampPoint) (rest : List Byte) (drained : List Nat) (f : EthTx),
    let d := s.dev
    let clean : FecCount := { corr := 0, uncorr := 0 }
    let x := d.mac m
    (Reaches d (ETH_CFG m) → d.macAbsorbed m = false →
      let fits := !(ethSpeed v == 2 && m.val % 4 != 0) && d.macLanesFit m v
      (v.getLsbD 0 = true → d.bit (ETH_CFG_EN m) = true ∨ fits = false → Does (.macEnable rq m v) s (fun e => Frame logRegs d e ∧
        Logs d e 0x16 0x0A .warn [m, 0, 0, 0, 0])) ∧
      (v.getLsbD 0 = true → d.bit (ETH_CFG_EN m) = false → fits = true → Does (.macEnable rq m v) s (fun e =>
        e.bit (ETH_CFG_EN m) = true ∧ e.bit (ETH_STAT_LF m) = true ∧ e.bit (ETH_STAT_LINK m) = false ∧ e.eth = d.eth)) ∧
      (v.getLsbD 0 = false → d.bit (ETH_CFG_EN m) = true → Does (.macEnable rq m v) s (fun e =>
        e.bit (ETH_CFG_EN m) = false ∧ e.bit (ETH_STAT_LINK m) = false ∧ (e.mac m).txq = [] ∧ (e.mac m).tsWait = []))) ∧
    (d.live = true → d.macLive m = true →
      (∀ lf rf, ethSpeed (d.rd (ETH_CFG m)) = 0 → Does (.linkFaultChange m lf rf false false clean) s (fun e =>
        e.bit (ETH_STAT_LF m) = (lf || !(d.macLanes m).all (fun l => d.laneOwner l == 2 && d.blkLock l)) ∧ e.bit (ETH_STAT_RF m) = rf ∧
        e.bit (ETH_STAT_LINK m) = !(e.bit (ETH_STAT_LF m) || rf) ∧ e.outs = .ethFault m (e.bit (ETH_STAT_LF m)) rf :: d.outs)) ∧
      (∀ mask : BitVec 4, ethSpeed (d.rd (ETH_CFG m)) = 2 → Does (.alignmentLoss m mask clean) s (fun e =>
        e.bit (ETH_STAT_LF m) = true ∧ e.bit (ETH_STAT_FEC_LOCK m) = false ∧ e.bit (ETH_STAT_LINK m) = false ∧
        Logs d e 0x16 0x09 .warn [m, mask.toNat, 0, 0, 0])) ∧
      Does (.rxFrame m (.head stamp rest)) s (fun e => e.regs = d.regs ∧
        (e.mac m).rxNow = some { ts := d.rxStamp m stamp, bytes := rest, parsed := d.ecpParse m rest }) ∧
      (∀ h, x.rxNow = some h →
        let bytes := h.bytes ++ rest
        let n := bytes.length
        let body := bytes.take (n - 4)
        let p := h.parsed.settle (n - 4)
        let ends := fun P => Does (.rxFrame m (.tail rest false false clean false drained)) s (fun e => (e.mac m).rxNow = none ∧ P e)
        (d.rxRoom m < SMap.at 0 (x.drain drained) p.port + body.length → ends (fun e => e.outs = d.outs ∧ e.bit (ETH_STAT_OVF m) = true ∧
          e.rf (ETH_OVF_OVF m) = satU (ETH_OVF_OVF m).w (d.rf (ETH_OVF_OVF m) + 1))) ∧
        (SMap.at 0 (x.drain drained) p.port + body.length ≤ d.rxRoom m →
          (n < 64 ∨ d.maxLen m < n → ends (fun e => e.outs = d.outs ∧ e.bit (ETH_STAT_DISCARD m) = true ∧
            e.rf (ETH_RXE_DISC m) = satU (ETH_RXE_DISC m).w (d.rf (ETH_RXE_DISC m) + 1))) ∧
          (64 ≤ n → n ≤ d.maxLen m →
            (leBytes 4 (crc32 body).toNat ≠ bytes.drop (n - 4) → ends (fun e => e.outs = d.outs ∧ e.bit (ETH_STAT_FCS m) = true ∧
              e.rf (ETH_RXE_FCS m) = satU (ETH_RXE_FCS m).w (d.rf (ETH_RXE_FCS m) + 1))) ∧
            (leBytes 4 (crc32 body).toNat = bytes.drop (n - 4) → p.bad = none → ends (fun e =>
              (∃ side : RxSide, side.len = n - 4 ∧ side.ts = h.ts ∧ side.ecp = p.ecp ∧ side.id = p.id ∧ side.seq = p.seq ∧
                e.outs = .ethRx m p.port side body :: d.outs) ∧
              e.rf (ETH_RXF_COUNT m) = satU (ETH_RXF_COUNT m).w (d.rf (ETH_RXF_COUNT m) + 1)))))) ∧
      (d.maxLen m - 4 < f.bytes.length → 0 < f.bytes.length → x.txq = [] → Does (.txFrame m (.frame f) stamp) s (fun e =>
        e.outs = .ethReady m (e.txReady m) :: .ethReject m stLENGTH :: d.outs ∧ e.bit (ETH_STAT_TX_REJ m) = true ∧ (e.mac m).txq = [] ∧
        Logs d e 0x16 0x06 .warn [m, f.bytes.length, f.bytes.length / 256, 0, 0])) ∧
      (60 ≤ f.bytes.length → d.txRefused m f = false → f.bytes.length ≤ d.txRoom m → x.txq = [] → f.oneStep = false →
        f.poison = false → d.bit (ETH_STAT_LINK m) = true → Does (.txFrame m (.frame f) stamp) s (fun e =>
          e.outs = .ethReady m (e.txReady m) :: .ethTx m (f.bytes ++ leBytes 4 (crc32 f.bytes).toNat) :: d.outs ∧ (e.mac m).txq = [] ∧
          e.rf (ETH_TXF_COUNT m) = satU (ETH_TXF_COUNT m).w (d.rf (ETH_TXF_COUNT m) + 1) ∧
          (e.mac m).tsWait = x.tsWait ++ (if f.tsReq then [(f.tsTag.toNat, d.txStamp m stamp)] else [])))) ∧
    (∀ tag left, d.live = true → x.tsWait = (tag, ts) :: left →
      (x.txts.length < 64 → Does (.txTimestamp m) s (fun e => (e.mac m).tsWait = left ∧
        (e.mac m).txts = x.txts ++ [(tag, ts)] ∧ e.outs = .ethTs m tag ts :: d.outs ∧ e.regs = d.regs)) ∧
      (64 ≤ x.txts.length → Does (.txTimestamp m) s (fun e => (e.mac m).txts = x.txts ∧
        e.bit (ETH_STAT_TS_OVF m) = true ∧ Logs d e 0x16 0x07 .note [m, tag, tag / 256, 0, 0]))) ∧
    (Reaches d (ETH_TXTS_TAG m) →
      ((d.mac m).txts = [] → Does (.txtsTagRead rq m) s (fun e => e.resp = .data 0 ∧ e.regs = d.regs)) ∧
      (∀ tag rest, (d.mac m).txts = (tag, ts) :: rest → Does (.txtsTagRead rq m) s (fun e =>
        e.resp = .data (BitVec.ofNat 32 (tag % 65536 + 65536)) ∧ (e.mac m).txts = rest ∧
        e.rd (ETH_TXTS_SEC m) = BitVec.ofNat 32 (ts.toNat / 2 ^ 48) ∧ e.rd (ETH_TXTS_NS m) = BitVec.ofNat 32 (ts.toNat / 2 ^ 16))))

/-- A link that is off and passes the start checks takes its configuration, shows octets, lanes and the period, and goes
to ALIGN; one that fails a check shows the status, stays off and logs JLK code 0x02; clearing EN puts it OFF. An
aligned receive link whose lanes hold block lock waits for the LEMC boundary and then runs; a transmit link runs at
the first boundary from 64 ticks on. A lane that loses its lock sends a running receive link back to ALIGN with code
0x05. Once a tick a running receive link hands over the octets of the word due, RBD ticks after its transmission, if
every lane has them, with their poison; otherwise, within a late extended multiblock, zeros, all poisoned, with LATE.
A transmit link sends, two ticks on, the word of user logic in RUN, and zeros where none comes and in ALIGN.
Follows: 09_ethernet_fronthaul_converters.md (Converter links; Tables JLK-1 to JLK-3). -/
def Obligations.ConverterLinksAlignAndRun : Prop :=
  ∀ (s : State) (rq : Requester) (j : Fin 32) (v : Word) (lane : Fin 8) (w : LinkWord),
    let d := s.dev
    let st := d.rf (JLK_STAT_STATE j)
    let chk := d.linkCheck j v
    let o := d.rf (JLK_INFO_O j)
    let l := d.rf (JLK_INFO_L j)
    (Reaches d (JLK_CFG j) →
      (v.getLsbD 0 = true → d.bit (JLK_CFG_EN j) = false →
        (chk.2.1 ≠ 0 → Does (.linkEnable rq j v) s (fun e => e.bit (JLK_CFG_EN j) = true ∧ e.rf (JLK_STAT_START j) = stDONE ∧
          e.rf (JLK_STAT_STATE j) = jALIGN ∧ e.rf (JLK_INFO_O j) = chk.2.1 ∧ e.rf (JLK_INFO_L j) = (d.linkLanes j).length ∧
          (e.jlk j).runFrom = d.slate + 64)) ∧
        (chk.2.1 = 0 → chk.1 ≠ stDONE → Does (.linkEnable rq j v) s (fun e => e.bit (JLK_CFG_EN j) = false ∧
          e.rf (JLK_STAT_START j) = chk.1 ∧ e.rf (JLK_STAT_STATE j) = st ∧ Logs d e 0x17 0x02 .warn [j, chk.1, 0, 0, 0]))) ∧
      (v.getLsbD 0 = false → Does (.linkEnable rq j v) s (fun e => e.bit (JLK_CFG_EN j) = false ∧ e.rf (JLK_STAT_STATE j) = jOFF))) ∧
    (d.live = true → d.linkLive j = true → d.bit (JLK_CFG_DIR j) = false →
      (st = jALIGN → (d.linkLanes j).all (fun l => d.blkLock l) = true → Does (.embLock j) s (fun e => e.rf (JLK_STAT_STATE j) = jWAIT ∧
        e.bit (JLK_STAT_STATE_EV j) = true ∧ Logs d e 0x17 0x01 .info [j, jALIGN, jWAIT, 0, 0])) ∧
      (st = jWAIT → d.onLemc j d.slate = true → Does (.lemcBoundary j) s (fun e => e.rf (JLK_STAT_STATE j) = jRUN ∧
        Logs d e 0x17 0x01 .info [j, jWAIT, jRUN, 0, 0])) ∧
      (st = jWAIT ∨ st = jRUN → Does (.embLockLoss j lane) s (fun e => e.rf (JLK_STAT_STATE j) = jALIGN ∧
        e.bit (JLK_STAT_EMB_LOSS j) = true ∧ e.bit (JLK_STAT_RESYNC j) = true ∧ Logs d e 0x17 0x05 .warn [j, lane, 0, 0, 0])) ∧
      (st = jRUN → (d.jlk j).wordAt ≠ some d.slate →
        let p := (d.slate - d.rf (JLK_CFG_RBD j)) * o
        let emb := d.onLemc j (d.slate + d.rf (JLK_INFO_PE j) - d.rf (JLK_CFG_RBD j))
        let word := joinLanes ((List.range l).map (fun i => (((d.jlk j).lane i).dropTo p).word o p))
        (∀ a, word = some a → Does (.rxLinkWord j []) s (fun e =>
          e.outs = .jlkRx j emb (a.map (·.1)) (octetPoison (a.map (·.2))) :: d.outs ∧ e.regs = d.regs)) ∧
        (word = none → (d.jlk j).lateNow = true → emb = false → Does (.rxLinkWord j []) s (fun e =>
          e.outs = .jlkRx j false (List.replicate (o * l) 0) 0xFFFF :: d.outs ∧ e.bit (JLK_STAT_LATE j) = true ∧
          e.rf (JLK_CNT_LATE j) = satU (JLK_CNT_LATE j).w (d.rf (JLK_CNT_LATE j) + 1))))) ∧
    (d.live = true → d.linkLive j = true → d.bit (JLK_CFG_DIR j) = true →
      (st = jALIGN → (d.jlk j).runFrom ≤ d.slate → d.onLemc j d.slate = true → Does (.lemcBoundary j) s (fun e =>
        e.rf (JLK_STAT_STATE j) = jRUN)) ∧
      ((d.jlk j).wordAt ≠ some d.slate →
        let tx := fun b => OutEv.jlkTx j (d.slate + 2) (d.onLemc j (d.slate + 2)) b
        (st = jRUN ∨ st = jALIGN → Does (.txLinkWord j none) s (fun e => e.outs = tx (List.replicate (o * l) 0) :: d.outs ∧
          e.regs = d.regs)) ∧
        (st = jALIGN → Does (.txLinkWord j (some w)) s (fun e => e.outs = tx (List.replicate (o * l) 0) :: d.outs ∧ e.regs = d.regs)) ∧
        (st = jRUN → w.poison = 0 → Does (.txLinkWord j (some w)) s (fun e =>
          e.outs = tx ((List.range (o * l)).map (fun i => w.octets.getD i 0)) :: d.outs ∧ e.regs = d.regs))))

/-- On a running controller with the link UP: a packet with a wrong CRC is counted and answered with a NAK of the number
wanted; a numbered packet out of order is answered and has no other effect; a packet in order is answered with an ACK
and advances the number wanted. Credit granted is added to what the VC holds. An ACK takes the packets up to its
number out of the replay buffer; a NAK resends those from its number on and counts them, or, where one has been
resent 16 times, takes the link down; so does the replay timer 8 us after a packet was last sent, which is resent
with those after it otherwise.
Follows: 10_mesh_multidevice.md (Packets; Acknowledgement; Credit). -/
def Obligations.MeshPacketsAreCheckedAndAcknowledged : Prop :=
  ∀ (s : State) (p : Fin 16) (h : MeshHdr) (vc : Bool) (units : Nat),
    let d := s.dev
    let m := d.mport p
    let k := vcKey h.vc
    let want := SMap.at 0 m.rxSeq k
    let reply := fun (b : MeshBody) => OutEv.meshTx p h.vc 0x3FF (d.rf MSH_STAT_NUM) 0 b
    let from_ := fun (v : Bool) (seq : Nat) (x : Kept) => x.pkt.vc == v && decide ((x.seq + 4096 - seq) % 4096 < 2048)
    d.live = true → d.meshLive = true → d.mstate ≠ mOFF → d.pstate p = mUP → m.waiting = [] →
    (h.crcOk = false → Does (.credit p h vc units) s (fun e => e.mport p = m ∧ e.outs = reply (.nak want) :: d.outs ∧
      e.rf (MSH_PORTp_CNT_CRC p) = satU (MSH_PORTp_CNT_CRC p).w (d.rf (MSH_PORTp_CNT_CRC p) + 1))) ∧
    (h.crcOk = true → h.typ = 5 → h.seq.toNat ≠ want → Does (.credit p h vc units) s (fun e => e.mport p = m ∧ e.regs = d.regs ∧
      ∃ b, e.outs = reply b :: d.outs)) ∧
    (h.crcOk = true → h.typ = 5 → h.seq.toNat = want → h.vc = false → h.resv = 0 →
      Does (.credit p h vc units) s (fun e => e.outs = reply (.ack want) :: d.outs ∧ e.regs = d.regs ∧
        SMap.at 0 (e.mport p).rxSeq k = (want + 1) % 4096 ∧
        SMap.at 0 (e.mport p).credit (vcKey vc) = SMap.at 0 m.credit (vcKey vc) + units)) ∧
    (h.crcOk = true → h.resv = 0 → h.vc = false →
      (h.typ = 3 → Does (.ack p h) s (fun e => e.regs = d.regs ∧ (e.mport p).kept =
        m.kept.filter (fun x => !(x.pkt.vc == false && decide ((h.seq.toNat + 4096 - x.seq) % 4096 < 2048))))) ∧
      (h.typ = 4 →
        ((∀ x ∈ m.kept, from_ false h.seq.toNat x = true → x.resends < 16) → Does (.nak p h) s (fun e => e.pstate p = mUP ∧
          e.rf (MSH_PORTp_CNT_RETRY p) = satU 16 (d.rf (MSH_PORTp_CNT_RETRY p) + (m.kept.filter (from_ false h.seq.toNat)).length))) ∧
        ((∃ x ∈ m.kept, from_ false h.seq.toNat x = true ∧ 16 ≤ x.resends) → Does (.nak p h) s (fun e => e = d.linkDown p cRETRY)))) ∧
    (∀ x, m.kept.find? (fun k => elapsed (d.slate - k.sent) 8000) = some x →
      ((∀ y ∈ m.kept, y.resends < 16) → Does (.replayTimeout p) s (fun e => e.pstate p = mUP ∧
        d.outs.length < e.outs.length ∧ (e.mport p).kept.length = m.kept.length ∧
        e.rf (MSH_PORTp_CNT_RETRY p) = satU 16 (d.rf (MSH_PORTp_CNT_RETRY p) + (m.kept.filter (from_ x.pkt.vc x.seq)).length))) ∧
      (16 ≤ x.resends → Does (.replayTimeout p) s (fun e => e = d.linkDown p cRETRY)))

/-- An enable write of a port that is DOWN or HELD with fitting lanes puts it in TRAINING; with lanes that do not fit it
stays DOWN with EN cleared, the cause CONFIG and MSH code 0x0D. In training a HELLO, unless its number is held, names
the neighbour and its port; every 2,048 ticks after it a DELAY packet is sent. A completed exchange leaves the link
time and counts; above 120,000 ps the port is HELD as LONG with code 0x04. A trained link with lock, 16 exchanges and
a link time in range is UP and logs code 0x01, and takes a device that was ALONE into SEEK. A hold for flapping ends
after a second.
Follows: 10_mesh_multidevice.md (Ports; Training; Link states). -/
def Obligations.MeshLinksTrainAndComeUp : Prop :=
  ∀ (s : State) (rq : Requester) (p : Fin 16) (v : Word) (h : MeshHdr),
    let d := s.dev
    let m := d.mport p
    (Reaches d (MSH_PORTp_CFG p) → d.pstate p = mDOWN ∨ d.pstate p = mHELD →
      let w := d.ok.plainWrite (MSH_PORTp_CFG p) (v ||| 1)
      (w.portFits p = true → Does (.meshPortEnable rq p v) s (fun e => e.pstate p = mTRAINING ∧
        e.bit (MSH_PORTp_CFG_EN p) = true ∧ e.bit MSH_EVT_LINK = true ∧ (e.mport p).delays = 0)) ∧
      (w.portFits p = false → Does (.meshPortEnable rq p v) s (fun e => e.pstate p = mDOWN ∧
        e.bit (MSH_PORTp_CFG_EN p) = false ∧ e.rf (MSH_PORTp_STAT_CAUSE p) = cCONFIG ∧
        Logs d e 0x0C 0x0D .warn [p, 0, cCONFIG, 0, 0]))) ∧
    (d.live = true →
      (∀ (num : BitVec 10) (port : Fin 16) (serial : Word), (d.meshTake p h 1).1 = true → d.pstate p = mTRAINING →
        d.bit MSH_CFG_NUM_MODE = true ∨ d.numberHeld num.toNat serial = false →
        Does (.hello p h (.hello num port serial)) s (fun e => e.rf (MSH_PORTp_STAT_PEER p) = num.toNat ∧
          e.rf (MSH_PORTp_STAT_PEER_PORT p) = port ∧ (e.mport p).helloAt = some (m.helloAt.getD d.slate) ∧
          (e.mport p).peerSerial = serial ∧ e.pstate p = mTRAINING)) ∧
      (∀ t, d.meshLive = true → d.mstate ≠ mOFF → d.pstate p = mTRAINING → m.helloAt = some t → (d.slate - t) % 2048 = 0 →
        Does (.delayExchangeStart p) s (fun e => e.regs = d.regs ∧
          e.outs = .meshTx p false 0x3FF (d.rf MSH_STAT_NUM) (SMap.at 0 m.txSeq 0) .delay :: d.outs)) ∧
      (∀ (rt diff : Int) (time : Word), (d.meshTake p h 2).1 = true → m.helloAt.isSome = true →
        (time.toNat ≤ 120000 → Does (.delay p h rt diff time) s (fun e => e.rd (MSH_PORTp_DLY p) = time ∧
          (e.mport p).delays = m.delays + 1 ∧ e.pstate p = d.pstate p)) ∧
        (120000 < time.toNat → Does (.delay p h rt diff time) s (fun e => e.pstate p = mHELD ∧
          e.rf (MSH_PORTp_STAT_CAUSE p) = cLONG ∧ Logs d e 0x0C 0x04 .warn [p, cLONG, 0, 0, 0]))) ∧
      (d.meshLive = true → d.pstate p = mTRAINING → (d.portLanes p).all (fun l => d.blkLock l) = true → m.helloAt.isSome = true →
        16 ≤ m.delays → d.rf (MSH_PORTp_DLY_TIME p) ≤ 120000 →
        (d.mstate = mALONE → Does (.linkUp p none) s (fun e => e.pstate p = mUP ∧ e.mstate = mSEEK ∧ e.mesh.settle = d.slate ∧
          Logs d e 0x0C 0x01 .info [p, d.rf (MSH_PORTp_STAT_PEER p), d.rf (MSH_PORTp_STAT_PEER p) / 256, d.rf (MSH_PORTp_STAT_PEER_PORT p), 0])) ∧
        (d.mstate = mMEMBER → Does (.linkUp p none) s (fun e => e.pstate p = mUP ∧ e.mstate = mMEMBER ∧ (e.mport p).upAt = d.slate))) ∧
      (d.pstate p = mHELD → d.rf (MSH_PORTp_STAT_CAUSE p) = cFLAP → SMap.at 0 d.mesh.heldAt p + ticksPerSec ≤ d.slate →
        Does (.holdEnd p) s (fun e => e.pstate p = mDOWN ∧ RegsBut [MSH_PORTp_STAT p, MSH_EVT] d e)))

/-- Enabling the controller makes the device ALONE, with its strap number where NUM_MODE is 0; disabling it turns it OFF
with nothing of the system left. When no better candidate has come for the settling time a device in SEEK becomes
ROOT, if eligible and no better key was heard, with number 0 under NUM_MODE 1, and otherwise MEMBER of the best it
heard, with MSH code 0x06. A MAP that names the device makes it a MEMBER with its tree, number and routes; the root
takes its own. On each multiple of 245,760 ticks the root sends its BEAT down; a BEAT is taken and passed on; after
three missing beats and the margin, the device logs code 0x05 and seeks again.
Follows: 10_mesh_multidevice.md (Forming a system; Beats; Losing the root). -/
def Obligations.SystemsFormAndLoseTheirRoot : Prop :=
  ∀ (s : State) (rq : Requester) (p : Fin 16) (v : Word) (h : MeshHdr) (map : MeshMap) (diff : Int) (key : RootKey) (tick : BitVec 64),
    let d := s.dev
    (Reaches d MSH_CFG →
      (v.getLsbD 0 = true → d.bit MSH_CFG_EN = false → Does (.meshEnable rq v) s (fun e => e.mstate = mALONE ∧ e.bit MSH_CFG_EN = true ∧
        (v.getLsbD 1 = false → e.rf MSH_STAT_NUM = d.rf MSH_ID_STRAP))) ∧
      (v.getLsbD 0 = false → d.bit MSH_CFG_EN = true → Does (.meshEnable rq v) s (fun e => e.mstate = mOFF ∧
        e.mesh.root = none ∧ e.mesh.pend = [] ∧ e.mesh.kids = [] ∧ e.mesh.joined = false))) ∧
    (d.live = true →
      (d.meshLive = true → d.mstate = mSEEK → d.mesh.settle + max 1 (d.rf MSH_CFG_SETTLE) * ticksPerMs ≤ d.slate →
        (d.bit MSH_CFG_ROOT_ELIG = true → (∀ b, d.mesh.best = some b → keyBetter d.ownKey b = true) → Does .settleExpiry s (fun e =>
          e.mstate = mROOT ∧ e.bit MSH_EVT_ROOT_CHG = true ∧ e.rf MSH_STAT_ROOT = e.rf MSH_STAT_NUM ∧
          (d.bit MSH_CFG_NUM_MODE = true → e.rf MSH_STAT_NUM = 0))) ∧
        (∀ b, d.mesh.best = some b → keyBetter d.ownKey b = false → Does .settleExpiry s (fun e =>
          e.mstate = mMEMBER ∧ e.mesh.root = some b ∧ e.rf MSH_STAT_ROOT = b.num.toNat ∧ e.bit MSH_EVT_ROOT_CHG = true ∧
          Logs d e 0x0C 0x06 .note [b.num.toNat, b.num.toNat / 256, b.prio.toNat, 0, 0]))) ∧
      (map.devs.any (fun x => x.serial == d.rd MSH_SERIAL) = true →
        (d.meshLive = true → d.mstate = mROOT → map.root.serial = d.rd MSH_SERIAL → Does (.map none map diff) s (fun e =>
          e = d.mapTaken map diff ∧ e.mstate = mROOT ∧ e.mesh.joined = true)) ∧
        (let t := d.meshTake p h 7
         t.1 = true → d.mstate = mALONE ∨ d.mstate = mSEEK ∨ d.mstate = mMEMBER → Does (.map (some (p, h)) map diff) s (fun e =>
          e = t.2.mapTaken map diff ∧ e.mstate = mMEMBER ∧ e.mesh.joined = true ∧ e.bit MSH_EVT_TOPO = true ∧
          e.mesh.root.map (fun k => k.serial) = some map.root.serial))) ∧
      (d.meshLive = true → d.mstate = mROOT → d.mesh.root = some key →
        (d.slate % ticksPerMs = 0 → Does .beatSend s (fun e => e = d.meshDown (.beat key d.slate) ∧ e.regs = d.regs)) ∧
        (d.slate % ticksPerMs ≠ 0 → Does .beatSend s (fun e => e = d))) ∧
      (let t := d.meshTake p h 6
       t.1 = true → d.mstate = mMEMBER → Does (.beat p h key tick) s (fun e => e.mesh.beat = max d.mesh.beat tick.toNat ∧ e.regs = d.regs)) ∧
      (d.meshLive = true → d.mstate = mMEMBER → d.mesh.beat + 3 * ticksPerMs + d.beatMargin ≤ d.slate → Does .rootLost s (fun e =>
        e.mstate = mSEEK ∧ e.bit MSH_EVT_ROOT_CHG = true ∧ e.mesh.serials = d.mesh.serials ∧
        Logs d e 0x0C 0x05 .error [d.rf MSH_STAT_ROOT, d.rf MSH_STAT_ROOT / 256, 0, 0, 0])))

/-- While the Slate counts: GO of a Clapper at the root with its least lead and room makes it pending there and the
origin's, with STATUS DONE; a BARRIER Clapper names its barrier; a CUT Clapper for a USER Cut arms and confirms it; a
member hands it towards the root. A lead that is too short is refused with LEAD, a device outside a system with
ACCESS. A Clapper from above is pending at a member or, on its tick or later, fails with LEAD and MSH code 0x09. On
its tick a BROADCAST leaves its data and source and sets RXB, a SNAPSHOT takes the time error, bound and period, a
release ends its barrier; each logs code 0x0A and pulses both dies' sites. A REPORT counts at the origin; at the end
the origin's Clapper is DONE, or FAILED with reports. CANCEL at the root drops what is pending of it with more than
64 ticks to go.
Follows: 10_mesh_multidevice.md (Clappers; Origination; Execution; Failures). -/
def Obligations.ClappersAreSentTakenAndExecuted : Prop :=
  ∀ (s : State) (rq : Requester) (p : Fin 16) (v : Word) (h : MeshHdr) (c : Clap) (r : ClapReport), Counting s.dev →
    let d := s.dev
    let asked := fun (k : Nat) => (d.ok.plainWrite MSH_CLP_CTL (goWord k v)).clapAsked
    let pending := fun (i : Instr) (k : Nat) => Does i s (fun e => e.mesh.pend = d.mesh.pend ++ [{ c := asked k, slot := none, timeout := false }] ∧
      e.mesh.orig = some (asked k) ∧ e.rf MSH_CLP_CTL_STATUS = stDONE ∧ e.rf MSH_CLP_CTL_STATE = 1 ∧ e.rf MSH_CLP_CTL_FAILS = 0)
    let refused := fun (i : Instr) (st : Nat) => Does i s (fun e => e.mesh = d.mesh ∧ e.rf MSH_CLP_CTL_STATUS = st ∧ e.outs = d.outs ∧
      RegsBut [MSH_CLP_CTL] d e)
    let ready := fun (k lead : Nat) => d.slate + lead ≤ (asked k).tick.toNat ∧ d.slate + 1 < (asked k).tick.toNat ∧ d.mesh.pend.length < 16
    (Reaches d MSH_CLP_CTL → v.getLsbD 1 = false →
      (d.mstate = mROOT →
        (ready clBROADCAST d.depthTicks → pending (.broadcastClapper rq v) clBROADCAST) ∧
        (ready clSNAPSHOT d.depthTicks → pending (.snapshotClapper rq v) clSNAPSHOT) ∧
        (ready clRESET d.depthTicks → pending (.resetClapper rq v) clRESET) ∧
        ((asked clBROADCAST).tick.toNat < d.slate + d.depthTicks → refused (.broadcastClapper rq v) stLEAD) ∧
        (∀ i, ready clCUT (d.depthTicks + 4096) → (asked clCUT).argKind = 5 → (asked clCUT).target.toNat ≤ 15 → d.pickSlot = some i →
          Does (.cutClapper rq v) s (fun e => e.mesh.pend = d.mesh.pend ++ [{ c := asked clCUT, slot := some i, timeout := false }] ∧
            e.cut i = { armedSlot kUSER (asked clCUT).target.toNat (asked clCUT).tick.toNat with confirmed := true } ∧
            e.rf MSH_CLP_CTL_STATUS = stDONE)) ∧
        Does (.barrierClapper rq v) s (fun e => e.bar (asked clBARRIER).argKind.toNat =
            some { d.barNow (asked clBARRIER).argKind.toNat with id := some (asked clBARRIER).id.toNat } ∧
          e.mesh.orig = some (asked clBARRIER) ∧ e.rf MSH_CLP_CTL_STATE = 1 ∧ e.mesh.pend = d.mesh.pend)) ∧
      (d.mstate = mMEMBER → d.slate + (d.mesh.dist + d.rf MSH_TOPO_DEPTH) * hopTicks ≤ (asked clBROADCAST).tick.toNat →
        Does (.broadcastClapper rq v) s (fun e => e.mesh.orig = some (asked clBROADCAST) ∧ e.mesh.pend = d.mesh.pend ∧
          e.rf MSH_CLP_CTL_STATUS = stDONE ∧ e.rf MSH_CLP_CTL_STATE = 1)) ∧
      (d.mstate ≠ mROOT → d.mstate ≠ mMEMBER → refused (.snapshotClapper rq v) stACCESS)) ∧
    (Reaches d MSH_CLP_CTL → v.getLsbD 0 = false → d.mstate = mROOT → d.mesh.orig = some c → d.rf MSH_CLP_CTL_STATE = 1 →
      Does (.clapperCancel rq v) s (fun e => e.mesh.pend = d.mesh.pend.filter (fun q =>
        !(q.c.origin == c.origin && q.c.id == c.id && q.c.kind.toNat != clBARRIER && decide (d.slate + 64 < q.c.tick.toNat))))) ∧
    (d.live = true → d.inSystem = true → d.mstate ≠ mROOT → d.meshMine h = true → (d.meshTake p h 8).1 = true → c.kind.toNat ≠ clCUT →
      (d.slate + 1 < c.tick.toNat → d.mesh.pend.length < 16 → Does (.clapper p h (.clapper c)) s (fun e =>
        e.mesh.pend = d.mesh.pend ++ [{ c := c, slot := none, timeout := false }])) ∧
      (c.tick.toNat ≤ d.slate + 1 → Does (.clapper p h (.clapper c)) s (fun e => e.mesh.pend = d.mesh.pend ∧
        Logs d e 0x0C 0x09 .error [c.kind.toNat, c.id.toNat, stLEAD, c.origin.toNat, c.origin.toNat / 256]))) ∧
    (d.live = true → d.inSystem = true → d.meshMine h = true → (d.meshTake p h 9).1 = true → d.mesh.orig = some c → c.id = r.id →
      c.kind = r.kind → d.rf MSH_CLP_CTL_STATE = 1 → d.rf MSH_CLP_CTL_FAILS = 0 → Does (.report p h r) s (fun e =>
        e.rf MSH_CLP_CTL_FAILS = 1 ∧ e.rf MSH_CLP_CTL_STATUS = r.status.toNat)) ∧
    (∀ q : PendClap, d.live = true → d.mesh.pend = [q] → q.c.tick.toNat = d.slate →
      let x := q.c
      let runs := fun (P : Dev → Prop) => Does .clapperExecute s (fun e => e.mesh.pend = [] ∧
        e.outs = .clpExec 1 x.kind.toNat x.id.toNat :: .clpExec 0 x.kind.toNat x.id.toNat :: d.outs ∧
        Logs d e 0x0C 0x0A .info [x.kind.toNat, x.id.toNat, x.origin.toNat, x.origin.toNat / 256, 0] ∧ P e)
      (x.kind.toNat = clBROADCAST → runs (fun e => e.bit MSH_EVT_RXB = true ∧ e.rf MSH_RXB_STAT_SRC = x.origin.toNat ∧
        ∀ k < 8, e.rd (MSH_RXB_DATAk k) = x.data.extractLsb' (32 * k) 32)) ∧
      (x.kind.toNat = clSNAPSHOT → runs (fun e => e.bit MSH_EVT_SNAP = true ∧ e.rd MSH_SNAP_TE = d.rd CTY_TE_EST ∧
        e.rd MSH_SNAP_BOUND = d.rd CTY_TE_BOUND ∧ e.rd MSH_SNAP_PCOUNT = d.rd CSH_PCOUNT ∧ e.rf MSH_SNAP_MISC_ID = x.id.toNat)) ∧
      (x.kind.toNat = clBARRIER → runs (fun e => e.bit MSH_EVT_BAR_REL = true ∧ e.bar x.argKind.toNat = none ∧
        e.rf MSH_BAR_STATUS = if q.timeout then stTIMEOUT else stDONE))) ∧
    (d.live = true → d.mesh.orig = some c → d.rf MSH_CLP_CTL_STATE = 1 → c.kind.toNat ≠ clBARRIER → c.tick.toNat + d.depthTicks + 64 ≤ d.slate →
      Does .clapperOriginEnd s (fun e => e.mesh.orig = none ∧
        (if d.rf MSH_CLP_CTL_FAILS = 0 then e.rf MSH_CLP_CTL_STATE = 2 ∧ e.bit MSH_EVT_CLP_DONE = true
         else e.rf MSH_CLP_CTL_STATE = 3 ∧ e.bit MSH_EVT_CLP_FAIL = true)))

/-- While the Slate counts, in a system: an arrival, by software or from a Clapper site, that others below still lack is
noted, but a site whose tile is off or isolated does nothing; one that completes a member's part passes upward; one
that completes the root's releases the barrier for the present tick plus the depth's hops. The root that lacks
arrivals after its timeout releases the barrier with TIMEOUT for that tick. A DATA packet for the device waits for
the tick its hops give, or, come late, is handed over at once, marked late and counted; what waits is handed over on
its tick.
Follows: 10_mesh_multidevice.md (Barriers; Data). -/
def Obligations.BarriersReleaseAndDataIsDelivered : Prop :=
  ∀ (s : State) (rq : Requester) (p : Fin 16) (die : Fin 2) (b : BitVec 4) (v : Word) (h : MeshHdr) (sent : BitVec 64) (bytes : List Byte),
    let d := s.dev
    let arrives := fun (i : Instr) (b : Nat) =>
      let x := d.barNow b
      let full := d.mesh.kids.all x.kids.contains
      (full = false → Does i s (fun e => e.bit MSH_BAR_ARRIVED = true ∧ e.bar b = some { x with self := true } ∧ e.outs = d.outs)) ∧
      (full = true → x.passed = false → d.mstate ≠ mROOT → Does i s (fun e => e.bit MSH_BAR_ARRIVED = true ∧
        e.bar b = some { x with self := true, passed := true })) ∧
      (full = true → x.passed = false → d.mstate = mROOT → d.mesh.pend.length < 16 → d.slate + d.depthTicks < 2 ^ 64 → Does i s (fun e =>
        e.bit MSH_BAR_ARRIVED = true ∧ ∃ c : Clap, c.argKind.toNat = b ∧ c.tick.toNat = d.slate + d.depthTicks ∧
          e.mesh.pend = d.mesh.pend ++ [{ c := c, slot := none, timeout := false }]))
    (Counting d → d.inSystem = true →
      (Reaches d MSH_BAR → arrives (.barrierArrive (.write rq v)) (fieldGet 0 4 v)) ∧
      (d.live = true → let dead := d.tileDead die (Config.clapHost die).1 (Config.clapHost die).2
        (dead = none → arrives (.barrierArrive (.site die b)) b.toNat) ∧
        (dead.isSome = true → Does (.barrierArrive (.site die b)) s (fun e => e = d))) ∧
      (∀ x : Bar, d.live = true → d.bar b.toNat = some x → d.mstate = mROOT → x.passed = false → x.self = true →
        x.firstAt + max 1 (d.rf MSH_CFG_BAR_TO) * ticksPerMs ≤ d.slate → d.mesh.pend.length < 16 → d.slate + d.depthTicks < 2 ^ 64 →
        Does (.barrierTimeout b) s (fun e => ∃ c : Clap, c.argKind = b ∧ c.tick.toNat = d.slate + d.depthTicks ∧
          e.mesh.pend = d.mesh.pend ++ [{ c := c, slot := none, timeout := true }]))) ∧
    (d.live = true → (d.meshTake p h 10).1 = true → h.dst ≠ 0x3FF → h.dst.toNat = d.rf MSH_STAT_NUM →
      let due := sent.toNat + d.rf (MSH_RTd_HOPS h.src.toNat) * hopTicks + 16
      (d.slate ≤ due → Does (.data p h sent bytes) s (fun e => e.regs = d.regs ∧
        e.mesh.dataIn = d.mesh.dataIn ++ [{ due := due, src := h.src.toNat, bytes := bytes }])) ∧
      (due < d.slate → Does (.data p h sent bytes) s (fun e => e.mesh.dataIn = d.mesh.dataIn ∧
        e.outs = .meshData h.src.toNat bytes true :: (d.meshTake p h 10).2.outs ∧
        e.rf MSH_CNT_LATE = satU 16 (d.rf MSH_CNT_LATE + 1)))) ∧
    (∀ x rest, d.live = true → d.mesh.dataIn = x :: rest → x.due ≤ d.slate → (∀ y ∈ rest, d.slate < y.due) → Does .dataDelivery s (fun e =>
      e.mesh.dataIn = rest ∧ e.outs = .meshData x.src x.bytes false :: d.outs ∧ e.regs = d.regs))

/-- A burst beyond the channel is refused, counted and logged as DMC code 0x0A; one in range is refused outside RUN and
CHANGING and queued in RUN while there is room. A command cycle opens the row of the only request, or serves it where
its row is open. A refresh closes its rank's rows, or is postponed behind an urgent request; a window's end empties
the activate table; a new refresh rate is logged as 0x0C; a drift moves its lane one step. Training runs from OFF,
STANDBY and FAILED and ends in STANDBY with its set trained or FAILED, a run begun without a good crystal only FAILED
at step 1; a set in use is not rewritten. A frequency change to a trained set starts at once or on its tick and ends
in RUN on the new set. Clock loss fails the channel; a request of 50 us is answered with TIMEOUT.
Follows: 11_dram_controller.md (Requests; Refresh; Training; Frequency changes; Failures). -/
def Obligations.DramControllersServeRefreshAndTrain : Prop :=
  ∀ (s : State) (rq : Requester) (n : Fin 4) (v : Word),
    let d := s.dev
    let x := d.dmc n
    (d.live = true →
      (∀ (port : Fin 16) (addr : BitVec 40) (wr panic : Bool),
        (2 ^ (d.topBit n + 1) ≤ addr.toNat → Does (.burstRequest n port addr wr panic) s (fun e =>
          e.outs = .burst n port addr.toNat wr stACCESS :: d.outs ∧ e.mem = d.mem ∧
          e.rf (DMC_CNT_ADDR_ERR n) = satU 16 (d.rf (DMC_CNT_ADDR_ERR n) + 1) ∧
          Logs d e (7 + n) 0x0A .warn [port, addr.toNat / 2 ^ 22, addr.toNat / 2 ^ 30 % 64, 0, 0])) ∧
        (addr.toNat < 2 ^ (d.topBit n + 1) → d.qstate n ≠ qRUN → d.qstate n ≠ qCHANGING →
          Does (.burstRequest n port addr wr panic) s (fun e => e.outs = .burst n port addr.toNat wr stACCESS :: d.outs ∧ e.regs = d.regs)) ∧
        (addr.toNat < 2 ^ (d.topBit n + 1) → d.dmcLive n = true → d.qstate n = qRUN → x.closing = false →
          d.queueRoom n port addr.toNat wr = true → Does (.burstRequest n port addr wr panic) s (fun e =>
            e.outs = d.outs ∧ RegsBut [DMC_STAT n] d e ∧ (e.dmc n).queue = x.queue ++
              [DramBurst.mk port addr.toNat wr d.slate (panic && d.bit (DMC_PORTk_CFG_PANIC_EN n port)) false]))) ∧
      (∀ (sub : Bool) (ready : BitVec 64) (b : DramBurst), d.dmcLive n = true → d.qstate n = qRUN → x.closing = false → x.nbr = [] →
        x.queue = [b] → b.served = false → b.urgent = false → d.rf (DMC_PORTk_CFG_TGT n b.port) = 0 → SMap.at 0 x.postpone 0 = 0 →
        SMap.at 0 x.postpone 1 = 0 → b.addr / 64 % 2 = sub.toNat → ready.getLsbD (d.bankIn n b.addr) = true →
        let k := d.bankOf n b.addr
        (SMap.at none x.rows k = some (d.rowOf n b.addr) → Does (.dramCommandSelect n sub ready) s (fun e =>
          e.outs = .burst n b.port b.addr b.write stDONE :: d.outs ∧ (e.dmc n).queue = [])) ∧
        (SMap.at none x.rows k = none → Does (.dramCommandSelect n sub ready) s (fun e =>
          SMap.at none (e.dmc n).rows k = some (d.rowOf n b.addr) ∧ (e.dmc n).queue = [b] ∧ e.outs = d.outs))) ∧
      (d.dmcLive n = true → d.qstate n = qRUN →
        (SMap.at 0 x.refAt 0 ≤ d.slate * 1000 → d.urgent3 n = false → SMap.at 0 x.postpone 0 = 0 → d.bit (DMC_CFG_REF_MODE n) = false → Does (.refresh n false) s (fun e =>
          (∀ k, k % 64 < 32 → SMap.at none (e.dmc n).rows k = none) ∧ (e.dmc n).queue = x.queue ∧ (e.dmc n).windows = x.windows + 1 ∧
          e.regs = d.regs)) ∧
        (SMap.at 0 x.refAt 0 ≤ d.slate * 1000 → d.urgent3 n = true → SMap.at 0 x.postpone 0 < 4 → Does (.refresh n false) s (fun e =>
          SMap.at 0 (e.dmc n).postpone 0 = SMap.at 0 x.postpone 0 + 1 ∧ (e.dmc n).rows = x.rows)) ∧
        (d.slate * 1000 < SMap.at 0 x.refAt 0 → Does (.refresh n false) s (fun e => e = d)) ∧
        (∀ hot : Bool, x.rateAt + ticksPerMs ≤ d.slate → d.bit (DMC_STAT_HOT n) ≠ hot → Does (.refreshRateRead n hot) s (fun e => e.bit (DMC_STAT_HOT n) = hot ∧
          RegsBut (DMC_STAT n :: logRegs) d e ∧ Logs d e (7 + n) 0x0C .note [hot.toNat, 0, 0, 0, 0])) ∧
        (∀ m : LaneDrift, 256 ≤ x.driftIv → -16 ≤ m.need → m.need ≤ 16 →
          let key := m.sub.toNat * 8 + m.rank.toNat * 4 + m.lane.val
          let o := SMap.at 0 x.drift key
          Does (.dqsDriftRead n [m]) s (fun e => e.regs = d.regs ∧
            SMap.at 0 (e.dmc n).drift key = if o < m.need then o + 1 else if m.need < o then o - 1 else o))) ∧
      (x.windows < 8192 → Does (.refreshWindowEnd n) s (fun e => e = d)) ∧
      (8192 ≤ x.windows → Does (.refreshWindowEnd n) s (fun e => (e.dmc n).acts = [] ∧ (e.dmc n).windows = x.windows - 8192 ∧
        e.bit (DMC_STAT_RH_FULL n) = false ∧ e.rf (DMC_RH_STAT_USED n) = 0)) ∧
      (d.dmcLive n = true → d.qstate n = qTRAINING → x.training ≤ 2 →
        (x.noLock = true → Does (.trainingEnd n none) s (fun e => e = d)) ∧
        (x.noLock = false → Does (.trainingEnd n none) s (fun e => e.qstate n = qSTANDBY ∧ e.isTrained n x.training = true ∧ e.rf (DMC_STAT_SET n) = x.training ∧
          e.bit (DMC_STAT_TRAIN_DONE n) = true ∧ Logs d e (7 + n) 0x01 .info [x.training, d.rateOf n x.training, 0, 0, 0])) ∧
        (∀ f : TrainFail, x.noLock = false ∨ f.step = 1 → Does (.trainingEnd n (some f)) s (fun e => e.qstate n = qFAILED ∧ e.isTrained n x.training = false ∧
          e.rf (DMC_TRAIN_STEP n) = f.step ∧ e.bit (DMC_STAT_TRAIN_FAIL n) = true ∧
          Logs d e (7 + n) 0x02 .error [x.training, f.step, f.sub.toNat, f.rank.toNat, 0]))) ∧
      (d.dmcLive n = true → d.bit (DMC_FCHG_PENDING n) = true → x.fchgAt ≤ d.slate → d.qstate n = qRUN → Does (.frequencyChangeStart n) s (fun e =>
        e.qstate n = qCHANGING ∧ e.bit (DMC_FCHG_PENDING n) = false ∧ (e.dmc n).rows = [])) ∧
      (d.dmcLive n = true → d.qstate n = qCHANGING → x.fchgSet ≤ 2 → x.closing = false → Does (.frequencyChangeDone n) s (fun e =>
        e.qstate n = qRUN ∧ e.rf (DMC_STAT_SET n) = x.fchgSet ∧ e.bit (DMC_STAT_FCHG_DONE n) = true ∧
        Logs d e (7 + n) 0x07 .info [d.rf (DMC_STAT_SET n), x.fchgSet, d.rateOf n x.fchgSet, 0, 0])) ∧
      (d.dmcLive n = true → d.qstate n = qRUN ∨ d.qstate n = qCHANGING → Does (.dramClockLoss n) s (fun e => e.qstate n = qFAILED ∧
        e.bit (DMC_STAT_CLK_FAIL n) = true ∧ (∀ c, (e.sector n c).lost = true ∨ e.sector n c = Sector.zero) ∧
        Logs d e (7 + n) 0x09 .error [d.qstate n, d.rf (DMC_STAT_SET n), 0, 0, 0])) ∧
      (∀ b : DramBurst, x.queue = [b] → b.served = false → elapsed (d.slate - b.at_) 50000 = true → Does (.dramRequestTimeout n) s (fun e =>
        e.outs = .burst n b.port b.addr b.write stTIMEOUT :: d.outs ∧ (e.dmc n).queue = [] ∧ e.bit (DMC_STAT_TIMEOUT n) = true ∧
        e.bit (DMC_ERR_VALID n) = true ∧ e.rf (DMC_CNT_TIMEOUT n) = satU 16 (d.rf (DMC_CNT_TIMEOUT n) + 1) ∧
        Logs d e (7 + n) 0x03 .error [b.port, b.write.toNat, b.addr / 2 ^ 6, b.addr / 2 ^ 14, b.addr / 2 ^ 22]))) ∧
    (Reaches d (DMC_TRAIN n) →
      (d.qstate n = qOFF ∨ d.qstate n = qSTANDBY ∨ d.qstate n = qFAILED → Does (.trainingStart rq n v) s (fun e =>
        e.qstate n = qTRAINING ∧ e.rf (DMC_TRAIN_STATUS n) = stDONE ∧ (e.dmc n).training = setOf (fieldGet 1 2 v))) ∧
      (d.qstate n = qRUN ∨ d.qstate n = qCHANGING ∨ d.qstate n = qTRAINING ∨ d.qstate n = qSELFREF → Does (.trainingStart rq n v) s (fun e =>
        e.qstate n = d.qstate n ∧ e.rf (DMC_TRAIN_STATUS n) = stACCESS ∧ e.bit (DMC_STAT_REFUSED n) = true ∧
        Logs d e (7 + n) 0x08 .warn [8, 0, stACCESS, 0, 0]))) ∧
    (∀ (t : Fin 3) (w : SetReg), Reaches d (setRegAddr n t w) →
      (d.rf (DMC_STAT_SET n) = t → d.qstate n = qRUN ∨ d.qstate n = qCHANGING → Does (.shadowSetWrite rq n t w v) s (fun e =>
        e.rd (setRegAddr n t w) = d.rd (setRegAddr n t w) ∧ e.bit (DMC_STAT_REFUSED n) = true)) ∧
      (d.rf (DMC_STAT_SET n) ≠ t → Does (.shadowSetWrite rq n t w v) s (fun e => e.isTrained n t = false ∧
        e.rd (setRegAddr n t w) = (d.plainWrite (setRegAddr n t w) v).rd (setRegAddr n t w)))) ∧
    (Reaches d (DMC_FCHG n) →
      let t := setOf (fieldGet 1 2 v)
      (t ≠ d.rf (DMC_STAT_SET n) → d.isTrained n t = true → d.qstate n = qRUN → d.bit (DMC_FCHG_PENDING n) = false →
        (v.getLsbD 3 = false → Does (.frequencyChangeRequest rq n v) s (fun e => e.qstate n = qCHANGING ∧ (e.dmc n).fchgSet = t ∧
          e.rf (DMC_FCHG_STATUS n) = stDONE ∧ e.bit (DMC_FCHG_PENDING n) = false)) ∧
        (v.getLsbD 3 = true → d.slate < d.rd64 (DMC_FCHG_AT_LO n) (DMC_FCHG_AT_HI n) → Does (.frequencyChangeRequest rq n v) s (fun e =>
          e.qstate n = qRUN ∧ e.bit (DMC_FCHG_PENDING n) = true ∧ (e.dmc n).fchgAt = d.rd64 (DMC_FCHG_AT_LO n) (DMC_FCHG_AT_HI n)))) ∧
      (t ≠ d.rf (DMC_STAT_SET n) → d.isTrained n t = false → Does (.frequencyChangeRequest rq n v) s (fun e =>
        e.qstate n = d.qstate n ∧ e.rf (DMC_FCHG_STATUS n) = stACCESS ∧ Logs d e (7 + n) 0x08 .warn [0x0C, 0, stACCESS, 0, 0])))

/-- Opening the ports of a trained channel in STANDBY enters RUN and starts a member that is OFF with the keys drawn at
the start of the device, or, from the second time on, with fresh ones; a channel not so far is refused; closing them
ends in STANDBY once nothing is queued. CHMASK changes to 1, 2 or 4 channels while all are OFF and is kept otherwise.
A channel whose tree is written is READY and logs MPE code 0x09. With both caches within their size and nothing else
written back, a read of a sector in the cache gives its bytes, and a whole-sector write leaves it there, dirty, with
DONE; both are refused beyond the capacity with code 0x0C. A window read gives its word. A KEY Cut on a READY channel
draws keys and is confirmed at once, and on another is refused with ACCESS, MPE code 0x07 (class 6) and SLT code 0x03
(class 7); cancelled in time it fails with ABORT. Rotation passes a node of unwritten sectors at once and otherwise
rewrites one sector under the new key. A retire entry takes its kind and index.
Follows: 12_memory_protection.md (Members; Requests; Key rotation; Retirement). -/
def Obligations.ProtectedMemoryIsReadWrittenAndRotated : Prop :=
  ∀ (s : State) (rq : Requester) (n : Fin 4) (v : Word) (port : Fin 16) (addr : BitVec 40) (env : SectorEnv) (l : CacheLine),
    let d := s.dev
    let back : CacheBack := { sectors := [], nodes := [] }
    let x := d.mch n
    let S := d.chanSectors
    let fits := ((List.range 4).map (fun k => (d.mch k).nodes.length)).sum ≤ 16384
    (Reaches d (DMC_CFG n) → d.bit (DMC_CFG_EN n) = false →
      (d.qstate n = qSTANDBY → d.isTrained n (d.rf (DMC_STAT_SET n)) = true → d.estate n = eOFF → n.val ∈ d.members →
        d.bit MPE_STAT_RNG_FAIL = false → Does (.portsOpen rq n v) s (fun e => e.qstate n = qRUN ∧ e.bit (DMC_CFG_EN n) = true ∧
          e.estate n = eINIT ∧ (e.mch n).key = (if d.mem.begun.contains n then d.mem.draws + 1 else d.mem.start) ∧ (e.mch n).sectors = [])) ∧
      (d.qstate n ≠ qSTANDBY → Does (.portsOpen rq n v) s (fun e => e.qstate n = d.qstate n ∧ e.bit (DMC_CFG_EN n) = false ∧
        e.bit (DMC_STAT_REFUSED n) = true))) ∧
    (Reaches d (DMC_CFG n) → d.qstate n = qRUN → Does (.portsClose rq n v) s (fun e => e.bit (DMC_CFG_EN n) = false ∧
      (if (d.dmc n).queue = [] then e.qstate n = qSTANDBY else e.qstate n = qRUN ∧ (e.dmc n).closing = true))) ∧
    (Reaches d MPE_CFG →
      let m := fieldGet 0 4 v
      m ≠ d.rf MPE_CFG_CHMASK →
      ((∀ k, k < 4 → d.estate k = eOFF) → m = 1 ∨ m = 3 ∨ m = 15 → Does (.chmaskWrite rq v) s (fun e => e.rf MPE_CFG_CHMASK = m ∧
        e.rf MPE_CAP_MIB = e.mpeCapacity / 2 ^ 20)) ∧
      ((∃ k, k < 4 ∧ d.estate k ≠ eOFF) ∨ m = 0 ∨ m = 7 → Does (.chmaskWrite rq v) s (fun e =>
        e.rf MPE_CFG_CHMASK = d.rf MPE_CFG_CHMASK ∧ e.bit MPE_STAT_REFUSED = true))) ∧
    (d.live = true →
      (d.estate n = eINIT → Does (.channelInitDone n) s (fun e => e.estate n = eREADY ∧ e.mem = d.mem ∧
        Logs d e 0x0B 0x09 .info [n, 0, 0, 0, 0])) ∧
      (let ofs := dramOfs addr.toNat
       let p := d.placeOf (ofs / 512)
       ofs % 512 = 0 → d.mem.cache.length < 4096 → fits →
        (d.requestBar port ofs 512 = none → d.line p.1 p.2 = some l → l.poison = false →
          Does (.sectorRead port false addr 512 [env] back) s (fun e => e.mem = d.mem ∧ e.regs = d.regs ∧
            e.outs = .mpeRead port stDONE (sectorBytes l.data 0 512) (List.replicate 512 false) :: d.outs)) ∧
        (∀ bytes : List Byte, bytes.length = 512 → d.requestBar port ofs 512 = none → d.beneathFailed p.1 p.2 = false →
          (∀ k, d.line p.1 p.2 = some k → k.sat = false) → Does (.sectorWrite port addr bytes false [env] back) s (fun e =>
            e.line p.1 p.2 = some { n := p.1, c := p.2, data := BitVec.ofNat 4096 (leNat bytes), poison := false, dirty := true, sat := false } ∧
            e.outs = .mpeWrite port stDONE :: d.outs ∧ e.regs = d.regs ∧ e.mem.chan = d.mem.chan)) ∧
        (d.mpeCapacity < ofs + 512 → Does (.sectorRead port false addr 512 [env] back) s (fun e => e.mem = d.mem ∧
          e.outs = .mpeRead port stACCESS [] [] :: d.outs ∧ e.bit MPE_STAT_REFUSED = true ∧
          Logs d e 0x0B 0x0C .warn [port, ofs / 2 ^ 32, ofs / 2 ^ 24, ofs / 2 ^ 16, 0]))) ∧
      (∀ w : BitVec 31, d.barred (0x80000000 + w.toNat) = none →
        let o := d.rf MPE_WIN_BASE_BASE * 2 ^ 20 + w.toNat / 4 * 4
        let p := d.placeOf (o / 512)
        d.requestBar 14 o 4 = none → d.line p.1 p.2 = some l → l.poison = false → d.mem.cache.length < 4096 → fits →
        Does (.dramWindowAccess rq w none false env back) s (fun e => e.mem = d.mem ∧
          e.resp = .data (BitVec.ofNat 32 (leNat (sectorBytes l.data (o % 512) 4)))))) ∧
    (Reaches d (MPE_CHn_KEY_CTL n) → Counting d →
      let t := d.rd64 (MPE_CHn_KEY_TICK_LO n) (MPE_CHn_KEY_TICK_HI n)
      (∀ i, v.getLsbD 1 = false → d.estate n = eREADY → d.liveCut kKEY n = none → d.slate + 4096 ≤ t → d.pickSlot = some i →
        Does (.keyCutArm rq n v) s (fun e => e.cut i = { armedSlot kKEY n t with confirmed := true } ∧
          e.rf (MPE_CHn_KEY_CTL_SLOT n) = i ∧ e.rf (MPE_CHn_KEY_CTL_STATUS n) = stDONE ∧ (e.mch n).newKey = d.mem.draws + 1 ∧
          (e.mch n).key = x.key)) ∧
      (v.getLsbD 1 = false → d.estate n ≠ eREADY → Does (.keyCutArm rq n v) s (fun e => e.rf (MPE_CHn_KEY_CTL_STATUS n) = stACCESS ∧
        e.mem = d.mem ∧ Logs d e 0x0B 0x07 .warn [n, stACCESS, 0, 0, 0] ∧
        Logs ((d.ok.on MPE_STAT_REFUSED).mpeLog 0x07 .warn [n, stACCESS, 0, 0, 0]) e 0x01 0x03 .warn [kKEY, n, 0, stACCESS, 0])) ∧
      (∀ i, v.getLsbD 0 = false → x.cutSlot = some i → (d.cut i).kind = kKEY → (d.cut i).target = n → d.cancellable i = true →
        Does (.keyCutCancel rq n v) s (fun e => e.cut i = { d.cut i with state := .failed, status := stABORT } ∧
          e.bit SLT_STAT_CUT_FAIL = true ∧ e.mem = d.mem))) ∧
    (let b := d.rf (MPE_CHn_BND_BOUND n)
     d.live = true → d.estate n = eROTATING → d.dmcLive n = true → d.qstate n = qRUN → d.mem.cache.length ≤ 4096 →
      (b % 8 = 0 → b + 8 < S → fits → (∀ i, i < 8 → (d.sector n (b + i)).ver = 0) → Does (.rotationRewrite n env back) s (fun e =>
        e.rf (MPE_CHn_BND_BOUND n) = b + 8 ∧ e.estate n = eROTATING ∧ e.mem = d.mem)) ∧
      (b + 1 < S → d.retiredBy n b = none → (d.sector n b).ver ≠ 0 → (d.sector n b).ver ≠ verMax → x.lastRot = none →
        d.line n b = some l → l.poison = false → Does (.rotationRewrite n env back) s (fun e =>
          e.rf (MPE_CHn_BND_BOUND n) = b + 1 ∧ e.sector n b =
            { data := l.data, ver := (d.sector n b).ver + 1, poison := false, key := x.newKey, t := d.bchT, lost := false }))) ∧
    (∀ r : BitVec 8, Reaches d (MPE_RETn_e n r.toNat) → Does (.retireEntryWrite rq n r v) s (fun e =>
      e.rf (MPE_RETn_e_KIND n r.toNat) = fieldGet 0 2 v ∧ e.rf (MPE_RETn_e_INDEX n r.toNat) = fieldGet 2 27 v ∧
      Frame [MPE_RETn_e n r.toNat] d e))

/-- A window read of a bank that is not busy gives the four bytes the store holds there, zero where the page has no
commit marker; of a busy bank it is an error with NVS code 0x03; an uncorrectable page is an error with UE. GO on an
idle store starts a program of clean pages within one block from SRAM, a clear of an aligned block, or a boot record
write; GO while one runs is refused with FULL. The last pulse of a program commits every page with its data; a clear
pulse 33 blanks the block and pulse 34 restores its header; others only count. SUSPEND, its effect after 50 us, and
RESUME move between the states of Table NVS-3. After a brown-out trip the pulse in progress is the last and the
operation ends with BROWNOUT. The header scan logs each interrupted block and shows the boot record.
Follows: 13_configuration_store_and_loading.md (Reading; Operations; Clearing; Suspension; Brown-out; The boot record). -/
def Obligations.StoreOperationsRunInPulses : Prop :=
  ∀ (s : State) (rq : Requester) (v : Word) (w : BitVec 15),
    let d := s.dev
    let ofs := d.rf NVS_WIN_BASE * 0x8000 + w.toNat
    let p := ofs / 2048
    let o := d.rf NVS_ADDR_OFFSET
    let src := d.rf NVS_SRC_ADDR
    let n := fieldGet 16 7 v
    let fresh : StoreOp := { op := 0, count := n, page := o / 2048, data := [], pulses := 0, since := d.slate, ran := 0, swSusp := false, holds := [], brown := false }
    (d.live = true → d.barred NVS_CFG = none → ofs ≤ 0x300017FF → w.toNat % 4 = 0 →
      (d.bankBusy (storeBank ofs) = false →
        Does (.nvsWindowRead rq w false .clean) s (fun e => e.resp = .data (BitVec.ofNat 32 (leNat (d.storeBytes ofs 4))) ∧ Frame [] d e) ∧
        (p ≠ 0x60000 → (d.page p).commit = false → ∀ b, Does (.nvsWindowRead rq w false b) s (fun e => e.resp = .data 0 ∧ e.regs = d.regs)) ∧
        ((d.page p).commit = true → Does (.nvsWindowRead rq w false .uncorrectable) s (fun e => e.resp = .error ∧ e.bit NVS_STAT_UE = true ∧
          e.bit NVS_ERR_VALID = true ∧ Logs d e 4 0x06 .error [p, p / 2 ^ 8, p / 2 ^ 16 % 8, (d.page p).t, 0]))) ∧
      (d.bankBusy (storeBank ofs) = true → ∀ b, Does (.nvsWindowRead rq w false b) s (fun e => e.resp = .error ∧
        e.bit NVS_STAT_BUSY_READ = true ∧ Frame (NVS_STAT :: logRegs) d e ∧ Logs d e 4 0x03 .error [storeBank ofs, w.toNat, w.toNat / 256, 0, 0]))) ∧
    (Reaches d NVS_CMD → v.getLsbD 1 = false → v.getLsbD 2 = false →
      (d.nstate = nIDLE →
        (1 ≤ n → n ≤ 64 → o % 2048 = 0 → o < 0x30000000 → o % 0x40000 + n * 2048 ≤ 0x40000 → src % 4 = 0 → 0x100000 ≤ src →
          src + n * 2048 ≤ 0x180000 → d.interrupted (o / 0x40000) = false →
          (∀ k, k < n → (d.page (o / 2048 + k)).commit = false ∧ (d.page (o / 2048 + k)).torn = false) →
          Does (.nvsProgram rq v) s (fun e => e.nstate = nRUNNING ∧ e.rf NVS_STAT_BANK = storeBank o ∧
            e.nvs.op = some { fresh with data := d.sramPages src n } ∧ RegsBut [NVS_CMD, NVS_STAT] d e)) ∧
        (o % 0x40000 = 0 → o < 0x30000000 → Does (.nvsClear rq v) s (fun e => e.nstate = nRUNNING ∧ e.rf NVS_STAT_BANK = storeBank o ∧
          e.nvs.op = some { fresh with op := 1 } ∧ RegsBut [NVS_CMD, NVS_STAT] d e)) ∧
        (65 ≤ n → Does (.nvsProgram rq v) s (fun e => e.nstate = nIDLE ∧ e.rf NVS_STAT_STATUS = stLENGTH ∧ e.bit NVS_STAT_REFUSED = true ∧
          e.nvs = d.nvs)) ∧
        Does (.bootRecordWrite rq v) s (fun e => e.nstate = nRUNNING ∧ e.rf NVS_STAT_BANK = 24 ∧
          e.nvs.op = some { fresh with op := 2, count := 1, page := d.bootPage.1, data := [d.bootPage.2] })) ∧
      (d.nstate ≠ nIDLE → Does (.nvsClear rq v) s (fun e => e.nstate = d.nstate ∧ e.rf NVS_STAT_STATUS = stFULL ∧ e.nvs = d.nvs ∧
        Logs d e 4 0x02 .warn [1, stFULL, storeBank o, 0, 0]))) ∧
    (∀ q : StoreOp, d.nvs.op = some q → q.holds = [] → Reaches d NVS_CMD → v.getLsbD 0 = false →
      (d.nstate = nRUNNING → v.getLsbD 2 = false → Does (.nvsSuspend rq v) s (fun e => e.nstate = nSUSPENDING ∧ e.nvs.op = some { q with swSusp := true })) ∧
      (d.nstate = nSUSPENDED → v.getLsbD 1 = false → Does (.nvsResume rq v) s (fun e => e.nstate = nRUNNING ∧
        e.nvs.op = some { q with swSusp := false, since := d.slate, ran := 0 }))) ∧
    (∀ q : StoreOp, d.live = true → d.nvs.op = some q →
      (d.pulseOver q = true → d.nstate ≠ nSUSPENDED → q.brown = false → q.op = 0 →
        (q.pulses + 1 = 4 * q.count + 1 → Does .nvsPulseEnd s (fun e => e.nstate = nIDLE ∧ e.rf NVS_STAT_STATUS = stDONE ∧ e.bit NVS_STAT_DONE = true ∧
          e.nvs.op = none ∧ Logs d e 4 0x01 .info [0, q.count, d.rf NVS_STAT_BANK, 0, 0] ∧
          ∀ k x, q.data[k]? = some x → e.page (q.page + k) = { data := x, commit := true, torn := false, t := max 8 (min 48 (d.rf NVS_CFG_ECC_T)) })) ∧
        (q.pulses + 1 ≠ 4 * q.count + 1 → d.nstate = nRUNNING → Does .nvsPulseEnd s (fun e => e.nvs.op = some { q with pulses := q.pulses + 1, ran := q.ran + 1280 } ∧
          e.nvs.pages = d.nvs.pages ∧ Frame [] { d with nvs := e.nvs } e)) ∧
        (q.pulses + 1 ≠ 4 * q.count + 1 → d.nstate = nSUSPENDING → 50000 ≤ q.ran + 1280 → Does .nvsPulseEnd s (fun e =>
          e.nstate = nSUSPENDED ∧ e.nvs.op = some { q with pulses := q.pulses + 1, ran := q.ran + 1280 }))) ∧
      (d.nstate ≠ nSUSPENDED → d.pulseOver q = false → Does .nvsPulseEnd s (fun e => e = d)) ∧
      (d.pulseOver q = true → d.nstate = nRUNNING → q.brown = false → q.op = 1 →
        (q.pulses = 0 → Does .nvsPulseEnd s (fun e => SMap.at factoryHead e.nvs.heads (q.page / 128) = (0xC1EA71A6, 0) ∧ e.nvs.pages = d.nvs.pages)) ∧
        (q.pulses = 32 → Does .nvsPulseEnd s (fun e => (∀ k, k < 128 → e.page (q.page + k) = StorePage.blank) ∧ e.nvs.op = some { q with pulses := 33, ran := q.ran + 12500 })) ∧
        (q.pulses = 33 → Does .nvsPulseEnd s (fun e => SMap.at factoryHead e.nvs.heads (q.page / 128) = factoryHead ∧ e.nstate = nIDLE ∧
          e.nvs.op = none ∧ e.nvs.pages = d.nvs.pages ∧ Logs d e 4 0x01 .info [1, q.count, d.rf NVS_STAT_BANK, 0, 0]))) ∧
      (d.nstate ≠ nSUSPENDED → Does .nvsBrownout s (fun e => e.nvs.op = some { q with brown := true } ∧ e.regs = d.regs)) ∧
      (d.pulseOver q = true → d.nstate ≠ nSUSPENDED → q.brown = true → q.op = 0 → Does .nvsPulseEnd s (fun e => e.nstate = nIDLE ∧ e.rf NVS_STAT_STATUS = stBROWNOUT ∧
        e.bit NVS_STAT_BROWNOUT = true ∧ e.nvs.op = none ∧ Logs d e 4 0x08 .error [0, q.pulses + 1, (q.pulses + 1) / 256, 0, 0])) ∧
      (d.nstate = nSUSPENDED → q.op = 0 → Does .nvsBrownout s (fun e => e.nstate = nIDLE ∧ e.rf NVS_STAT_STATUS = stBROWNOUT ∧ e.nvs.op = none))) ∧
    (d.live = true → d.domainUp 2 = true → d.sup.boot.scanned = false → elapsed (d.slate - d.sup.boot.scanAt) 120000 = true →
      (d.interruptedBlocks = [] → Does .headerScan s (fun e => e.sup.boot.scanned = true ∧ e.rf NVS_INTR_COUNT = 0 ∧ e.bit NVS_INTR_VALID = false ∧
        RegsBut [NVS_INTR, NVS_BOOT_STAT] d e)) ∧
      (∀ b : BitVec 12, d.interruptedBlocks = [b.toNat] → Does .headerScan s (fun e => e.rf NVS_INTR_COUNT = 1 ∧ e.rf NVS_INTR_FIRST = b.toNat ∧
        e.bit NVS_INTR_VALID = true ∧ e.bit NVS_STAT_INTERRUPTED = true ∧ Logs d e 4 0x07 .error [b.toNat, b.toNat / 256, 0, 0, 0])) ∧
      (∀ r seq x, d.bootRecord = some (r, seq, x) → Does .headerScan s (fun e => e.bit NVS_BOOT_STAT_VALID = true ∧ e.rf NVS_BOOT_STAT_CUR = x % 4 ∧
        e.rf NVS_BOOT_STAT_PREV = x / 4 % 4 ∧ e.rf NVS_BOOT_STAT_SEQ = seq % 2 ^ 24)) ∧
      (d.bootRecord = none → Does .headerScan s (fun e => e.rd NVS_BOOT_STAT = 0)))

/-- WRITE takes the eight data words as the store key (CFG code 0x06) or, for the fuses, starts a blow that ends 20 ms
later; with a data word missing it is refused with code 0x09. An erase by software, by TAMPER_N low for 100 ns or by
VBAT low for 10 us clears the store key with code 0x07, which waits while power is not good. START with no load in
progress enters HEADER with every region isolated, user I/O off and code 0x08; it waits for CLEARING, and is refused
with FULL while a load runs. ABORT, an END before the image is whole, a full buffer and 10 ms without a word end a
load in CLEARING with their status and code 0x02. A word written to CFG_DATA, and the payload of a load-port packet
for the load's target, are appended; stray words are counted. A neighbour's request is answered with the image in
packets while CFG_SERVE.EN is set, and refused otherwise. CLEARING ends with the frames written zero, in FAILED or
with the waiting START.
Follows: 13_configuration_store_and_loading.md (Keys; Starting a load; Sources; Failure). -/
def Obligations.KeysAreHeldAndLoadsStartAndEnd : Prop :=
  ∀ (s : State) (rq : Requester) (v : Word),
    let d := s.dev
    let src := fieldGet 3 2 v
    let slot := fieldGet 5 2 v
    let port := fieldGet 8 4 v
    let ended := fun (st ofs : Nat) (im : Image) (e : Dev) => e.cfg.load = none ∧ e.cfgState = gCLEARING ∧ e.rf CFG_STAT_STATUS = st ∧
      e.bit CFG_STAT_FAIL = true ∧ e.cfg.errHigh = true ∧ e.rf CFG_FAIL_STATUS = st ∧ e.rf CFG_FAIL_SRC = im.src % 4 ∧
      Logs d e 3 0x02 .error [im.src, st, ofs / 16, ofs / 16 / 2 ^ 8, ofs / 16 / 2 ^ 16]
    let fuse := v.getLsbD 2
    (Reaches d CFG_KEY_CTL → v.getLsbD 1 = false →
      (d.cfg.keyMask ≠ 255 → Does (.keyWrite rq v) s (fun e => e.cfg.storeKey = d.cfg.storeKey ∧ e.cfg.fuseKey = d.cfg.fuseKey ∧ e.cfg.keyMask = 0 ∧
        Logs d e 3 0x09 .warn [0, 0, 0, 0, 0])) ∧
      (d.cfg.keyMask = 255 → d.cfg.load = none → d.bit CFG_KEY_STAT_OPTION = true → fuse = false → Does (.keyWrite rq v) s (fun e =>
        e.cfg.storeKey = some d.keyWords ∧ e.cfg.keyMask = 0 ∧ e.cfg.keyData = [] ∧ e.bit CFG_KEY_STAT_STORE_PRESENT = true ∧
        Logs d e 3 0x06 .info [2, 0, 0, 0, 0])) ∧
      (d.cfg.keyMask = 255 → d.cfg.load = none → d.bit CFG_KEY_STAT_OPTION = false → fuse = true → d.cfg.fuseKey = none → d.cfg.blowing = none →
        Does (.keyWrite rq v) s (fun e => e.cfg.blowing = some (d.slate, d.keyWords) ∧ e.cfg.fuseKey = none ∧ e.cfg.keyMask = 0))) ∧
    (∀ t k, d.live = true → d.cfg.blowing = some (t, k) → elapsed (d.slate - t) 20000000 = true → Does .fuseKeyBlown s (fun e =>
      e.cfg.fuseKey = some k ∧ e.cfg.blowing = none ∧ e.bit CFG_KEY_STAT_FUSE_PRESENT = true ∧ Logs d e 3 0x06 .info [1, 0, 0, 0, 0])) ∧
    (d.bit CFG_KEY_STAT_OPTION = true →
      (Reaches d CFG_KEY_CTL → v.getLsbD 0 = false → Does (.keyErase rq v) s (fun e => e.cfg.storeKey = none ∧ e.bit CFG_KEY_STAT_ERASED = true ∧
        e.rd CFG_KEY_CHK = 0 ∧ Logs d e 3 0x07 .error [2, 0, 0, 0, 0])) ∧
      (∀ ns, (100 ≤ ns → d.gaf.good = true → Does (.tamper ns) s (fun e => e.cfg.storeKey = none ∧ e.bit CFG_KEY_STAT_ERASED = true ∧
          e.bit CFG_KEY_STAT_TAMPER = true ∧ Logs d e 3 0x07 .error [0, 0, 0, 0, 0])) ∧
        (100 ≤ ns → d.gaf.good = false → Does (.tamper ns) s (fun e => e.cfg.storeKey = none ∧ e.cfg.keyRecs = d.cfg.keyRecs ++ [0] ∧ e.regs = d.regs)) ∧
        (ns < 100 → Does (.tamper ns) s (fun e => e = d)) ∧
        (10000 ≤ ns → d.gaf.good = true → Does (.vbatLoss ns) s (fun e => e.cfg.storeKey = none ∧ Logs d e 3 0x07 .error [1, 0, 0, 0, 0])) ∧
        (ns < 10000 → Does (.vbatLoss ns) s (fun e => e = d)))) ∧
    (Reaches d CFG_CTL → v.getLsbD 1 = false → v.getLsbD 2 = false →
      (d.loadBusy = true → Does (.loadStart rq v) s (fun e => e.cfg = d.cfg ∧ e.cfgState = d.cfgState ∧ Logs d e 3 0x02 .error [src, stFULL, 0, 0, 0])) ∧
      (d.loadBusy = false → d.cfgState = gCLEARING → Does (.loadStart rq v) s (fun e => e.cfg.loadWait = some (src, slot, port) ∧ e.cfg.load = none ∧
        e.cfgState = gCLEARING)) ∧
      (d.loadBusy = false → d.cfgState ≠ gCLEARING → d.cfg.splice = none → Does (.loadStart rq v) s (fun e => e.cfgState = gHEADER ∧
        e.cfg.load = some (Image.start src slot port (slot * 0x0A000000) 0 d.slate) ∧ e.cfg.ioOn = false ∧ e.cfg.doneHigh = false ∧
        e.bit CFG_IMG_SRC_VALID = false ∧ e.rf CFG_STAT_SPACE = 16384 ∧
        (∀ r : Fin 64, d.regionDefined r = true → e.bit (SPL_REGr_STAT_ISOLATED r) = true) ∧
        (src ≠ 2 → (∀ n, n < 64 → d.seState n ≠ seRUN) → Logs d e 3 0x08 .info [src, slot, 0, 0, 0])))) ∧
    (∀ im : Image, d.cfg.load = some im →
      (Reaches d CFG_CTL → v.getLsbD 0 = false →
        (v.getLsbD 2 = false → Does (.loadAbort rq v) s (ended stABORT (im.reached false) im)) ∧
        (v.getLsbD 1 = false → im.src = 3 → im.got.length < 256 → Does (.streamEnd rq v) s (ended stLENGTH im.got.length im)) ∧
        (v.getLsbD 1 = false → im.src = 3 → 256 ≤ im.got.length → hdrLength im.got ≤ im.got.length → Does (.streamEnd rq v) s (fun e =>
          e.cfg = d.cfg ∧ e.cfgState = d.cfgState))) ∧
      (∀ k : BitVec 15, Reaches d CFG_DATA → im.src = 3 →
        (1 ≤ d.rf CFG_STAT_SPACE + k.toNat → im.whole = false → Does (.cfgDataWrite rq v k) s (fun e =>
          e.cfg.load = some { im with got := im.got ++ leBytes 4 v.toNat, idle := d.slate } ∧
          e.rf CFG_STAT_SPACE = min 16384 (d.rf CFG_STAT_SPACE + k.toNat) - 1 ∧ RegsBut [CFG_STAT] d e)) ∧
        (d.rf CFG_STAT_SPACE + k.toNat = 0 → Does (.cfgDataWrite rq v k) s (fun e => ended stFORMAT im.got.length im e ∧ e.resp = .error))) ∧
      (∀ (hdr : Word) (words : List Word) (t : Nat), d.live = true → d.domainUp 2 = true → d.clocked CFG_CTL = true → im.src = 1 → im.target = some t →
        d.cfgState ≠ gMARCH →
        fieldGet 24 8 hdr = 0xB7 → words.length ≤ fieldGet 0 14 hdr →
        (fieldGet 14 10 hdr = t → im.whole = false → Does (.loadPortPacket hdr (words.map (fun w => (w, true)))) s (fun e =>
          e.cfg.load = some { im with got := im.got ++ words.flatMap (fun w => leBytes 4 w.toNat), idle := d.slate } ∧ e.regs = d.regs)) ∧
        (fieldGet 14 10 hdr ≠ t → Does (.loadPortPacket hdr (words.map (fun w => (w, true)))) s (fun e => e = d))) ∧
      (d.live = true → im.stored false = false → im.whole = false → elapsed (d.slate - im.idle) 10000000 = true →
        Does (.loaderIdleTimeout false) s (ended stTIMEOUT im.got.length im))) ∧
    (∀ (hdr : Word) (words : List (Word × Bool)), d.live = true → d.domainUp 2 = true → d.clocked CFG_CTL = true → d.cfg.load = none → d.cfg.strayAt = none →
      Does (.loadPortPacket hdr words) s (fun e =>
        let c := satU 32 (d.rf CFG_PORT_CNT_COUNT + (1 + words.length))
        e.rf CFG_PORT_CNT_COUNT = c ∧ e.cfg.strayAt = some d.slate ∧ Logs d e 3 0x05 .note [c, c / 256, 0, 0, 0])) ∧
    (∀ (p : Fin 16) (h : MeshHdr) (sl : Fin 4), d.live = true → (d.meshTake p h 10).1 = true →
      let n := leNat (d.storeBytes (sl.val * 0x0A000000 + 16) 4)
      (d.bit CFG_SERVE_EN = false → Does (.neighbourLoadRequest p h sl) s (fun e =>
        e = (d.meshTake p h 10).2.meshSend p true 0x3FF (d.rf MSH_STAT_NUM) (.data (d.slate) []))) ∧
      (d.bit CFG_SERVE_EN = true → d.domainUp 2 = true → d.clocked CFG_CTL = true → 288 ≤ n → n ≤ 0x0A000000 → Does (.neighbourLoadRequest p h sl) s (fun e =>
        e = (packets (n / 256 + 1) (d.storeBytes (sl.val * 0x0A000000) n)).foldl
          (fun x b => x.meshSend p true 0x3FF (d.rf MSH_STAT_NUM) (.data (d.slate) b)) (d.meshTake p h 10).2))) ∧
    (d.live = true → d.cfgState = gCLEARING →
      (d.cfg.loadWait = none → Does .loadClearingDone s (fun e => e.cfgState = gFAILED ∧
        ∀ k, k ∈ d.cfg.loadClear.frames → SMap.at 0 e.cfg.active k = 0)) ∧
      (∀ a b c, d.cfg.loadWait = some (a, b, c) → d.cfg.splice = none → Does .loadClearingDone s (fun e => e.cfgState = gHEADER ∧ e.cfg.loadWait = none ∧
        e.cfg.load = some (Image.start a b c (b * 0x0A000000) 0 d.slate))))

/-- For a full load whose next bytes have arrived and read without error: a header that passes Table CFG-2 leads to BODY,
one that fails ends the load with the status of the first check. A FRAMES section within named regions writes its
frames to the active plane; outside them it ends the load with FORMAT. A MEMORY section writes its RAM or scratchpad
words; where the march is due it starts it, and a failing march ends the load. TABLE sections set the routing, the
regions, the synthesisers and the I/O banks. A REGS section adds its pairs, or ends the load where one may not be
named; so does a malformed section. A trailer that passes leads to VERIFY and the next tick releases the image: DONE,
user I/O on, CFG code 0x01, named powered regions loaded and out of isolation; a pair answered with an error ends the
load with ACCESS.
Follows: 13_configuration_store_and_loading.md (The image header; Sections; Frames; Memories; Tables; The trailer; Release). -/
def Obligations.ImagesAreCheckedReadAndReleased : Prop :=
  ∀ (s : State) (im : Image) (h : List Byte) (pages : List PageErr),
    let d := s.dev
    let ready := fun (o n : Nat) => im.has false o n = true ∧
      (im.stored false = true → d.rangeBusy (im.base + o) n = false ∧ d.pagesRead (im.base + o) n pages = (none, d))
    let ended := fun (st ofs : Nat) (e : Dev) => e.cfg.load = none ∧ e.cfgState = gCLEARING ∧ e.rf CFG_STAT_STATUS = st ∧
      Logs d e 3 0x02 .error [im.src, st, ofs / 16, ofs / 16 / 2 ^ 8, ofs / 16 / 2 ^ 16]
    let hd := d.imageBytes im false 0 256
    let stop := hdrLength h - 32
    let sec := sectionOf (d.bodyBytes im false h im.pos 16)
    let n := 16 + sec.padded
    let pay := d.bodyBytes im false h (im.pos + 16) sec.len
    let f0 := frameKey (frameAddrDie sec.arg0) (frameAddrSlot sec.arg0)
    let named := fun k => ∃ r, d.frameRegion k = some r ∧ r ∈ hdrRegions h
    d.live = true → d.cfg.load = some im →
    (Counting d → im.header = none → ready 0 256 →
      (∀ k st, d.headerCheck hd false (im.src == 1) (im.stored false) = some (k, st) → Does (.imageHeader false pages) s (ended st 0)) ∧
      (d.headerCheck hd false (im.src == 1) (im.stored false) = none → ¬ (hdrLength hd < im.got.length ∧ im.src = 3) →
        Does (.imageHeader false pages) s (fun e => e.cfgState = gBODY ∧ RegsBut [CFG_STAT] d e ∧
          e.cfg.load = some { im with header := some hd, pos := 256, got := im.got.take (hdrLength hd) }))) ∧
    (im.header = some h → d.cfgState = gBODY → im.keyLost = false →
      (im.pos + 16 ≤ stop → sec.formed (stop - im.pos - 16) = true → ready im.pos n → im.has false im.pos 16 = true →
        (∀ fs, sec.typ = secFRAMES → sec.frames = some fs → (hdrMarch h = false ∨ im.memSeen = false) →
          ((∀ k, k ∈ fs → named k) → Does (.framesSection false pages) s (fun e => e.regs = d.regs ∧
            (∀ i, i < sec.arg1 → SMap.at 0 e.cfg.active (f0 + i) = frameOfBytes (bytesAt pay (2048 * i) 2048)) ∧
            (∀ k, k ∉ fs → SMap.at 0 e.cfg.active k = SMap.at 0 d.cfg.active k) ∧
            (e.cfg.load.map (fun x => (x.pos, x.frames, x.wrote))) = some (im.pos + n, im.frames + fs.length, im.wrote ++ fs))) ∧
          ((∃ k, k ∈ fs ∧ ¬ named k) → Does (.framesSection false pages) s (ended stFORMAT im.pos))) ∧
        (sec.typ = secMEMORY →
          (hdrMarch h = false → sec.overruns = false →
            (sec.sub = 0 → (∃ r, d.regionOf sec.die sec.host.1 sec.host.2 = some r ∧ r ∈ hdrRegions h) → Does (.memorySection false pages none) s (fun e =>
              e.regs = d.regs ∧ (e.cfg.load.map (·.pos)) = some (im.pos + n) ∧
              ∀ k, k < sec.len / 8 → e.tileWord sec.die sec.index (sec.arg1 / 8 + k) = BitVec.ofNat 40 (leNat (bytesAt pay (8 * k) 8)))) ∧
            (sec.sub = 2 → d.domPowered (19 + (sec.die * 32 + sec.index) / 16) = true → Does (.memorySection false pages none) s (fun e =>
              e.regs = d.regs ∧ (e.cfg.load.map (·.pos)) = some (im.pos + n) ∧ ∀ k, k < sec.len / 4 →
              e.spadElem (sec.die * 32 + sec.index) (sec.arg1 / 4 + k) = { v := BitVec.ofNat 32 (leNat (bytesAt pay (4 * k) 4)), p := false }))) ∧
          (hdrMarch h = true → im.marched = false → Does (.memorySection false pages none) s (fun e => e.cfgState = gMARCH ∧ e.cfg = d.cfg) ∧
            ∀ r, marchFound r = true → Does (.memorySection false pages (some r)) s (fun e => e.cfg.load = none ∧ e.cfgState = gCLEARING ∧
              e.rf CFG_STAT_STATUS = stMARCH))) ∧
        (sec.typ = secTABLE →
          (sec.sub = 0 → Does (.tableSection false pages) s (fun e => e.cfg.routing = pay ∧ e.regs = d.regs)) ∧
          (sec.sub = 1 → Does (.tableSection false pages) s (fun e => ∀ r : Fin 64, e.bit (SPL_REGr_DEF_VALID r) = entryDefines (regionEntries pay) r)) ∧
          (sec.sub = 2 → Does (.tableSection false pages) s (fun e => ∀ f : Fin 8, e.rd (CKC_SYNf_CFG f) =
            (d.plainWrite (CKC_SYNf_CFG f) (Config.synthSetting pay f)).rd (CKC_SYNf_CFG f))) ∧
          (sec.sub = 3 → Does (.tableSection false pages) s (fun e => e.cfg.ioBanks = pay ∧
            ∀ g : Fin 64, e.rd (GPIO_MAPg g) = Config.gpioMap pay g &&& 0x800003FF))) ∧
        (sec.typ = secREGS →
          let a := fun k => leNat (bytesAt pay (8 * k) 4)
          ((∀ k, k < sec.len / 8 → regsAddr (a k) = true) → Does (.regsSection false pages) s (fun e => e.regs = d.regs ∧
            (e.cfg.load.map (fun x => (x.pos, x.pairs))) = some (im.pos + n, im.pairs ++ (List.range (sec.len / 8)).map (fun k =>
              (BitVec.ofNat 32 (a k), BitVec.ofNat 32 (leNat (bytesAt pay (8 * k + 4) 4))))))) ∧
          ((∃ k, k < sec.len / 8 ∧ regsAddr (a k) = false) → Does (.regsSection false pages) s (ended stFORMAT im.pos)))) ∧
      (im.pos + 16 ≤ stop → sec.formed (stop - im.pos - 16) = false → ready im.pos 16 → Does (.tableSection false pages) s (ended stFORMAT im.pos)) ∧
      (im.pos = stop → 32 ≤ hdrLength h → hdrMarch h = false → ready stop 32 →
        (d.trailerCheck im false h = none → Does (.imageTrailer false pages none) s (fun e => e.cfgState = gVERIFY ∧
          e.cfg.load = some { im with pos := hdrLength h, idle := d.slate } ∧ RegsBut [CFG_STAT] d e)) ∧
        (∀ st, d.trailerCheck im false h = some st → Does (.imageTrailer false pages none) s (ended st stop)))) ∧
    (im.header = some h → h.length = 256 → d.cfgState = gVERIFY → im.idle < d.slate →
      (im.pairs = [] → Does .imageRelease s (fun e => e.cfgState = gDONE ∧ e.rf CFG_STAT_STATUS = stDONE ∧ e.bit CFG_STAT_DONE = true ∧
        e.cfg.load = none ∧ e.cfg.ioOn = true ∧ e.cfg.doneHigh = true ∧ e.rf CFG_IMG_BUILD = hdrBuild h ∧ e.bit CFG_IMG_SRC_VALID = true ∧
        Logs d e 3 0x01 .info [im.src, im.slot, hdrBuild h, hdrBuild h / 2 ^ 8, hdrBuild h / 2 ^ 16] ∧
        ∀ r : Fin 64, d.regionDefined r = true →
          (r.val ∈ hdrRegions h ∧ d.regionPowered r = true → e.rstate r = rLOADED ∧ e.bit (SPL_REGr_STAT_ISOLATED r) = false) ∧
          (r.val ∉ hdrRegions h → e.bit (SPL_REGr_STAT_ISOLATED r) = true))) ∧
      (∀ a x rest, im.pairs = (a, x) :: rest → rowAt a.toNat = none → Does .imageRelease s (ended stACCESS im.pos)))

/-- A START of a permitted port with no Splice in progress enters HEADER for its source and tick; without permission it
is refused with ACCESS, with a Splice in progress with FULL, both logged as SPL code 0x03. Words of its source are
appended. A header and manifest that pass request one CONFIG Cut a region, mark the regions staging and enter BODY
with code 0x01; others end it in FAILED with code 0x03. A FRAMES section of a Splice writes the shadow plane only; a
MEMORY section beyond the RAMs of the fabric and a REGS section end it with FORMAT; a trailer that passes leads to
STAGED. ABORT before T - 64, an early END, a full buffer and 10 ms without a word end it with code 0x04. A scrub pass
starts on its period; a slot whose frame differs is counted and queued; a lost golden signature is logged as 0x0A. A
repair rewrites the frame with code 0x06, or isolates a region without a source with code 0x07. A RELEASE of an
isolated loaded region waits for the next tick.
Follows: 14_splice_and_scrub.md (Starting a Splice; Acceptance; Sections; Endings; Scrubbing; Repair; Release). -/
def Obligations.SplicesStageCommitAndScrubbingRepairs : Prop :=
  ∀ (s : State) (rq : Requester) (v : Word) (die : Fin 2) (t : BitVec 64) (pages : List PageErr),
    let d := s.dev
    let T := d.rd64 SPL_CUT_TICK_LO SPL_CUT_TICK_HI
    let refused := fun (src st : Nat) (e : Dev) => e.cfg.splice = d.cfg.splice ∧ e.rf SPL_STAT_STATUS = st ∧ e.bit SPL_STAT_FAIL = true ∧
      e.splState = d.splState ∧ Logs d e 5 0x03 .warn [src, st, 0, 0, 0]
    let begun := fun (src base tick : Nat) (e : Dev) => e.splState = pHEADER ∧ e.rf SPL_STAT_SPACE = 16384 ∧
      e.cfg.splice = some (Image.start src 0 0 base tick d.slate)
    let ended := fun (im : Image) (st ofs : Nat) (e : Dev) => e.cfg.splice = none ∧ e.splState = pFAILED ∧ e.rf SPL_STAT_STATUS = st ∧
      e.bit SPL_STAT_FAIL = true ∧ e.rf SPL_FAIL_STATUS = st ∧ Logs d e 5 0x04 .error [im.src, st, 0, ofs / 16, ofs / 16 / 256]
    (Counting d → d.live = true → d.domainUp 2 = true → d.clocked SPL_CTL = true → d.tileDead die 60 0 = none →
      ((d.rf SPL_CTL_ICP_EN).testBit die = false → Does (.icpStart die t) s (refused die stACCESS)) ∧
      ((d.rf SPL_CTL_ICP_EN).testBit die = true →
        (d.spliceBusy = true → Does (.icpStart die t) s (refused die stFULL)) ∧
        (d.spliceBusy = false → d.splState ≠ pCLEARING → Does (.icpStart die t) s (begun die 0 t.toNat)) ∧
        (d.spliceBusy = false → d.splState = pCLEARING → Does (.icpStart die t) s (fun e => e.regs = d.regs ∧
          e.cfg.spliceWait = some { src := die, tick := t.toNat, base := 0 })))) ∧
    (Counting d → Reaches d SPL_CTL → v.getLsbD 1 = false → v.getLsbD 2 = false → d.spliceBusy = false → d.splState ≠ pCLEARING →
      (v.getLsbD 3 = false → d.rf SPL_SRC_OFFSET % 2048 = 0 → Does (.spliceStart rq v) s (begun 2 (d.rf SPL_SRC_OFFSET) T)) ∧
      (v.getLsbD 3 = false → d.rf SPL_SRC_OFFSET % 2048 ≠ 0 → Does (.spliceStart rq v) s (refused 2 stACCESS)) ∧
      (v.getLsbD 3 = true → Does (.spliceStart rq v) s (begun 3 0 T))) ∧
    (∀ im : Image, d.cfg.splice = some im → im.regions = [] → im.left = [] → im.memSeen = false →
      let at_ := if im.stored true then im.pos else im.got.length
      (Counting d → d.live = true → d.tileDead die 60 0 = none → Does (.icpAbort die) s (ended im stABORT at_)) ∧
      (Counting d → Reaches d SPL_CTL → v.getLsbD 0 = false →
        (v.getLsbD 2 = false → Does (.spliceAbort rq v) s (fun e => e.cfg.splice = none ∧ e.rf SPL_STAT_STATUS = stABORT ∧
          Logs d e 5 0x04 .error [im.src, stABORT, 0, at_ / 16, at_ / 16 / 256])) ∧
        (v.getLsbD 1 = false → im.src = 3 → im.got.length < 256 → Does (.spliceStreamEnd rq v) s (fun e => e.cfg.splice = none ∧
          e.rf SPL_STAT_STATUS = stLENGTH ∧ Logs d e 5 0x04 .error [3, stLENGTH, 0, im.got.length / 16, im.got.length / 16 / 256]))) ∧
      (d.live = true → im.stored true = false → im.whole = false → elapsed (d.slate - im.idle) 10000000 = true →
        Does (.loaderIdleTimeout true) s (ended im stTIMEOUT im.got.length))) ∧
    (∀ im : Image, d.cfg.splice = some im → im.whole = false →
      (∀ x : BitVec 128, d.live = true → d.tileDead die 60 0 = none → im.src = die.val → Does (.icpDataWord die x) s (fun e => e.regs = d.regs ∧
        e.cfg.splice = some { im with got := im.got ++ leBytes 16 x.toNat, idle := d.slate })) ∧
      (∀ k : BitVec 15, Reaches d SPL_DATA → im.src = 3 → 1 ≤ d.rf SPL_STAT_SPACE + k.toNat → Does (.splDataWrite rq v k) s (fun e =>
        e.cfg.splice = some { im with got := im.got ++ leBytes 4 v.toNat, idle := d.slate } ∧
        e.rf SPL_STAT_SPACE = min 16384 (d.rf SPL_STAT_SPACE + k.toNat) - 1 ∧ RegsBut [SPL_STAT] d e))) ∧
    (∀ (im : Image) (h : List Byte), d.live = true → d.cfg.splice = some im →
      let ready := fun (o n : Nat) => im.has true o n = true ∧
        (im.stored true = true → d.rangeBusy (im.base + o) n = false ∧ d.pagesRead (im.base + o) n pages = (none, d))
      let hd := d.imageBytes im true 0 256
      let rs := hdrRegions hd
      let stop := hdrLength h - 32
      let sec := sectionOf (d.bodyBytes im true h im.pos 16)
      let n := 16 + sec.padded
      let pay := d.bodyBytes im true h (im.pos + 16) sec.len
      let f0 := frameKey (frameAddrDie sec.arg0) (frameAddrSlot sec.arg0)
      let gone := fun (st : Nat) (e : Dev) => e.cfg.splice = none ∧ e.rf SPL_STAT_STATUS = st ∧ e.bit SPL_STAT_FAIL = true
      (Counting d → im.header = none → ready 0 256 →
        (∀ k st, d.headerCheck hd true false (im.stored true) = some (k, st) → Does (.imageHeader true pages) s (fun e => gone st e ∧
          e.splState = pFAILED ∧ Logs d e 5 0x03 .warn [im.src, st, 0x10 + k, 0, 0])) ∧
        (d.headerCheck hd true false (im.stored true) = none →
          (∀ k st r, d.manifestCheck im rs = some (k, st, r) → Does (.imageHeader true pages) s (fun e => gone st e ∧ e.splState = pFAILED ∧
            Logs d e 5 0x03 .warn [im.src, st, k, r, 0])) ∧
          (d.manifestCheck im rs = none → im.src ≠ 3 ∨ im.got.length ≤ hdrLength hd → Does (.imageHeader true pages) s (fun e => e.splState = pBODY ∧
            e.cfg.splice = some { im with header := some hd, pos := 256, regions := rs, left := rs } ∧
            (∀ r, r ∈ rs → e.bit (SPL_REGr_STAT_STAGING r) = true ∧ ∃ i, e.cut i = armedSlot kCONFIG r im.tick) ∧
            Logs d e 5 0x01 .info [im.src, rs.length, hdrManifest hd, hdrManifest hd / 256, 0])))) ∧
      (im.header = some h → d.splState = pBODY → im.keyLost = false →
        (im.pos + 16 ≤ stop → sec.formed (stop - im.pos - 16) = true → ready im.pos n → im.has true im.pos 16 = true →
          (∀ fs, sec.typ = secFRAMES → sec.frames = some fs → (∀ k, k ∈ fs → ∃ r, d.frameRegion k = some r ∧ r ∈ hdrRegions h) →
            Does (.framesSection true pages) s (fun e => e.regs = d.regs ∧ e.cfg.active = d.cfg.active ∧
              (∀ i, i < sec.arg1 → SMap.at 0 e.cfg.shadow (f0 + i) = frameOfBytes (bytesAt pay (2048 * i) 2048)) ∧
              (∀ k, k ∉ fs → SMap.at 0 e.cfg.shadow k = SMap.at 0 d.cfg.shadow k))) ∧
          (sec.typ = secMEMORY → 2 ≤ sec.sub → Does (.memorySection true pages none) s (gone stFORMAT)) ∧
          (sec.typ = secTABLE → sec.sub = 0 → im.routing = none → Does (.tableSection true pages) s (fun e => e.regs = d.regs ∧
            e.cfg.splice = some { im with routing := some pay, pos := im.pos + n })) ∧
          (sec.typ = secREGS → Does (.regsSection true pages) s (gone stFORMAT))) ∧
        (im.pos = stop → ready stop 32 → d.trailerCheck im true h = none → Does (.imageTrailer true pages none) s (fun e => e.splState = pSTAGED ∧
          e.cfg.splice = some { im with pos := hdrLength h } ∧ (∀ i : Fin 32, (d.cut i).state = .armed → (d.cut i).kind = kCONFIG →
            (d.cut i).target ∈ im.left → (e.cut i).confirmed = true))))) ∧
    (d.live = true → d.splState = pCLEARING → d.cfg.spliceWait = none → Does .spliceClearingDone s (fun e => e.splState = pFAILED ∧
      ∀ r k, r ∈ d.cfg.spliceClear.regions → d.regionHasFrame r k = true → SMap.at 0 e.cfg.active k = 0 ∧ SMap.at 0 e.cfg.shadow k = 0)) ∧
    (d.live = true → d.splUp = true →
      (d.bit SPL_SCRUB_CTL_EN = true → d.slate % 3686400 = 0 → Does .scrubPassStart s (fun e => e.cfg.passAt = some d.slate ∧
        e.bit SPL_SCRUB_STAT_ACTIVE = true ∧ e.rf SPL_SCRUB_STAT_SLOT = 0 ∧ e.outs = .reportRequest :: d.outs ∧ RegsBut [SPL_SCRUB_STAT] d e)) ∧
      (d.bit SPL_SCRUB_CTL_EN = false ∨ d.slate % 3686400 ≠ 0 → Does .scrubPassStart s (fun e => e = d)) ∧
      (∀ (slot : Fin 28872) (r : Nat) (g : BitVec 64 × Nat),
        let k := frameKey die slot
        d.slotNow slot = true → d.scrubRegion k = some r → SMap.at none d.cfg.golden k = some g →
        Does (.scrubSlot die slot [] true) s (fun e => SMap.at none e.cfg.golden k = none ∧ Logs d e 5 0x0A .warn (r :: frameDetail k)) ∧
        (frameSig (SMap.at 0 d.cfg.active k) = g.1 → Does (.scrubSlot die slot [] false) s (fun e => e = d)) ∧
        (frameSig (SMap.at 0 d.cfg.active k) ≠ g.1 → d.cfg.repairs.length < 16 → k ∉ d.cfg.repairs → Does (.scrubSlot die slot [] false) s (fun e =>
          e.cfg.repairs = d.cfg.repairs ++ [k] ∧ e.bit SPL_SCRUB_STAT_MISMATCH = true ∧ e.rf SPL_SCRUB_STAT_QUEUE = d.cfg.repairs.length + 1 ∧
          e.rf SPL_SCRUB_CNT_MISMATCH = satU 16 (d.rf SPL_SCRUB_CNT_MISMATCH + 1) ∧
          e.rf (SPL_REGr_STAT_MISMATCH r) = satU 16 (d.rf (SPL_REGr_STAT_MISMATCH r) + 1)))) ∧
      (∀ (k r : Nat) (rest : List Nat) (g : BitVec 64 × Nat), d.cfg.repairs = k :: rest → d.frameRegion k = some r → SMap.at none d.cfg.golden k = some g →
        (SMap.at none d.cfg.source r = none → Does (.frameRepair pages []) s (fun e => e.cfg.repairs = rest ∧ e.bit (SPL_REGr_STAT_ISOLATED r) = true ∧
          e.bit (SPL_REGr_STAT_HARD r) = true ∧ e.bit SPL_SCRUB_STAT_ISOLATED = true ∧
          Logs d e 5 0x07 .error [r, 0, frameAddr k / 2 ^ 17 % 2 ^ 13, frameAddr k / 2 ^ 17 % 2 ^ 13 / 2 ^ 8, 0])) ∧
        (∀ src : RepairSrc, SMap.at none d.cfg.source r = some src → d.rangeBusy (src.base + g.2) 2048 = false →
          (∀ x : Dev, x.nvs = d.nvs → x.pagesRead (src.base + g.2) 2048 pages = (none, x)) → crc64 (d.repairCopy src g.2) = g.1 →
          frameSig (frameOfBytes (d.repairCopy src g.2)) = g.1 → Does (.frameRepair pages []) s (fun e => e.cfg.repairs = rest ∧
            SMap.at 0 e.cfg.active k = frameOfBytes (d.repairCopy src g.2) ∧ e.bit (SPL_REGr_STAT_REPAIRED r) = true ∧
            Logs d e 5 0x06 .warn (r :: frameDetail k))))) ∧
    (∀ r : Fin 64, Reaches d (SPL_REGr_CTL r) →
      (d.rstate r = rLOADED → d.bit (SPL_REGr_STAT_ISOLATED r) = true → Does (.regionRelease rq r v) s (fun e => r.val ∈ e.cfg.relNext ∧ e.regs = d.regs)) ∧
      (d.rstate r ≠ rLOADED → Does (.regionRelease rq r v) s (fun e => e.cfg = d.cfg ∧ e.regs = d.regs)))

/-- A sampled source that is enabled becomes pending by its level or its selected edge, and a level source stops being
pending with its level unless software set it. With D0 stopped a selected pin edge is latched, and the latch is
delivered with EVC code 0x05 once the clocks run. A claim of an idle target gives its lowest pending source, which
becomes active and is no longer pending; a completion of the active source ends it, and any other is a fault with
code 0x02 and non-maskable source 0. SETPEND sets and PEND clears the pending bits of their words. A trap of a
running core stores cause and address and goes to its vector with code 0x01; a second one stops the core with 0x03.
The core enters its event vector when enabled and idle with a candidate, and the non-maskable vector once. A keyed
service reloads the watchdog, a wrong key is logged; enabling reloads it; LOCK refuses; the warning fires at its
level; at zero the watchdog takes a SYSTEM reset of cause 5.
Follows: 15_supervisor_and_events.md (Events; Claims; Completion; Traps; Watchdog). -/
def Obligations.EventsPendAreClaimedAndTraps : Prop :=
  ∀ (s : State) (rq : Requester) (v : Word),
    let d := s.dev
    (d.live = true →
      (∀ (n : Fin 256) (lv : Bool), internalSource n = true ∨ (200 ≤ n.val ∧ n.val ≤ 231) →
        let high := if internalSource n then d.sourceOut n else lv && !d.fevDead n
        let was := SMap.at false d.sup.level n
        let sense := d.rf (EVC_SRCs_CFG_SENSE n)
        (d.bit (EVC_SRCs_CFG_EN n) = false → Does (.eventSourceFire n lv) s (fun e => e.regs = d.regs ∧ SMap.at false e.sup.level n = high)) ∧
        (d.bit (EVC_SRCs_CFG_EN n) = true →
          (sense = 0 → high = true → d.isActive n = false → Does (.eventSourceFire n lv) s (fun e => e.pendOf n = true ∧ RegsBut [EVC_PENDk (n / 32)] d e)) ∧
          (sense = 0 → high = false → SMap.at false d.sup.swPend n = false → Does (.eventSourceFire n lv) s (fun e => e.pendOf n = false)) ∧
          (sense = 1 ∨ sense = 3 → was = false → high = true → Does (.eventSourceFire n lv) s (fun e => e.pendOf n = true ∧
            SMap.at false e.sup.level n = true)) ∧
          (sense = 2 ∨ sense = 3 → was = true → high = false → Does (.eventSourceFire n lv) s (fun e => e.pendOf n = true)) ∧
          (sense ≠ 0 → was = high → Does (.eventSourceFire n lv) s (fun e => e.regs = d.regs)))) ∧
      (∀ (p : Fin 32) (lv : Bool) (ns : Nat),
        let n := 32 + p.val
        (d.gaf.d0Stop = true → d.bit (EVC_SRCs_CFG_EN n) = true → senseSelects (d.rf (EVC_SRCs_CFG_SENSE n)) lv = true → n ∉ d.sup.latch →
          (5 ≤ ns → Does (.eventPinEdge p lv ns) s (fun e => e.sup.latch = d.sup.latch ++ [n] ∧ e.regs = d.regs)) ∧
          (ns < 5 → Does (.eventPinEdge p lv ns) s (fun e => e = d))) ∧
        (d.gaf.d0Stop = false → d.p1On = true → d.bit (EVC_SRCs_CFG_EN n) = true → d.rf (EVC_SRCs_CFG_SENSE n) = 3 → SMap.at false d.sup.level n = !lv →
          ((d.rf (EVC_SRCs_CFG_FILTER n) + 1) * 1000 ≤ ns * 48 → Does (.eventPinEdge p lv ns) s (fun e => e.pendOf n = true ∧
            SMap.at false e.sup.level n = lv)) ∧
          (ns * 48 < (d.rf (EVC_SRCs_CFG_FILTER n) + 1) * 1000 → Does (.eventPinEdge p lv ns) s (fun e => e = d)))) ∧
      (d.gaf.d0Stop = false → d.gaf.d4Stop = false → d.p1On = true → ∀ p : Fin 32, d.sup.latch = [32 + p.val] → Does .latchedEdgeDelivery s (fun e =>
        e.pendOf (32 + p.val) = true ∧ e.sup.latch = [] ∧ Logs d e 0x0E 0x05 .info [32 + p.val, 0, 0, 0, 0])) ∧
      (d.gaf.d0Stop = true ∨ d.p1On = false → Does .latchedEdgeDelivery s (fun e => e = d)) ∧
      (d.coreRuns = true →
        (∀ (c : TrapCause) (a : Word),
          (d.bit EVC_TRAP_VALID = false → Does (.coreTrap c a) s (fun e => e.rf EVC_TRAP_CAUSE = causeCode c ∧ e.bit EVC_TRAP_VALID = true ∧
            e.rd EVC_TRAP_ADDR = a ∧ e.sup.core = { d.sup.core with pc := BitVec.ofNat 32 (4 * d.rf EVC_VEC_TRAP_ADDR) } ∧
            RegsBut (EVC_TRAP :: EVC_TRAP_ADDR :: logRegs) d e ∧ Logs d e 0x0E 0x01 .error (causeCode c :: wordDetail a))) ∧
          (d.bit EVC_TRAP_VALID = true → Does (.coreTrap c a) s (fun e => e.sup.core.state = cSTOPPED ∧ e.bit EVC_TRAP_DBL = true ∧
            e.rf EVC_TRAP_CAUSE = d.rf EVC_TRAP_CAUSE ∧ e.rd EVC_TRAP_ADDR = d.rd EVC_TRAP_ADDR ∧ Logs d e 0x0E 0x03 .fatal (causeCode c :: wordDetail a)))) ∧
        (d.activeOf 0 = none → (d.candidate 0).isSome = true → Does (.eventVectorEntry true) s (fun e => e.regs = d.regs ∧
          e.sup.core = { d.sup.core with evtEn := true, pc := BitVec.ofNat 32 (4 * d.rf EVC_VEC_EVT_ADDR) })) ∧
        (∀ b, b = false ∨ d.candidate 0 = none → Does (.eventVectorEntry b) s (fun e => e.regs = d.regs ∧ e.sup.core = { d.sup.core with evtEn := b })) ∧
        (d.rf EVC_NMI_NMI ≠ 0 → d.sup.core.inNmi = false → ∀ b, Does (.nmiEntry b) s (fun e => e.regs = d.regs ∧
          e.sup.core = { d.sup.core with inNmi := true, pc := BitVec.ofNat 32 (4 * d.rf EVC_VEC_NMI_ADDR) })) ∧
        (d.sup.core.inNmi = true → Does (.nmiEntry false) s (fun e => e = d))) ∧
      (d.p1On = true → d.wdgHeld = false → d.wdgDue = true → Does .watchdogWarning s (fun e => e.sup.wdgWarned = true ∧ (e.rf EVC_NMI_NMI).testBit 2 = true ∧
        RegsBut (EVC_NMI :: logRegs) d e ∧ Logs d e 0x11 0x01 .warn [0, 0, 0, 0, 0])) ∧
      (d.p1On = true → d.bit WDG_CTL_EN = true → d.wdgHeld = false → d.rd WDG_COUNT = 0 → Does .watchdogExpiry s (fun e =>
        e = (d.wdgLog 0x02 .fatal [0, 0, 0, 0, 0]).reset_ 5 0)) ∧
      (d.rd WDG_COUNT ≠ 0 → Does .watchdogExpiry s (fun e => e = d))) ∧
    (∀ t : Fin 5,
      (Reaches d (EVC_CLAIMt t) →
        (∀ n, d.activeOf t = none → d.candidate t = some n → Does (.eventClaim t (.bus rq)) s (fun e => e.resp = .data (BitVec.ofNat 32 (2 ^ 31 + n)) ∧
          e.activeOf t = some n ∧ e.pendOf n = false ∧ RegsBut [EVC_PENDk (n / 32)] d e)) ∧
        (d.activeOf t = none → d.candidate t = none → Does (.eventClaim t (.bus rq)) s (fun e => e.resp = .data 0 ∧ e.regs = d.regs ∧ e.sup = d.sup)) ∧
        (∀ n : Fin 256, d.activeOf t = some n.val → Does (.eventClaim t (.bus rq)) s (fun e => e.resp = .data (BitVec.ofNat 32 (2 ^ 31 + n.val)) ∧
          e.regs = d.regs ∧ e.sup = d.sup))) ∧
      (d.live = true → t.val ≠ 0 → d.siteDead t = false → ∀ n, d.activeOf t = none → d.candidate t = some n → Does (.eventClaim t .site) s (fun e =>
        e.activeOf t = some n ∧ e.pendOf n = false ∧ e.outs = d.outs)) ∧
      (Reaches d (EVC_COMPLETEt t) → d.p1On = true → ∀ n : Byte,
        (d.activeOf t = some n.toNat →
          (d.rf (EVC_SRCs_CFG_SENSE n.toNat) ≠ 0 → Does (.eventComplete t n (.bus rq)) s (fun e => e.activeOf t = none ∧ e.regs = d.regs)) ∧
          (pendable n.toNat = true → d.bit (EVC_SRCs_CFG_EN n.toNat) = true → d.rf (EVC_SRCs_CFG_SENSE n.toNat) = 0 →
            SMap.at false d.sup.level n.toNat = true → Does (.eventComplete t n (.bus rq)) s (fun e => e.activeOf t = none ∧ e.pendOf n.toNat = true))) ∧
        (d.activeOf t ≠ some n.toNat → Does (.eventComplete t n (.bus rq)) s (fun e => e.sup = d.sup ∧ (e.rf EVC_NMI_NMI).testBit 0 = true ∧
          e.bit EVC_FAULT_VALID = true ∧ (d.bit EVC_FAULT_VALID = false → e.rf EVC_FAULT_NAMED = n.toNat ∧ e.rf EVC_FAULT_TARGET = t) ∧
          Logs d e 0x0E 0x02 .error [t, (d.activeOf t).getD 0, n.toNat, 0, 0])))) ∧
    (∀ k : Fin 8,
      (Reaches d (EVC_SETPENDk k) → Does (.eventSetPending rq k v) s (fun e => RegsBut [EVC_PENDk k] d e ∧
        ∀ i, i < 32 → pendable (32 * k + i) = true → e.pendOf (32 * k + i) = (d.pendOf (32 * k + i) || v.getLsbD i))) ∧
      (Reaches d (EVC_PENDk k) → d.sup.setNow = [] → Does (.eventClearPending rq k v) s (fun e => RegsBut [EVC_PENDk k] d e ∧
        ∀ i, i < 32 → pendable (32 * k + i) = true → e.pendOf (32 * k + i) = (d.pendOf (32 * k + i) && !v.getLsbD i)))) ∧
    (Reaches d WDG_SVC →
      (d.bit WDG_CTL_EN = true → Does (.watchdogService rq 0xA5C3) s (fun e => e.rd WDG_COUNT = (if d.rd WDG_LOAD = 0 then 1 else d.rd WDG_LOAD) ∧
        e.sup.wdgWarned = false ∧ RegsBut [WDG_COUNT] d e)) ∧
      (v ≠ 0xA5C3 → Does (.watchdogService rq v) s (fun e => Frame logRegs d e ∧ Logs d e 0x11 0x03 .warn [0x0C, 0, 0, 0, 0]))) ∧
    (Reaches d WDG_CTL →
      (d.bit WDG_CTL_LOCK = false → d.bit WDG_CTL_EN = false → Does (.watchdogEnable rq v) s (fun e => e.bit WDG_CTL_EN = true ∧
        e.rd WDG_COUNT = (if d.rd WDG_LOAD = 0 then 1 else d.rd WDG_LOAD) ∧ RegsBut [WDG_CTL, WDG_COUNT] d e)) ∧
      (d.bit WDG_CTL_LOCK = false → Does (.watchdogLock rq v) s (fun e => e.bit WDG_CTL_LOCK = true)) ∧
      (d.bit WDG_CTL_LOCK = true → Does (.watchdogEnable rq v) s (fun e => Frame logRegs d e ∧ Logs d e 0x11 0x03 .warn [0, 1, 0, 0, 0])))

/-- A GPIO write takes the bits that have a pin and keeps the others, logging GPIO code 0x01 for one it would change; a
changed input of an assigned bit in a powered domain shows in IN and EDGE. The two-wire target acknowledges its own
address while it has the bus, stretches while it has not, and refuses another; 1 ms of stretching releases it with
TWI code 0x05. Eight bytes after the address make a write of the control bus and fewer are malformed (0x02); a read
and a status read answer; 25 ms of a low clock releases the port with 0x03. The controller port starts a transfer of
up to 8 bytes each way, refuses longer ones with LENGTH and completes an empty one; its end gives the data with DONE,
or ACCESS with code 0x04.
Follows: 15_supervisor_and_events.md (GPIO; The two-wire target port; The two-wire controller port). -/
def Obligations.GpioAndTwoWirePorts : Prop :=
  ∀ (s : State) (rq : Requester) (v : Word),
    let d := s.dev
    (∀ (oe : Bool) (w : Fin 2),
      let a := if oe then GPIO_OEw w else GPIO_OUTw w
      Reaches d a → Does (.gpioWrite rq oe w v) s (fun e => RegsBut (a :: logRegs) d e ∧
        (∀ i, i < 32 → (e.rd a).getLsbD i = if d.bit (GPIO_MAPg_VALID (32 * w + i)) then v.getLsbD i else (d.rd a).getLsbD i) ∧
        (d.sup.dbg.pins = true → e.outs = d.outs) ∧
        (∀ i, (List.range 32).filter (fun i => !d.bit (GPIO_MAPg_VALID (32 * w + i)) && v.getLsbD i != (d.rd a).getLsbD i) = [i] →
          Logs d e 0x14 0x01 .warn [32 * w + i, 0, 0, 0, 0]))) ∧
    (∀ (g : Fin 64) (lv : Bool), d.live = true → d.clocked (GPIO_INw 0) = true → d.bit (GPIO_MAPg_VALID g) = true → d.domPowered (d.gpioDomain g) = true →
      let old := (d.rd (GPIO_INw (g / 32))).getLsbD (g % 32)
      (old ≠ lv → Does (.gpioInputChange g lv) s (fun e => (e.rd (GPIO_INw (g / 32))).getLsbD (g % 32) = lv ∧
        (e.rd (GPIO_EDGEw (g / 32))).getLsbD (g % 32) = true ∧ Frame [GPIO_INw (g / 32), GPIO_EDGEw (g / 32)] d e)) ∧
      (old = lv → Does (.gpioInputChange g lv) s (fun e => e = d))) ∧
    (d.live = true →
      (∀ a : BitVec 7,
        (d.bit TWI_CFG_EN = false ∨ d.rf TWI_CFG_ADDR ≠ a.toNat → Does (.twiAddressMatch a) s (fun e => e = d.out (.twiAck false))) ∧
        (d.bit TWI_CFG_EN = true → d.rf TWI_CFG_ADDR = a.toNat → d.asleep = false →
          (d.twiBus = true → Does (.twiAddressMatch a) s (fun e => e = d.out (.twiAck true))) ∧
          (d.twiBus = false → Does (.twiAddressMatch a) s (fun e => e.sup.twi.stretch = some d.slate ∧ e.outs = d.outs)))) ∧
      (∀ t, d.sup.twi.stretch = some t →
        (d.twiBus = true → Does .twiWakeTimeout s (fun e => e.sup.twi.stretch = none ∧ e.outs = .twiAck true :: d.outs ∧ e.regs = d.regs)) ∧
        (d.twiBus = false → elapsed (d.slate - t) 1000000 = true → Does .twiWakeTimeout s (fun e => e.sup.twi.stretch = none ∧ e.sup.twi.nak = true ∧
          e.outs = .twiRelease :: d.outs ∧ Logs d e 0x13 0x05 .warn [0, 0, 0, 0, 0]))) ∧
      (d.bit TWI_CFG_EN = true → d.sup.twi.nak = false → d.twiBus = true → d.twiWaits = false →
        let q := d.setTwi { d.sup.twi with stretch := none }
        (∀ (l : List Byte) (env : BusEnv), l.length < 8 → Does (.twiWrite l env) s (fun e => RegsBut logRegs d e ∧ e.outs = d.outs ∧
          Logs d e 0x13 0x02 .warn [l.length, 0, 0, 0, 0])) ∧
        (∀ (a x : Word) (env : BusEnv), Counting d → Does (.twiWrite (leBytes 4 a.toNat ++ leBytes 4 x.toNat) env) s (fun e =>
          e = (q.busPut .host a.toNat x env).twiTake true a.toNat)) ∧
        (∀ (a : Word) (env : BusEnv), Does (.twiRead a env) s (fun e => e = (q.busRead false .host a.toNat env).twiTake false a.toNat)) ∧
        Does .twiStatusRead s (fun e => e = q.out (.twiBytes [BitVec.ofNat 8 d.sup.twi.last]))) ∧
      (d.bit TWI_CFG_EN = true → d.sup.twi.nak = true → Does .twiStatusRead s (fun e => e.outs = .twiAck false :: d.outs ∧ e.sup.twi.nak = false)) ∧
      (∀ ns, (25000000 < ns → Does (.twiSclTimeout ns) s (fun e => e.outs = .twiRelease :: d.outs ∧ e.sup.twi.stretch = none ∧
          Logs d e 0x13 0x03 .warn [0, 0, 0, 0, 0])) ∧
        (ns ≤ 25000000 → Does (.twiSclTimeout ns) s (fun e => e = d))) ∧
      (d.bit TWI_MCTL_BUSY = true →
        (∀ l, d.rf TWI_MCTL_RLEN ≤ 8 → Does (.twiControllerEnd (.acked l)) s (fun e => e.bit TWI_MCTL_BUSY = false ∧ e.rf TWI_MCTL_STATUS = stDONE ∧
          e.twiData = bytesAt l 0 (d.rf TWI_MCTL_RLEN) ++ d.twiData.drop (d.rf TWI_MCTL_RLEN))) ∧
        Does (.twiControllerEnd .noAck) s (fun e => e.bit TWI_MCTL_BUSY = false ∧ e.rf TWI_MCTL_STATUS = stACCESS ∧ e.twiData = d.twiData ∧
          Logs d e 0x13 0x04 .warn [d.rf TWI_MCTL_ADDR, 0, 0, 0, 0]) ∧
        Does (.twiControllerEnd .arbitration) s (fun e => e.rf TWI_MCTL_STATUS = stACCESS ∧ Logs d e 0x13 0x04 .warn [d.rf TWI_MCTL_ADDR, 1, 0, 0, 0]))) ∧
    (Reaches d TWI_MCTL → d.bit TWI_MCTL_BUSY = false →
      let wl := fieldGet 16 4 v
      let rl := fieldGet 20 4 v
      (wl ≤ 8 → rl ≤ 8 → wl + rl ≠ 0 → Does (.twiControllerGo rq v) s (fun e => e.bit TWI_MCTL_BUSY = true ∧
        e.outs = .twiSensor (fieldGet 8 7 v) (fieldGet 24 2 v % 3) (d.twiData.take wl) rl :: d.outs)) ∧
      (8 < wl ∨ 8 < rl → Does (.twiControllerGo rq v) s (fun e => e.bit TWI_MCTL_BUSY = false ∧ e.rf TWI_MCTL_STATUS = stLENGTH ∧ e.outs = d.outs)) ∧
      (wl + rl = 0 → Does (.twiControllerGo rq v) s (fun e => e.bit TWI_MCTL_BUSY = false ∧ e.rf TWI_MCTL_STATUS = stDONE ∧ e.outs = d.outs)))

/-- On a powered device each TAP instruction becomes current and shifts out its register: IDCODE 0x0E29A0D3, the boundary
sample, one zero for BYPASS, the debug state; EXTEST drives the boundary cells on the pins. With DBG_ACC current a
debug operation makes its bus access and takes its answer, a core access reads or writes the core's register with
DONE, and one with no register ends with ACCESS; while an operation is busy another is discarded with MON code 0x04.
A halt of a running core leaves it HALTED at its address with code 0x02, or HALTING while it holds a reservation,
whose end or time-out (0x03) halts it. An enabled breakpoint halts it with reason 1, RESUME runs it on, STEP halts it
again with reason 2, FEED runs one instruction on a halted core only, and ATTACH places or withdraws the debugger's
votes on P1 and P2 with code 0x01.
Follows: 16_debug_and_monitor.md (The TAP; Debug operations; Core debugging; Attach). -/
def Obligations.TheTapAndTheDebuggerReachTheCore : Prop :=
  ∀ (s : State) (a v : Word) (env : BusEnv) (c : CoreEnv),
    let d := s.dev
    let b := d.sup.dbg
    let core := d.sup.core
    (d.gaf.good = true →
      (∀ cells sample : List Bool,
        let x := sample.foldr (fun b n => b.toNat + 2 * n) 0
        Does (.extest cells sample) s (fun e => e.sup.dbg.ir = 0 ∧ e.sup.dbg.pins = true ∧ e.sup.dbg.boundary = cells ∧ e.regs = d.regs ∧
          e.outs = .boundaryPins cells :: .tdo sample.length x :: d.outs) ∧
        Does (.samplePreload cells sample) s (fun e => e.sup.dbg.ir = 2 ∧ e.sup.dbg.pins = b.pins ∧ e.sup.dbg.boundary = cells ∧ e.regs = d.regs ∧
          e.outs = .tdo sample.length x :: d.outs)) ∧
      Does .tapReset s (fun e => e = d.setDbg { b with ir := 1, pinsEnd := b.pins }) ∧
      Does .idcode s (fun e => e.sup.dbg.ir = 1 ∧ e.sup.dbg.dr = 0x0E29A0D3 ∧ e.regs = d.regs ∧ e.outs = .tdo 32 0x0E29A0D3 :: d.outs) ∧
      (∀ k : Byte, (tapListed k.toNat = false → Does (.bypass k) s (fun e => e.sup.dbg.ir = k.toNat ∧ e.regs = d.regs ∧ e.outs = .tdo 1 0 :: d.outs)) ∧
        (tapListed k.toNat = true → Does (.bypass k) s (fun e => e = d))) ∧
      Does .dbgAcc s (fun e => e.sup.dbg.ir = 0x10 ∧ e.regs = d.regs ∧
        e.outs = .tdo 67 (b.busy.isSome.toNat + b.status * 2 ^ 3 + b.data.toNat * 2 ^ 35) :: d.outs)) ∧
    (d.live = true →
      (b.ir ≠ 0x10 → Does .debugNop s (fun e => e = d) ∧ Does (.coreRd a) s (fun e => e = d)) ∧
      (b.ir = 0x10 →
        let x := b.busy.isSome.toNat + b.status * 2 ^ 3 + b.data.toNat * 2 ^ 35
        let q := (d.setDbg { b with dr := x }).out (.tdo 67 x)
        let ends := fun (st : Nat) (e : Dev) => e.sup.dbg.busy = none ∧ e.sup.dbg.status = st ∧ e.outs = .tdo 67 x :: d.outs
        Does .debugNop s (fun e => e = q) ∧
        (b.busy.isSome = true → Does (.debugRead a env) s (fun e => e.sup.dbg = q.sup.dbg ∧ Logs d e 0x12 0x04 .warn [1, stFULL, 0, 0, 0]) ∧
          Does (.coreRd a) s (fun e => e.sup.dbg = q.sup.dbg ∧ Logs d e 0x12 0x04 .warn [4, stFULL, 0, 0, 0])) ∧
        (b.busy = none →
          Does (.debugRead a env) s (fun e => e = (q.busRead false .debug a.toNat env).dbgTake 1) ∧
          Does (.peek a env) s (fun e => e = (q.busRead true .debug a.toNat env).dbgTake 3) ∧
          (Counting d → Does (.debugWrite a v env) s (fun e => e = (q.busPut .debug a.toNat v env).dbgTake 2)) ∧
          (d.coreRegBad a = true → Does (.coreRd a) s (ends stACCESS) ∧ Does (.coreWr a v c) s (fun e => ends stACCESS e ∧ e.sup.core = core)) ∧
          (d.coreRegBad a = false → Does (.coreRd a) s (fun e => ends stDONE e ∧ e.regs = d.regs ∧ e.sup.dbg.data =
            (if a = 0 then (if b.attach then 8 else 0) else if a = 1 then core.statWord else if a = 2 then core.pc
             else if a = 3 then core.ddata else SMap.at 0 b.bp (a.toNat - 4)))) ∧
          (d.p1On = true →
            (core.state = cHALTED → Does (.coreWr 2 v c) s (fun e => ends stDONE e ∧ e.sup.core = { core with pc := v })) ∧
            (core.state ≠ cHALTED → Does (.coreWr 2 v c) s (fun e => ends stACCESS e ∧ e.sup.core = core ∧ Logs d e 0x12 0x04 .warn [5, stACCESS, 0, 0, 0])) ∧
            Does (.coreWr 3 v c) s (fun e => ends stDONE e ∧ e.sup.core = { core with ddata := v })) ∧
          (∀ k : Fin 4, Does (.coreWr (4 + BitVec.ofNat 32 k) v c) s (fun e => ends stDONE e ∧ SMap.at 0 e.sup.dbg.bp k = v &&& 0xFFFFFFFD ∧ e.regs = d.regs)) ∧
          (d.coreThere = true → v.getLsbD 3 = b.attach →
            (core.state = cRUN → v.getLsbD 1 = false → v.getLsbD 2 = false →
              (c.resv = false → Does (.coreHalt v c) s (fun e => ends stDONE e ∧ e.sup.core.state = cHALTED ∧ e.sup.core.reason = 0 ∧ e.sup.core.pc = c.pc ∧
                Logs d e 0x12 0x02 .info (0 :: wordDetail c.pc))) ∧
              (c.resv = true → Does (.coreHalt v c) s (fun e => ends stDONE e ∧ e.regs = d.regs ∧
                e.sup.core = { core with state := cHALTING, reason := 0, resv := true, haltAt := d.slate }))) ∧
            (core.state = cHALTED →
              (v.getLsbD 0 = false → v.getLsbD 2 = false → d.sup.wdgFrozen = false → Does (.coreResume v c) s (fun e => ends stDONE e ∧
                e.regs = d.regs ∧ e.sup.core = { core with state := cRUN })) ∧
              (v.getLsbD 0 = false → v.getLsbD 1 = false →
                (c.eff = .plain → Does (.coreStep v c) s (fun e => ends stDONE e ∧ e.sup.core.state = cHALTED ∧ e.sup.core.reason = 2 ∧
                  e.sup.core.pc = c.pc ∧ Logs d e 0x12 0x02 .info (2 :: wordDetail c.pc))) ∧
                (∀ t, c.eff = .branch t → Does (.coreStep v c) s (fun e => ends stDONE e ∧ e.sup.core.state = cHALTED ∧ e.sup.core.reason = 2 ∧
                  e.sup.core.pc = t))) ∧
              (c.eff = .plain → Does (.feed v c) s (fun e => ends stDONE e ∧ e.sup.core = core ∧ e.regs = d.regs)) ∧
              (∀ t, c.eff = .moveToDebug t → Does (.feed v c) s (fun e => ends stDONE e ∧ e.sup.core = { core with ddata := t })) ∧
              (∀ t, c.eff = .branch t → Does (.feed v c) s (fun e => ends stDONE e ∧ e.sup.core = { core with pc := t })) ∧
              (∀ k t, c.eff = .trap k t → Does (.feed v c) s (fun e => ends stDONE e ∧ e.regs = d.regs ∧
                e.sup.core = { core with feedErr := true, feedCause := causeCode k }))) ∧
            (core.state ≠ cHALTED → Does (.feed v c) s (fun e => ends stACCESS e ∧ e.sup.core = core ∧ Logs d e 0x12 0x04 .warn [6, stACCESS, 0, 0, 0]))) ∧
          (v.getLsbD 0 = false → v.getLsbD 1 = false → v.getLsbD 2 = false → v.getLsbD 3 ≠ b.attach → Does (.debugAttach v c) s (fun e =>
            ends stDONE e ∧ e.sup.dbg.attach = v.getLsbD 3 ∧ (e.rf (GAF_DOMd_STAT_VOTES 1)).testBit 1 = v.getLsbD 3 ∧
            (e.rf (GAF_DOMd_STAT_VOTES 2)).testBit 1 = v.getLsbD 3 ∧ Logs d e 0x12 0x01 .note [(v.getLsbD 3).toNat, 0, 0, 0, 0])))) ∧
      (d.coreThere = true → core.state = cHALTING →
        Does (.reservationBreak true a) s (fun e => e.sup.core.state = cHALTED ∧ e.sup.core.resv = false ∧ e.sup.core.reason = core.reason ∧ e.sup.core.pc = a ∧
          Logs d e 0x12 0x02 .info (core.reason :: wordDetail a)) ∧
        (elapsed (d.slate - core.haltAt) 427 = true → Does (.reservationBreak false a) s (fun e => e.sup.core.state = cHALTED ∧
          e.sup.core.rsvBroken = true ∧ e.sup.core.resv = false ∧ Logs d e 0x12 0x03 .warn (wordDetail a ++ [0]))) ∧
        (elapsed (d.slate - core.haltAt) 427 = false → Does (.reservationBreak false a) s (fun e => e = d))) ∧
      (d.coreThere = true → d.coreRuns = true → core.state = cRUN →
        ((∃ k : Fin 4, (SMap.at 0 b.bp k).getLsbD 0 = true ∧ (SMap.at 0 b.bp k).toNat / 4 = a.toNat / 4) → Does (.breakpointHit a false) s (fun e =>
          e.sup.core.state = cHALTED ∧ e.sup.core.reason = 1 ∧ e.sup.core.pc = a ∧ Logs d e 0x12 0x02 .info (1 :: wordDetail a))) ∧
        ((∀ k : Fin 4, (SMap.at 0 b.bp k).getLsbD 0 = false) → Does (.breakpointHit a false) s (fun e => e = d))))

/-- With the UART running a received byte enters the FIFO unless it fills (OVR, code 0x05) or is framed wrongly (FERR), a
break of 10 bits sets BRK and ends the line, a byte written to MON_DATA is queued while the FIFO has room, and a line
stands incomplete for 30 s only (code 0x07). With Tamop ready: pk, rd and wr answer with their access; reel prints
the record and the slots; reel boot and reel load start the operation or answer FULL; cut user arms the lowest free
slot, or answers FULL or LEAD; cut splice starts a Splice; dl prints and dl free removes records within DLY_COUNT;
lane, time, cut and vote print; vote on and off set the supervisor's vote; baud changes the rate after the reply; a
line that is no command is answered with its error code and record 0x06.
Follows: 16_debug_and_monitor.md (The Tamop monitor; Table MON-1; Table MON-2). -/
def Obligations.TheSerialPortAndTamopServeTheirLine : Prop :=
  ∀ (s : State) (rq : Requester) (a v : Word) (env : BusEnv),
    let d := s.dev
    let u := d.sup.uart
    let answers := fun (vals : List Nat) (st : Nat) (e : Dev) => e.outs = .tamop vals (if st = 0 then 0 else 5) st :: d.outs
    (Reaches d MON_DATA →
      (u.tx.length < 64 → Does (.monDataWrite rq v) s (fun e => e.sup.uart = { u with tx := u.tx ++ [v.setWidth 8] } ∧
        e.rf MON_STAT_TX_FREE = 63 - u.tx.length)) ∧
      (64 ≤ u.tx.length → Does (.monDataWrite rq v) s (fun e => e = d.ok))) ∧
    (d.live = true → d.uartUp = true →
      (∀ b : Byte,
        (u.rx.length < 64 → Does (.uartRxByte b false 0) s (fun e => e.sup.uart.rx = u.rx ++ [b] ∧ e.sup.uart.tx = u.tx ∧
          e.rf MON_STAT_RX_COUNT = u.rx.length + 1)) ∧
        (64 ≤ u.rx.length → Does (.uartRxByte b false 0) s (fun e => e.sup.uart.rx = u.rx ∧ e.bit MON_STAT_OVR = true ∧
          Logs d e 0x12 0x05 .note [1, 0, 0, 0, 0])) ∧
        Does (.uartRxByte b true 0) s (fun e => e.sup.uart.rx = u.rx ∧ e.bit MON_STAT_FERR = true ∧ Logs d e 0x12 0x05 .note [0, 0, 0, 0, 0])) ∧
      (∀ n : Nat, 10 ≤ n → Does (.uartBreak n) s (fun e => e.bit MON_STAT_BRK = true ∧ e.sup.uart.line = [] ∧
        e.rf MON_CFG_BAUD = if u.baudSet then 0 else d.rf MON_CFG_BAUD)) ∧
      (∀ n : Nat, n < 10 → Does (.uartBreak n) s (fun e => e = d))) ∧
    (d.live = true → d.tamopUp = true →
      (u.line ≠ [] → elapsed (d.slate - u.lineAt) 30000000000 = true → Does .tamopLineTimeout s (fun e => e.sup.uart.line = [] ∧
        Logs d e 0x12 0x07 .note [u.line.length, 0, 0, 0, 0])) ∧
      (u.line = [] → Does .tamopLineTimeout s (fun e => e = d))) ∧
    (d.live = true → d.tamopUp = true → u.wait = .none →
      Does (.tamopPk a env) s (fun e => e = (d.busRead true .supervisor a.toNat env).tamopTake false) ∧
      Does (.tamopRd a env) s (fun e => e = (d.busRead false .supervisor a.toNat env).tamopTake false) ∧
      (Counting d → Does (.tamopWr a v env) s (fun e => e = (d.busPut .supervisor a.toNat v env).tamopTake true)) ∧
      (∀ pages : List PageErr, d.barred NVS_BOOT_STAT = none → d.ok.reelRead pages = (none, d.ok) → Does (.tamopReel pages) s
        (answers ([d.rf NVS_BOOT_STAT_CUR, d.rf NVS_BOOT_STAT_PREV, d.rf NVS_BOOT_STAT_SEQ, d.rf NVS_BOOT_STAT_VALID] ++
          (List.range 4).flatMap d.slotPrint) 0)) ∧
      (∀ cur prev : Fin 4, d.barred NVS_CMD = none →
        (d.nstate = nIDLE → Does (.tamopReelBoot cur prev) s (fun e => e.nstate = nRUNNING ∧ e.rf NVS_BOOT_CUR = cur ∧
          e.rf NVS_BOOT_PREV = prev ∧ e.sup.uart.wait = .boot ∧ e.outs = d.outs)) ∧
        (d.nstate ≠ nIDLE → Does (.tamopReelBoot cur prev) s (fun e => e.nstate = d.nstate ∧ answers [] stFULL e))) ∧
      (∀ slot : Fin 4, d.barred CFG_CTL = none →
        (d.loadBusy = false → d.cfgState ≠ gCLEARING → Does (.tamopReelLoad slot) s (fun e =>
          e.cfgState = gHEADER ∧ e.cfg.load = some (Image.start 0 slot 0 (slot * 0x0A000000) 0 d.slate) ∧ e.sup.uart.wait = .load)) ∧
        (d.loadBusy = true → Does (.tamopReelLoad slot) s (fun e => e.cfg = d.cfg ∧ answers [] stFULL e))) ∧
      Does .tamopCut s (fun e => answers ((List.range 32).flatMap d.cutPrint) 0 e ∧ e.regs = d.regs) ∧
      (∀ (port : BitVec 16) (tick : BitVec 64), Counting d →
        ((∀ i : Fin 32, (d.cut i).state ≠ .free ∨ (d.cut i).reserved = true) → Does (.tamopCutUser port tick) s (fun e =>
          answers [] stFULL e ∧ e.regs = d.regs)) ∧
        (∀ i : Fin 32, (d.cut i).state = .free → (d.cut i).reserved = false →
          (∀ j : Fin 32, j < i → (d.cut j).state ≠ .free ∨ (d.cut j).reserved = true) → port.toNat ≤ 15 →
          (d.slate + 4096 ≤ tick.toNat → Does (.tamopCutUser port tick) s (fun e => answers [i.val] 0 e ∧
            e.cut i = { armedSlot kUSER port.toNat tick.toNat with confirmed := true } ∧ e.rf SLT_CUT_SEL_SLOT = i)) ∧
          (tick.toNat < d.slate + 4096 → Does (.tamopCutUser port tick) s (fun e => answers [] stLEAD e ∧ (e.cut i).state = .free)))) ∧
      (∀ (ofs : Word) (tick : BitVec 64), Counting d → d.barred SPL_CTL = none → d.spliceBusy = false → d.splState ≠ pCLEARING →
        ofs.toNat % 2048 = 0 → ofs.toNat < 2 ^ 30 → Does (.tamopCutSplice ofs tick) s (fun e => e.sup.uart.wait = .splice ∧
          e.cfg.splice = some (Image.start 2 0 0 ofs.toNat tick.toNat d.slate) ∧ e.outs = d.outs)) ∧
      (∀ n : BitVec 12, n.toNat ≤ d.rf DLY_STAT_COUNT → Does (.tamopDl (some n)) s (answers ((List.range n.toNat).flatMap (fun i =>
        recordPrint (SMap.at 0 d.hub.dailies ((d.rf DLY_TAIL_TAIL + i) % 2048)))) 0)) ∧
      (∀ n : BitVec 12,
        (2048 < n.toNat → Does (.tamopDlFree n) s (fun e => e.outs = .tamop [] 2 0 :: d.outs ∧ e.rf DLY_TAIL_TAIL = d.rf DLY_TAIL_TAIL ∧
          Logs d e 0x12 0x06 .note [2, 0, 0, 0, 0])) ∧
        (0 < n.toNat → n.toNat < 2048 → n.toNat ≤ d.rf DLY_STAT_COUNT → Does (.tamopDlFree n) s (fun e => answers [] 0 e ∧
          e.rf DLY_STAT_COUNT = d.rf DLY_STAT_COUNT - n.toNat ∧ e.rf DLY_TAIL_TAIL = (d.rf DLY_TAIL_TAIL + n.toNat) % 2048 ∧
          RegsBut [DLY_STAT, DLY_TAIL] d e)) ∧
        (n = 0 → Does (.tamopDlFree n) s (fun e => answers [] 0 e ∧ e.regs = d.regs))) ∧
      (∀ l : Fin 512, d.barred (LNQ_Li_STAT l) = none → Does (.tamopLane l) s (fun e => e.regs = d.regs ∧
        answers [d.rf (LNQ_Li_PWR_TX_STATE l), d.rf (LNQ_Li_PWR_RX_STATE l), d.rf (LNQ_Li_STAT_PHASE l), d.rf (LNQ_Li_EYE_SCORE l),
          d.rf (LNQ_Li_EYE_V l), d.rf (LNQ_Li_EYE_H l), d.rf (LNQ_Li_EYE_CTLE l), d.rf (LNQ_Li_STAT_BLK_LOCK l),
          d.rf (LNQ_Li_STAT_HI_BER l)] 0 e)) ∧
      (d.barred CTY_STAT = none → Does .tamopTime s (fun e => e.regs = d.regs ∧ ∃ x y, answers [d.slate, d.rf CTY_STAT_STATE,
        d.rf CTY_TE_EST_TE, d.rf CTY_TE_BOUND_BOUND, x, y] 0 e ∧ x * 2 ^ 48 + y = d.ok.timeOfDay)) ∧
      (∀ p : Fin 30, Does (.tamopVote p) s (fun e => e.regs = d.regs ∧
          answers ((List.range 8).map (fun c => (d.rf (GAF_DOMd_STAT_VOTES p) / 2 ^ c) % 2) ++ [d.domState p]) 0 e) ∧
        (votable p = true → Does (.tamopVoteOn p) s (fun e => e.rd GAF_SVOTE = d.rd GAF_SVOTE ||| 1#32 <<< p.val ∧
            (e.rf (GAF_DOMd_STAT_VOTES p)).testBit 0 = true) ∧
          Does (.tamopVoteOff p) s (fun e => e.rd GAF_SVOTE = d.rd GAF_SVOTE &&& ~~~(1#32 <<< p.val) ∧
            (e.rf (GAF_DOMd_STAT_VOTES p)).testBit 0 = false))) ∧
      (∀ c : Fin 7, Does (.tamopBaud c) s (fun e => answers [] 0 e ∧ e.rf MON_CFG_BAUD = c ∧ e.sup.uart.baudSet = true ∧
        RegsBut [MON_CFG] d e)) ∧
      (∀ err : TamopErr, Does (.tamopUnknownCommand err) s (fun e => e.outs = .tamop [] (tamopErrCode err) 0 :: d.outs ∧
        e.sup.uart = u ∧ Logs d e 0x12 0x06 .note [tamopErrCode err, 0, 0, 0, 0])))

/-- On a running device with D0 on: the eighth consecutive good window of the crystal (64th after a failure) sets
XTAL_OK, with AUTO D4 moves to it with code 0x02; a second consecutive bad one with XTAL_OK set is a failure with
ON_RC, XTAL_FAIL, NMI 1 and code 0x01. USE_XTAL moves D4 or is refused with REFUSED and 0x04. A synthesiser write is
stored and unlocks it, or is refused with 0x07 and its cause; lock, unlock (0x05) and relock (0x06) change SYN_LOCK.
A write of an enable register takes each bit but that of an active block, which stays with 0x04. START counts unless
GATE is zero or a count runs; a count ends with its saturated result, or with TIMEOUT after 2 s.
Follows: 17_clocks_and_power.md (R371; R372; R374; R375; R376; R378). -/
def Obligations.TheClockControllerMonitorsAndGates : Prop :=
  ∀ (s : State) (rq : Requester) (v : Word),
    let d := s.dev
    let g := d.gaf
    (d.live = true → g.d0Stop = false → ∀ n : Nat,
      (2091 ≤ n → n ≤ 2175 →
        (d.bit CKC_STAT_XTAL_OK = true → Does (.crystalWindow n) s (fun e => e = d.setGaf { g with xtalBad := 0 })) ∧
        (d.bit CKC_STAT_XTAL_OK = false → g.xtalGood + 1 < (if g.xtalFailed then 64 else 8) → Does (.crystalWindow n) s (fun e =>
          e = d.setGaf { g with xtalBad := 0, xtalGood := g.xtalGood + 1 })) ∧
        (d.bit CKC_STAT_XTAL_OK = false → (if g.xtalFailed then 64 else 8) ≤ g.xtalGood + 1 →
          (d.bit CKC_CTL_AUTO = false ∨ g.xtalFailed = true → Does (.crystalWindow n) s (fun e => e.bit CKC_STAT_XTAL_OK = true ∧ RegsBut [CKC_STAT] d e)) ∧
          (d.bit CKC_CTL_AUTO = true → g.xtalFailed = false → d.bit CKC_STAT_ON_RC = true → Does (.crystalWindow n) s (fun e =>
            e.bit CKC_STAT_XTAL_OK = true ∧ e.bit CKC_STAT_ON_RC = false ∧ e.bit CKC_CTL_AUTO = false ∧
            Logs d e 0x0F 0x02 .note [0, 0, 0, 0, 0])))) ∧
      (n < 2091 ∨ 2175 < n →
        (g.xtalBad = 0 ∨ d.bit CKC_STAT_XTAL_OK = false → Does (.crystalWindow n) s (fun e => e.regs = d.regs ∧ e.gaf.xtalGood = 0 ∧
          e.gaf.xtalBad = min (g.xtalBad + 1) 2)) ∧
        (g.xtalBad ≠ 0 → d.bit CKC_STAT_XTAL_OK = true → Does (.crystalWindow n) s (fun e => e.bit CKC_STAT_XTAL_OK = false ∧
          e.bit CKC_STAT_ON_RC = true ∧ e.bit CKC_STAT_XTAL_FAIL = true ∧ e.gaf.xtalFailed = true ∧
          (d.p1On = true → (e.rf EVC_NMI_NMI).testBit 1 = true) ∧ Logs d e 0x0F 0x01 .error [n, n / 256, 0, 0, 0])))) ∧
    (Reaches d CKC_CTL →
      (d.bit CKC_STAT_XTAL_OK = true → d.bit CKC_STAT_ON_RC = true → Does (.useXtal rq v) s (fun e => e.bit CKC_STAT_ON_RC = false ∧
        Logs d e 0x0F 0x02 .note [1, 0, 0, 0, 0])) ∧
      (d.bit CKC_STAT_XTAL_OK = false → Does (.useXtal rq v) s (fun e => e.bit CKC_STAT_ON_RC = d.bit CKC_STAT_ON_RC ∧
        e.bit CKC_STAT_REFUSED = true ∧ Logs d e 0x0F 0x04 .warn [0, 0, 0, 0, 0]))) ∧
    (∀ f : Fin 8,
      let held := fun (c : Nat) => Does (.synthConfigWrite rq f v) s (fun e => e.rd (CKC_SYNf_CFG f) = d.rd (CKC_SYNf_CFG f) ∧
        e.bit CKC_STAT_REFUSED = true ∧ e.gaf = g ∧ Logs d e 0x0F 0x07 .warn [f.val, c, 0, 0, 0])
      (Reaches d (CKC_SYNf_CFG f) →
        (d.synthInUse f = true → held 1) ∧
        (d.synthInUse f = false →
          ((∃ die : Fin 2, d.capActive die = true ∧ d.rf (FAB_CAP_CTL_CLK die) = f) → held 2) ∧
          ((∀ die : Fin 2, d.capActive die = false ∨ d.rf (FAB_CAP_CTL_CLK die) ≠ f) →
            (v.getLsbD 31 = true → synthInRange (fieldGet 0 16 v) (fieldGet 16 14 v) fabricLimit = false → held 0) ∧
            (v.getLsbD 31 = false → Does (.synthConfigWrite rq f v) s (fun e => e.rf (CKC_SYNf_CFG_P f) = v.toNat % 2 ^ 16 ∧
              e.rf (CKC_SYNf_CFG_Q f) = v.toNat / 2 ^ 16 % 2 ^ 14 ∧ e.bit (CKC_SYNf_CFG_EN f) = false ∧ e.synLocked f = false ∧
              RegsBut [CKC_SYNf_CFG f, CKC_STAT] d e))))) ∧
      (d.live = true →
        (d.bit (CKC_SYNf_CFG_EN f) = true → SMap.at false g.synRelock f = false → Does (.synthLock f) s (fun e => e = d.synLock f true)) ∧
        (d.bit (CKC_SYNf_CFG_EN f) = false → Does (.synthLock f) s (fun e => e = d)) ∧
        (d.synLocked f = true → Does (.synthUnlock f) s (fun e => e.synLocked f = false ∧ e.bit CKC_STAT_SYN_UNLOCK = true ∧
          SMap.at false e.gaf.synRelock f = true ∧ Logs d e 0x0F 0x05 .error [f.val, 0, 0, 0, 0])) ∧
        (d.synLocked f = false → Does (.synthUnlock f) s (fun e => e = d)) ∧
        (∀ lost : BitVec 16, SMap.at false g.synRelock f = true → d.bit (CKC_SYNf_CFG_EN f) = true → Does (.synthRelock f lost) s (fun e =>
          e.synLocked f = true ∧ SMap.at false e.gaf.synRelock f = false ∧
          Logs d e 0x0F 0x06 .info [f.val, lost.toNat, lost.toNat / 256, 0, 0])))) ∧
    (∀ r : EnableReg, Reaches d (enableAddr r) →
      Does (.clockEnableWrite rq r v) s (fun e => ∀ b : Fin 32,
        ((d.rd (enableAddr r)).getLsbD b = true → d.enableActive r b = true → (e.rd (enableAddr r)).getLsbD b = true) ∧
        ((d.rd (enableAddr r)).getLsbD b = false ∨ d.enableActive r b = false → (r = .hub → b < 13) →
          (e.rd (enableAddr r)).getLsbD b = v.getLsbD b)) ∧
      (∀ b : Fin 32, (d.rd (enableAddr r)).getLsbD b = true → v.getLsbD b = false → d.enableActive r b = true →
        (∀ c : Fin 32, c < b → v.getLsbD c = true ∨ (d.rd (enableAddr r)).getLsbD c = false ∨ d.enableActive r c = false) →
        Does (.clockEnableWrite rq r v) s (fun e => e.bit CKC_STAT_REFUSED = true ∧
          Logs d e 0x0F 0x04 .warn [enableAddr r - CKC_CTL, (enableAddr r - CKC_CTL) / 256, b.val, 0, 0]))) ∧
    (Reaches d CKC_FCNT_CTL → (g.fcnt = none →
        (d.rd CKC_FCNT_GATE ≠ 0 → Does (.fcntStart rq v) s (fun e => e.gaf = { g with fcnt := some d.slate } ∧
          e.bit CKC_FCNT_CTL_DONE = false ∧ RegsBut [CKC_FCNT_CTL] d e)) ∧
        (d.rd CKC_FCNT_GATE = 0 → Does (.fcntStart rq v) s (fun e => e.gaf = g ∧ e.bit CKC_FCNT_CTL_DONE = true ∧
          e.rd CKC_FCNT_RES = 0 ∧ e.rf CKC_FCNT_CTL_STATUS = stDONE))) ∧
      (g.fcnt.isSome = true → Does (.fcntStart rq v) s (fun e => e.gaf = g ∧ RegsBut [CKC_FCNT_CTL] d e ∧
        e.bit CKC_FCNT_CTL_DONE = d.bit CKC_FCNT_CTL_DONE))) ∧
    (d.live = true → ∀ n : Nat,
      (g.fcnt.isSome = true →
        Does (.fcntDone n) s (fun e => e.gaf = { g with fcnt := none } ∧ e.rd CKC_FCNT_RES = BitVec.ofNat 32 (min n (2 ^ 32 - 1)) ∧
          e.bit CKC_FCNT_CTL_DONE = true ∧ e.rf CKC_FCNT_CTL_STATUS = stDONE) ∧
        (2000000000 ≤ n → Does (.fcntTimeout n) s (fun e => e.gaf = { g with fcnt := none } ∧ e.rd CKC_FCNT_RES = d.rd CKC_FCNT_RES ∧
          e.bit CKC_FCNT_CTL_DONE = true ∧ e.rf CKC_FCNT_CTL_STATUS = stTIMEOUT))) ∧
      (g.fcnt = none → Does (.fcntDone n) s (fun e => e = d) ∧ Does (.fcntTimeout n) s (fun e => e = d)))

/-- A write of GAF_SVOTE makes the supervisor's vote on every domain that may be voted what its bit says and changes no
other vote; a vote port changes the votes whose inputs changed since its last sample, unless its region is off or
isolated. Without ATTACH a first vote takes an OFF domain to RAMP, isolated, and a DRAIN domain back to ON; the loss
of the last one takes an ON domain to DRAIN. A queued fabric domain that is first starts its ramp when its die has a
place. A ramp ends ON with code 0x01, out of isolation if voted; one not good in twice its count ends OFF with FAULT
and 0x08; a loss of supply for 1 us sets FAULT, logs 0x08 and sends the domain down, as the end of a drain does; DOWN
ends OFF with 0x02, and with a vote ramps again.
Follows: 17_clocks_and_power.md (R380; R381; R382). -/
def Obligations.DomainsRampRunAndDrainByVotes : Prop :=
  ∀ (s : State) (rq : Requester) (v : Word) (p : Fin 30),
    let d := s.dev
    let g := d.gaf
    let q := p.val
    let votes := fun (e : Dev) => e.rf (GAF_DOMd_STAT_VOTES q)
    (Reaches d GAF_SVOTE →
      Does (.voteChange (.svote rq v)) s (fun e => e.rf GAF_SVOTE_VOTE = v.toNat % 2 ^ 30 ∧
        (votable q = true → votes e = votes d / 2 * 2 + (v.getLsbD q).toNat) ∧ (votable q = false → votes e = votes d)) ∧
      (votable q = true → d.sup.dbg.attach = false →
        (votes d = 0 → v.getLsbD q = true →
          (d.domState q = dOFF → Does (.voteChange (.svote rq v)) s (fun e => e.domState q = dRAMP ∧ e.bit (GAF_DOMd_STAT_ISOLATED q) = true)) ∧
          (d.domState q = dDRAIN → Does (.voteChange (.svote rq v)) s (fun e => e.domState q = dON)) ∧
          (d.domState q = dON → Does (.voteChange (.svote rq v)) s (fun e => e.domState q = dON ∧ e.bit (GAF_DOMd_STAT_ISOLATED q) = false))) ∧
        (votes d = 1 → v.getLsbD q = false →
          (d.domState q = dON → Does (.voteChange (.svote rq v)) s (fun e => e.domState q = dDRAIN ∧
            (d.dropReady q = false → e.bit GAF_STAT_DEFER = true))) ∧
          (d.domState q = dRAMP → d.onCutNames q = false → Does (.voteChange (.svote rq v)) s (fun e => e.domState q = dRAMP ∧
            q ∈ e.gaf.downNext))))) ∧
    (d.live = true → ∀ (i : Fin 4) (w : BitVec 30),
      (d.votePortDead i = true → Does (.voteChange (.port i w)) s (fun e => e = d)) ∧
      (d.votePortDead i = false → Does (.voteChange (.port i w)) s (fun e => SMap.at 0 e.gaf.portVotes i = w.toNat ∧ e.outs = .voteOn i (e.portOn i) :: d.outs ∧
        (votable q = true → (SMap.at 0 g.portVotes i).testBit q ≠ w.getLsbD q → (votes e).testBit (4 + i) = w.getLsbD q) ∧
        ((SMap.at 0 g.portVotes i).testBit q = w.getLsbD q → votes e = votes d)))) ∧
    (d.live = true →
      (∀ die, fabricDie q = some die →
        (d.domState q = dRAMP → d.bit (GAF_DOMd_STAT_QUEUED q) = true → d.ramping die < 2 → d.rampFirst q = true →
          Does (.rampStart p) s (fun e => e.domState q = dRAMP ∧ e.bit (GAF_DOMd_STAT_QUEUED q) = false ∧
            SMap.at none e.gaf.rampStart q = some d.slate)) ∧
        (d.bit (GAF_DOMd_STAT_QUEUED q) = false ∨ 2 ≤ d.ramping die ∨ d.rampFirst q = false → Does (.rampStart p) s (fun e => e = d))) ∧
      (∀ t, SMap.at none g.rampStart q = some t → d.domState q = dRAMP →
        (t + rampTicks q ≤ d.slate → d.slate ≤ t + 2 * rampTicks q → Does (.rampEnd p) s (fun e => e.domState q = dON ∧
          e.bit (GAF_DOMd_STAT_ISOLATED q) = (if votes d = 0 then d.bit (GAF_DOMd_STAT_ISOLATED q) else false) ∧
          Logs d e 0x10 0x01 .info [q, votes d, (votes d == 0).toNat, 0, 0])) ∧
        (d.slate < t + rampTicks q ∨ t + 2 * rampTicks q < d.slate → Does (.rampEnd p) s (fun e => e = d)) ∧
        (t + 2 * rampTicks q ≤ d.slate → Does (.rampFault p) s (fun e => e.domState q = dOFF ∧ e.bit (GAF_DOMd_STAT_FAULT q) = true ∧
          e.bit GAF_STAT_RAMP_FAULT = true ∧ votes e = votes d ∧ SMap.at false e.gaf.blocked q = true ∧
          Logs d e 0x10 0x08 .error [q, 0, 0, 0, 0])) ∧
        (d.slate < t + 2 * rampTicks q → Does (.rampFault p) s (fun e => e = d))) ∧
      (votable q = true → d.domState q = dON ∨ d.domState q = dDRAIN → ∀ ns : Nat,
        (1000 ≤ ns → Does (.supplyLoss p ns) s (fun e => e.bit (GAF_DOMd_STAT_FAULT q) = true ∧ q ∈ e.gaf.downNext ∧
          SMap.at false e.gaf.blocked q = true ∧ votes e = votes d ∧ Logs d e 0x10 0x08 .error [q, 1, 0, 0, 0])) ∧
        (ns < 1000 → Does (.supplyLoss p ns) s (fun e => e = d))) ∧
      (d.domState q = dDRAIN →
        (d.dropReady q = true → Does (.drainEnd p) s (fun e => q ∈ e.gaf.downNext ∧ e.domState q = dDRAIN)) ∧
        (d.dropReady q = false → ¬ (23 ≤ q ∧ q ≤ 26) → Does (.drainEnd p) s (fun e => e = d)) ∧
        (23 ≤ q → q ≤ 26 → d.qstate (q - 23) = qRUN → Does (.drainEnd p) s (fun e => e.qstate (q - 23) = qSELFREF ∧ q ∈ e.gaf.downNext))) ∧
      (d.domState q = dDOWN →
        (votes d = 0 → d.onCutNames q = false → Does (.domainOff p) s (fun e => e.domState q = dOFF ∧
          Logs d e 0x10 0x02 .info [q, (SMap.at false g.byCut q).toNat, 0, 0, 0])) ∧
        (votes d ≠ 0 → SMap.at false g.blocked q = false → Does (.domainOff p) s (fun e => e.domState q = dRAMP ∧
          e.bit (GAF_DOMd_STAT_ISOLATED q) = true ∧ Logs d e 0x10 0x02 .info [q, (SMap.at false g.byCut q).toNat, 0, 0, 0]))) ∧
      (d.domState q ≠ dDOWN → Does (.domainOff p) s (fun e => e = d)))

/-- A request through GAF_CUT_CTL that names a domain with no votes is refused with ACCESS; one with too short a lead
with LEAD; one with no slot with FULL; each logs SLT 0x03. Otherwise the lowest slot is armed for the kind, the
domain and T: a POWER_ON Cut of an OFF domain starts its ramp, one of an ON domain is confirmed at once, a POWER_OFF
Cut where its drop condition holds. CANCEL fails such a Cut with ABORT, and a POWER_ON Cut that leaves a ramping
domain with no vote and no such Cut takes it down. The wait for an event waits, stops D4, or withdraws the
supervisor's vote on P1. An enabled source wakes a sleeping device with 0x06. A dip of 1 us sets PFW, NMI 3 and 0x05.
GAF_RELEASE releases an isolated unit with 0x07, or is refused with 0x04.
Follows: 17_clocks_and_power.md (R379; R383; R384; R385; R386; R388). -/
def Obligations.PowerCutsSleepWakeAndRelease : Prop :=
  ∀ (s : State) (rq : Requester) (v : Word),
    let d := s.dev
    let g := d.gaf
    let core := d.sup.core
    (Counting d → Reaches d GAF_CUT_CTL → v.getLsbD 1 = false →
      let p := v.toNat / 8 % 32
      let off := v.getLsbD 2
      let client := v.toNat / 2 ^ 13 % 8
      let kind := if off then kPOWEROFF else kPOWERON
      let t := d.rd64 GAF_CUT_TICK_LO GAF_CUT_TICK_HI
      let refused := fun (st : Nat) => Does (.powerCutArm rq v) s (fun e => e.rf GAF_CUT_CTL_STATUS = st ∧ e.hub.cuts = d.hub.cuts ∧
        e.bit SLT_STAT_CUT_FAIL = true ∧ Logs d e 0x01 0x03 .warn [kind, p, p / 256, st, 0])
      (votable p = false → refused stACCESS) ∧
      (votable p = true →
        (t < d.slate + 4096 → refused stLEAD) ∧
        (d.slate + 4096 ≤ t →
          (d.pickSlot = none → refused stFULL) ∧
          (∀ i, d.pickSlot = some i → i < 32 →
            (off = true → Does (.powerCutArm rq v) s (fun e => e.cut i = { armedSlot kPOWEROFF p t with confirmed := d.offReady p } ∧
              e.rf GAF_CUT_CTL_STATUS = stDONE ∧ e.rf GAF_CUT_CTL_SLOT = i ∧ RegsBut [GAF_CUT_CTL] d e)) ∧
            (off = false → SMap.at false g.emu p = false →
              (d.domState p = dOFF → Does (.powerCutArm rq v) s (fun e => e.cut i = armedSlot kPOWERON p t ∧ e.domState p = dRAMP ∧
                e.bit (GAF_DOMd_STAT_ISOLATED p) = true ∧ e.rf GAF_CUT_CTL_STATUS = stDONE ∧ SMap.at 0 e.gaf.cutClient i = client)) ∧
              (d.domState p = dON ∨ d.domState p = dDRAIN → Does (.powerCutArm rq v) s (fun e =>
                e.cut i = { armedSlot kPOWERON p t with confirmed := true } ∧ e.rf GAF_CUT_CTL_STATUS = stDONE ∧
                SMap.at 0 e.gaf.cutClient i = client ∧ RegsBut [GAF_CUT_CTL] d e))))))) ∧
    (Counting d → Reaches d GAF_CUT_CTL → v.getLsbD 0 = false →
      let i := d.rf GAF_CUT_CTL_SLOT
      let c := d.cut i
      let w := d.ok.plainWrite GAF_CUT_CTL (v ||| 2)
      (c.kind = kPOWEROFF → d.cancellable i = true → Does (.powerCutCancel rq v) s (fun e =>
        e.cut i = { c with state := .failed, status := stABORT } ∧ e.bit SLT_STAT_CUT_FAIL = true ∧ RegsBut [GAF_CUT_CTL, SLT_STAT] d e)) ∧
      (c.kind = kPOWERON → d.cancellable i = true →
        (d.rf (GAF_DOMd_STAT_VOTES c.target) ≠ 0 → Does (.powerCutCancel rq v) s (fun e =>
          e.cut i = { c with state := .failed, status := stABORT } ∧ RegsBut [GAF_CUT_CTL, SLT_STAT] d e)) ∧
        (d.rf (GAF_DOMd_STAT_VOTES c.target) = 0 → (d.setCut i { c with state := .failed, status := stABORT }).onCutNames c.target = false →
          d.domState c.target = dRAMP → Does (.powerCutCancel rq v) s (fun e => e = (w.failCut i stABORT false).domainDown c.target 6))) ∧
      (d.cancellable i = false ∨ (c.kind ≠ kPOWERON ∧ c.kind ≠ kPOWEROFF) → Does (.powerCutCancel rq v) s (fun e => e = w))) ∧
    (d.live = true → d.coreRuns = true → d.sup.dbg.attach = false →
      (d.rf GAF_SLEEP_MODE = 0 ∨ d.rf GAF_SLEEP_MODE = 3 → Does .waitForEvent s (fun e => e.sup.core = { core with sleep := 1 } ∧
        e.regs = d.regs ∧ e.gaf = g)) ∧
      (d.rf GAF_SLEEP_MODE = 1 → Does .waitForEvent s (fun e => e.sup.core.sleep = 2 ∧ e.regs = d.regs ∧ e.gaf.d4Stop = true ∧
        e.gaf.d0Stop = (g.d0Stop || d.bit GAF_SLEEP_D0_STOP))) ∧
      (d.rf GAF_SLEEP_MODE = 2 → Does .waitForEvent s (fun e => e.sup.core.sleep = 3 ∧ e.rd GAF_SVOTE = d.rd GAF_SVOTE &&& ~~~2#32 ∧
        (e.rf (GAF_DOMd_STAT_VOTES 1)).testBit 0 = false))) ∧
    (d.live = true → d.coreRuns = false → Does .waitForEvent s (fun e => e = d)) ∧
    (d.live = true → d.asleep = true →
      let woken := fun (bits src : Nat) (e : Dev) => e.rf ⟨GAF_WAKE_CAUSE, 0, 4⟩ = bits ∧ e.rf GAF_WAKE_CAUSE_SOURCE = src ∧
        e.gaf.d4Stop = false ∧ e.gaf.d0Stop = false ∧ (e.rd GAF_SVOTE).getLsbD 1 = true ∧ (e.rf (GAF_DOMd_STAT_VOTES 1)).testBit 0 = true ∧
        (d.bit GAF_WAKE_EN_P2 = true → (e.rf (GAF_DOMd_STAT_VOTES 2)).testBit 0 = true) ∧ Logs d e 0x10 0x06 .info [bits, src, 0, 0, 0]
      (d.bit GAF_WAKE_EN_TWI = true → Does (.wake .twi) s (woken 2 0)) ∧
      (d.bit GAF_WAKE_EN_TWI = false → Does (.wake .twi) s (fun e => e = d)) ∧
      (∀ x l, d.sup.latch = x :: l → x < 256 → d.bit GAF_WAKE_EN_LATCH = true → Does (.wake .latch) s (woken 4 x)) ∧
      (d.bit CTY_STAT_ALARM = true → d.bit GAF_WAKE_EN_ALARM = true → Does (.wake .alarm) s (woken 8 0))) ∧
    (d.live = true → d.asleep = false → ∀ b, Does (.wake b) s (fun e => e = d)) ∧
    (d.live = true → ∀ (rail : BitVec 4) (ns : Nat), 1 ≤ rail.toNat → rail.toNat ≤ 9 →
      (1000 ≤ ns → Does (.powerFailWarning rail ns) s (fun e => e.bit GAF_STAT_PFW = true ∧
        (d.p1On = true → (e.rf EVC_NMI_NMI).testBit 3 = true) ∧ Logs d e 0x10 0x05 .error [rail.toNat, 0, 0, 0, 0])) ∧
      (ns < 1000 → Does (.powerFailWarning rail ns) s (fun e => e = d))) ∧
    (Reaches d GAF_RELEASE → v.getLsbD 31 = true →
      let k := v.toNat % 8
      let u := v.toNat / 8 % 128
      (k = 2 → u < 30 → SMap.at false g.isoDomain u = true → d.domState u = dON → Does (.unitRelease rq v) s (fun e =>
        e.gaf = { g with isoDomain := SMap.set false g.isoDomain u false } ∧ Logs d e 0x10 0x07 .info [2, u, 0, 0, 0])) ∧
      (k = 3 → SMap.at false g.isoQuad u = true → Does (.unitRelease rq v) s (fun e =>
        e.gaf = { g with isoQuad := SMap.set false g.isoQuad u false } ∧ Logs d e 0x10 0x07 .info [3, u, 0, 0, 0])) ∧
      (k = 4 → u < 64 → SMap.at false g.isoEngine u = true → d.domState (19 + u / 16) = dON → Does (.unitRelease rq v) s (fun e =>
        e.gaf = { g with isoEngine := SMap.set false g.isoEngine u false } ∧ Logs d e 0x10 0x07 .info [4, u, 0, 0, 0])) ∧
      ((k = 2 → u < 30 → SMap.at false g.isoDomain u = true → d.domState u ≠ dON) →
        (k = 3 → SMap.at false g.isoQuad u = false) →
        (k = 4 → u < 64 → SMap.at false g.isoEngine u = true → d.domState (19 + u / 16) ≠ dON) → Does (.unitRelease rq v) s (fun e =>
          e.gaf = g ∧ e.bit GAF_STAT_REFUSED = true ∧ Logs d e 0x10 0x04 .warn [0xB0, 0, stACCESS, 0, 0])))

/-- On a tick on which no reset was taken: power-good rising, or RESET_N low for 1 us, resets the device FULL: the count,
the Cuts and the lanes are new, the store's pages and the keys are kept, and GAF 0x09 is the first record of the
ring; RESET_N holds the device until it rises, when the straps are sampled anew and the count is zero again. A fall
of a rail of P0 or P28 takes the power away, one of another rail resets SYSTEM. GAF_RST with its key and SCOPE 2
resets SYSTEM: SRAM, lanes and scheduler are new and every domain that may be voted has the supervisor's vote; with
SCOPE 1 it resets CORE, which leaves all but the supervisor's side as it was and logs GAF 0x09; without the key it is
refused with GAF 0x04.
Follows: 18_startup_reset_recovery.md (R396; R397; R398; R404). -/
def Obligations.ResetsClearAndKeep : Prop :=
  ∀ (s : State) (rq : Requester) (v : Word) (st : Straps), s.dev.marks = [] → s.dev.nvs.op = none →
    let d := s.dev
    let g := d.gaf
    let full := fun (cause rail : Nat) (e : Dev) => e.slate = 0 ∧ e.hub.cuts = [] ∧ e.lanes = [] ∧ e.sup.sram = [] ∧ e.nvs.pages = d.nvs.pages ∧
      e.cfg.fuseKey = d.cfg.fuseKey ∧ e.cfg.storeKey = d.cfg.storeKey ∧ e.rf GAF_RST_CAUSE_CAUSE = cause ∧ e.rf GAF_RST_CAUSE_SCOPE = 3 ∧
      e.rf GAF_RST_CAUSE_RAIL = rail ∧ e.domState 0 = dON ∧ e.domState 28 = dON ∧ e.bit CKC_STAT_ON_RC = true ∧
      SMap.at 0 e.hub.dailies 0 = record 0 0x10 0x09 Sev.warn.code [cause, 3, rail, 0, 0]
    (g.good = false → g.rail < 256 → Does (.powerGood st) s (fun e => full (if g.rail = 0 then 1 else 3) g.rail e ∧ e.gaf.good = true ∧
      e.gaf.straps = st ∧ e.rf MSH_ID_STRAP = st.id.toNat ∧ e.rf GAF_RST_CAUSE_BOOT_MODE = st.boot.toNat)) ∧
    (g.good = true → Does (.powerGood st) s (fun e => e = d)) ∧
    (∀ ns : Nat,
      (1000 ≤ ns → g.held = false → Does (.resetPin ns) s (fun e => full 2 0 e ∧ e.gaf.held = true)) ∧
      (ns < 1000 ∨ g.held = true → Does (.resetPin ns) s (fun e => e = d))) ∧
    (g.held = true → g.good = true → Does (.resetNRisingEdge st) s (fun e => full 2 0 e ∧ e.gaf.held = false ∧ e.gaf.straps = st ∧
      e.rf MSH_ID_STRAP = st.id.toNat)) ∧
    (g.held = false → Does (.resetNRisingEdge st) s (fun e => e = d)) ∧
    (∀ rail : Fin 3,
      (g.good = true → Does (.powerGoodFall rail) s (fun e => e.gaf.good = false ∧ e.gaf.rail = rail + 1 ∧ e.slate = 0 ∧
        e.nvs.pages = d.nvs.pages ∧ e.cfg.fuseKey = d.cfg.fuseKey)) ∧
      (g.good = false → Does (.powerGoodFall rail) s (fun e => e = d))) ∧
    (∀ rail : BitVec 4,
      (1 ≤ rail.toNat → rail.toNat ≤ 3 → g.good = true → Does (.brownOut rail) s (fun e => e.gaf.good = false ∧ e.gaf.rail = rail.toNat)) ∧
      (4 ≤ rail.toNat → rail.toNat ≤ 9 → d.live = true → Does (.brownOut rail) s (fun e => e.sup.sram = [] ∧ e.lanes = []))) ∧
    (Reaches d GAF_RST →
      (v.toNat / 2 ^ 16 = 0xC3A5 →
        Does (.systemReset rq v) s (fun e => e.sup.sram = [] ∧ e.lanes = [] ∧ e.csh = { Csh.reset with entries := e.csh.entries } ∧
          e.rd GAF_SVOTE = 0x3FFFFFFF ∧ ∀ p : Fin 30, votable p = true → (e.rf (GAF_DOMd_STAT_VOTES p)).testBit 0 = true) ∧
        (d.sup.dbg.attach = false → Does (.coreReset rq v) s (fun e => e.sup.core = Core.reset ∧ e.sup.sram = d.sup.sram ∧
          e.sup.dbg = d.sup.dbg ∧ e.slate = d.slate ∧ e.cty = d.cty ∧ e.fab = d.fab ∧ e.se = d.se ∧ e.csh = d.csh ∧ e.lanes = d.lanes ∧
          e.eth = d.eth ∧ e.mesh = d.mesh ∧ e.mem = d.mem ∧ e.nvs = d.nvs ∧ e.cfg = d.cfg ∧ e.rf GAF_RST_CAUSE_CAUSE = 8 ∧
          e.rf GAF_RST_CAUSE_SCOPE = 1 ∧ e.rd WDG_CTL = resetWord WDG_CTL ∧ (∀ i : Fin 32, (e.cut i).reserved = false) ∧
          Logs d e 0x10 0x09 .warn [8, 1, 0, 0, 0]))) ∧
      (v.toNat / 2 ^ 16 ≠ 0xC3A5 → Does (.coreReset rq v) s (fun e => e.bit GAF_STAT_REFUSED = true ∧ RegsBut (GAF_STAT :: logRegs) d e ∧
          Logs d e 0x10 0x04 .warn [0xC0, 0, stACCESS, 0, 0]) ∧
        Does (.systemReset rq v) s (fun e => e.bit GAF_STAT_REFUSED = true ∧ RegsBut (GAF_STAT :: logRegs) d e ∧
          Logs d e 0x10 0x04 .warn [0xC0, 0, stACCESS, 0, 0])))

/-- Once the ROM's load has failed and been cleared: with BOOT_MODE 0 a first load by a valid boot record is followed by
one of slot PREV where that is another slot, with CFG 0x0A; with BOOT_MODE 1 a load that timed out is tried again, to
16 loads; otherwise CFG 0x0B is logged, CFG_ERR is high, and the descriptor is due. A descriptor that can be read,
with its magic, length, entry and CRC right, puts its body into the SRAM at 0x0010_0000 and the core's pc at ENTRY;
otherwise CFG 0x0C names the first that is wrong and Tamop stays.
Follows: 18_startup_reset_recovery.md (R394; R395). -/
def Obligations.TheBootRomFallsBackAndReadsFirmware : Prop :=
  ∀ s : State, s.dev.live = true →
    let d := s.dev
    let b := d.sup.boot
    let prev := d.rf NVS_BOOT_STAT_PREV
    let h := d.storeBytes fwBase 16
    let body := d.storeBytes (fwBase + 16) (hdrNat h 4 4)
    (d.coreRuns = true → b.phase = 2 → d.cfgState = gFAILED → d.cfg.load = none → d.cfg.loadWait = none →
      (d.bootMode = 0 → b.loads = 1 → d.bit NVS_BOOT_STAT_VALID = true → prev ≠ b.slot → Does .bootFallbackLoad s (fun e =>
        e.cfg.load = some (Image.start 0 prev 0 (prev * 0x0A000000) 0 d.slate) ∧ e.cfgState = gHEADER ∧
        e.sup.boot = { b with loads := 2, slot := prev } ∧
        Logs d e 0x03 0x0A .warn [b.slot, d.rf CFG_STAT_STATUS, prev, 0, 0])) ∧
      (d.bootMode = 1 → d.rf CFG_STAT_STATUS = stTIMEOUT → b.loads < 16 → Does .bootFallbackLoad s (fun e =>
        e.cfg.load = some (Image.start 1 0 0 0 0 d.slate) ∧ e.sup.boot = { b with loads := b.loads + 1, slot := 0 })) ∧
      (d.bootMode = 2 ∨ d.bootMode = 3 ∨ (d.bootMode = 0 ∧ b.loads ≠ 1) ∨ (d.bootMode = 1 ∧ 16 ≤ b.loads) → Does .bootFallbackLoad s (fun e =>
        e.cfg = { d.cfg with errHigh := true } ∧ e.sup.boot = { b with phase := 3 } ∧
        Logs d e 0x03 0x0B .fatal [d.bootMode, d.rf CFG_STAT_STATUS, b.loads, 0, 0]))) ∧
    (b.phase ≠ 2 ∨ d.cfgState ≠ gFAILED → Does .bootFallbackLoad s (fun e => e = d)) ∧
    (d.coreRuns = true → b.phase = 3 → d.domainUp 2 = true → ∀ pages : List PageErr, hdrNat h 4 4 ≤ 458752 →
      d.pagesRead fwBase (16 + hdrNat h 4 4) pages = (none, d) →
      (∀ c, fwBad h body = some c → Does (.firmwareDescriptor pages) s (fun e => e.sup = { d.sup with boot := { b with phase := 4 } } ∧
        Logs d e 0x03 0x0C .error [c, 0, 0, 0, 0])) ∧
      (fwBad h body = none → Does (.firmwareDescriptor pages) s (fun e => e.sup.core.pc = BitVec.ofNat 32 (hdrNat h 8 4) ∧
        e.sup.boot = { b with phase := 5 } ∧ e.sup.sram = sramPut d.sup.sram 0 (wordsOf (hdrNat h 4 4 / 4) body) ∧ e.regs = d.regs))) ∧
    (b.phase ≠ 3 → ∀ pages : List PageErr, Does (.firmwareDescriptor pages) s (fun e => e = d))

/-- State.reset has an empty queue, the Slate count zero, no Cut armed, the loader, the Splice controller, the scheduler
and the store idle, domains 0 and 28 ON and every other one in RAMP and isolated with the supervisor's vote alone,
GAF_RST_CAUSE with cause 1 and scope FULL, and the record of the reset as the ring's only one; D4 runs on D0. Its
registers are in canonical form, and one that neither the straps (log entry 18: all zero, the model's choice), the
fuses nor the reset's own events give reads its Reset column.
Follows: 18_startup_reset_recovery.md (R392; R396; R397; R398); 17_clocks_and_power.md (R379; R380). -/
def Obligations.ResetLeavesTheDeviceStarting : Prop :=
  let d := State.reset.dev
  State.reset.pending = [] ∧ QueueFormed State.reset ∧ DevFormed d ∧ d.slate = 0 ∧ d.hub.cuts = [] ∧ d.lanes = [] ∧ d.sup.sram = [] ∧
    d.cfgState = 0 ∧ d.splState = 0 ∧ d.nstate = nIDLE ∧ d.rf CSH_STAT_STATE = 0 ∧ d.rf GAF_RST_CAUSE_CAUSE = 1 ∧
    d.rf GAF_RST_CAUSE_SCOPE = 3 ∧ d.bit CKC_STAT_ON_RC = true ∧ d.bit CKC_STAT_XTAL_OK = false ∧ d.rf DLY_STAT_COUNT = 1 ∧
    SMap.at 0 d.hub.dailies 0 = record 0 0x10 0x09 Sev.warn.code [1, 3, 0, 0, 0] ∧
    (∀ p : Fin 30, if votable p then d.domState p = dRAMP ∧ d.bit (GAF_DOMd_STAT_ISOLATED p) = true ∧ d.rf (GAF_DOMd_STAT_VOTES p) = 1
      else d.domState p = dON ∧ d.rf (GAF_DOMd_STAT_VOTES p) = 0) ∧
    ∀ a, a ∉ Dev.resetRegs.map (·.1) → d.rd a = resetWord a
end

