-- ==== Sys2Proof/Laws/Fields.lean ====
section
/-! SUPPORT. What the operations on the fields of a register word do. -/
namespace Sys2Proof.Machine

theorem fieldGet_lt (lo w : Nat) (x : Word) : fieldGet lo w x < 2 ^ w := Nat.mod_lt _ (Nat.two_pow_pos w)

/-- The bits of a word after a field is written. -/
theorem getLsbD_fieldSet (lo w v : Nat) (x : Word) (i : Nat) (hi : i < 32) :
    (fieldSet lo w v x).getLsbD i = if lo ≤ i ∧ i < lo + w then v.testBit (i - lo) else x.getLsbD i := by
  simp only [fieldSet, BitVec.getLsbD_or, BitVec.getLsbD_and, BitVec.getLsbD_not, BitVec.getLsbD_ofNat, hi, decide_true,
    Bool.true_and, Nat.testBit_shiftLeft, Nat.testBit_mod_two_pow, Nat.testBit_two_pow_sub_one]
  by_cases h1 : lo ≤ i <;> by_cases h2 : i < lo + w
  · have : i - lo < w := by omega
    simp [h1, h2, this]
  · have : ¬ i - lo < w := by omega
    simp [h1, h2, this]
  · simp [h1]
  · simp [h1]

theorem testBit_fieldGet (lo w : Nat) (x : Word) (i : Nat) :
    (fieldGet lo w x).testBit i = (decide (i < w) && x.getLsbD (lo + i)) := by
  simp [fieldGet, Nat.testBit_mod_two_pow, Nat.testBit_shiftRight, BitVec.testBit_toNat]

/-- A field read after it is written. -/
theorem fieldGet_fieldSet_same (lo w v : Nat) (x : Word) (h : lo + w ≤ 32) :
    fieldGet lo w (fieldSet lo w v x) = v % 2 ^ w := by
  apply Nat.eq_of_testBit_eq
  intro i
  rw [testBit_fieldGet, Nat.testBit_mod_two_pow]
  by_cases hi : i < w
  · rw [getLsbD_fieldSet _ _ _ _ _ (by omega)]
    simp [hi]
  · simp [hi]

/-- Writing a field leaves a field of other bits alone. -/
theorem fieldGet_fieldSet_ne (lo w v lo' w' : Nat) (x : Word) (h : lo + w ≤ lo' ∨ lo' + w' ≤ lo) :
    fieldGet lo' w' (fieldSet lo w v x) = fieldGet lo' w' x := by
  apply Nat.eq_of_testBit_eq
  intro i
  rw [testBit_fieldGet, testBit_fieldGet]
  by_cases hi : i < w'
  · by_cases h32 : lo' + i < 32
    · rw [getLsbD_fieldSet _ _ _ _ _ h32, if_neg (by omega)]
    · simp [BitVec.getLsbD_of_ge _ _ (Nat.le_of_not_lt h32)]
  · simp [hi]

end Sys2Proof.Machine
end

