-- ==== Sys2Proof/Laws/Maps.lean ====
section
/-! SUPPORT. What the operations on sparse memories do: a read after a write, and that every operation keeps the
canonical form. -/
namespace Sys2Proof.Machine

theorem SMap.find_insert_same {α : Type} (k : Nat) (v : α) (m : SMap α) (h : ∀ p ∈ m, p.1 ≠ k) :
    (SMap.insert k v m).find? (fun p => p.1 == k) = some (k, v) := by
  induction m with
  | nil => simp [SMap.insert]
  | cons p m ih =>
    have hp : (p.1 == k) = false := by simpa using h p (by simp)
    simp only [SMap.insert]
    split
    · simp
    · rw [List.find?_cons, hp]
      exact ih (fun q hq => h q (by simp [hq]))

theorem SMap.find_insert_ne {α : Type} (k k' : Nat) (v : α) (m : SMap α) (hne : k' ≠ k) :
    (SMap.insert k v m).find? (fun p => p.1 == k') = m.find? (fun p => p.1 == k') := by
  induction m with
  | nil => simp [SMap.insert, Ne.symm hne]
  | cons p m ih =>
    simp only [SMap.insert]
    split
    · simp [List.find?_cons, Ne.symm hne]
    · simp only [List.find?_cons, ih]

theorem SMap.find_erase_same {α : Type} (k : Nat) (m : SMap α) :
    (SMap.erase m k).find? (fun p => p.1 == k) = none := by
  simp [SMap.erase, List.find?_eq_none]

theorem SMap.find_erase_ne {α : Type} (k k' : Nat) (m : SMap α) (hne : k' ≠ k) :
    (SMap.erase m k).find? (fun p => p.1 == k') = m.find? (fun p => p.1 == k') := by
  induction m with
  | nil => rfl
  | cons p m ih =>
    simp only [SMap.erase] at ih ⊢
    by_cases hp : p.1 = k
    · simp [hp, ih, Ne.symm hne]
    · by_cases hq : p.1 = k' <;> simp [hp, hq, ih, hne]

theorem SMap.mem_erase_ne {α : Type} (k : Nat) (m : SMap α) : ∀ p ∈ SMap.erase m k, p.1 ≠ k := by
  intro p hp
  simpa [SMap.erase] using (List.mem_filter.mp hp).2

/-- A read after a write of the same key. -/
@[simp] theorem SMap.get_put_same {α : Type} [DecidableEq α] (dflt : Nat → α) (m : SMap α) (k : Nat) (v : α) :
    SMap.get dflt (SMap.put dflt m k v) k = v := by
  unfold SMap.put
  split
  · rename_i h
    simp [SMap.get, SMap.find_erase_same, h]
  · simp [SMap.get, SMap.find_insert_same _ _ _ (SMap.mem_erase_ne k m)]

/-- A write leaves every other key alone. -/
theorem SMap.get_put_ne {α : Type} [DecidableEq α] (dflt : Nat → α) (m : SMap α) (k k' : Nat) (v : α) (h : k' ≠ k) :
    SMap.get dflt (SMap.put dflt m k v) k' = SMap.get dflt m k' := by
  unfold SMap.put
  split <;> simp [SMap.get, SMap.find_erase_ne _ _ _ h, SMap.find_insert_ne _ _ _ _ h]

@[simp] theorem SMap.at_set_same {α : Type} [DecidableEq α] (z : α) (m : SMap α) (k : Nat) (v : α) :
    SMap.at z (SMap.set z m k v) k = v := SMap.get_put_same _ _ _ _

theorem SMap.at_set_ne {α : Type} [DecidableEq α] (z : α) (m : SMap α) (k k' : Nat) (v : α) (h : k' ≠ k) :
    SMap.at z (SMap.set z m k v) k' = SMap.at z m k' := SMap.get_put_ne _ _ _ _ _ h

@[simp] theorem SMap.at_nil {α : Type} (z : α) (k : Nat) : SMap.at z [] k = z := rfl

/-- A read after a clear. -/
theorem SMap.get_clear {α : Type} (dflt : Nat → α) (p : Nat → Bool) (m : SMap α) (k : Nat) :
    SMap.get dflt (SMap.clear p m) k = if p k then dflt k else SMap.get dflt m k := by
  have key : ∀ m : SMap α, (SMap.clear p m).find? (fun e => e.1 == k) = if p k then none else m.find? (fun e => e.1 == k) := by
    intro m
    induction m with
    | nil => simp [SMap.clear]
    | cons e m ih =>
      simp only [SMap.clear] at ih ⊢
      by_cases he : e.1 = k
      · subst he
        by_cases hp : p e.1 <;> simp [hp, ih]
      · by_cases hp : p e.1 <;> simp [hp, he, ih]
  unfold SMap.get
  rw [key]
  cases p k <;> simp

/-! ## The canonical form -/

theorem SMap.wf_iff {α : Type} [DecidableEq α] (dflt : Nat → α) (m : SMap α) :
    SMap.wf dflt m = true ↔ m.Pairwise (fun p q => p.1 < q.1) ∧ ∀ p ∈ m, p.2 ≠ dflt p.1 := by
  simp [SMap.wf]

theorem SMap.wf_erase {α : Type} [DecidableEq α] (dflt : Nat → α) (m : SMap α) (k : Nat) (h : SMap.wf dflt m = true) :
    SMap.wf dflt (SMap.erase m k) = true := by
  rw [SMap.wf_iff] at h ⊢
  exact ⟨h.1.filter _, fun p hp => h.2 p (List.mem_filter.mp hp).1⟩

theorem SMap.wf_clear {α : Type} [DecidableEq α] (dflt : Nat → α) (p : Nat → Bool) (m : SMap α) (h : SMap.wf dflt m = true) :
    SMap.wf dflt (SMap.clear p m) = true := by
  rw [SMap.wf_iff] at h ⊢
  exact ⟨h.1.filter _, fun p hp => h.2 p (List.mem_filter.mp hp).1⟩

theorem SMap.mem_insert {α : Type} (k : Nat) (v : α) (m : SMap α) (p : Nat × α) :
    p ∈ SMap.insert k v m ↔ p = (k, v) ∨ p ∈ m := by
  induction m with
  | nil => simp [SMap.insert]
  | cons q m ih =>
    simp only [SMap.insert]
    split
    · simp
    · simp only [List.mem_cons, ih]
      tauto

theorem SMap.pairwise_insert {α : Type} (k : Nat) (v : α) (m : SMap α) (h : m.Pairwise (fun p q => p.1 < q.1))
    (hk : ∀ p ∈ m, p.1 ≠ k) : (SMap.insert k v m).Pairwise (fun p q => p.1 < q.1) := by
  induction m with
  | nil => simp [SMap.insert]
  | cons q m ih =>
    rw [List.pairwise_cons] at h
    simp only [SMap.insert]
    split
    · rename_i hlt
      refine List.pairwise_cons.mpr ⟨?_, List.pairwise_cons.mpr h⟩
      intro p hp
      rcases List.mem_cons.mp hp with rfl | hp
      · exact hlt
      · exact Nat.lt_trans hlt (h.1 p hp)
    · rename_i hge
      refine List.pairwise_cons.mpr ⟨?_, ih h.2 (fun p hp => hk p (by simp [hp]))⟩
      intro p hp
      rcases (SMap.mem_insert k v m p).mp hp with rfl | hp
      · have := hk q (by simp)
        simp only at this ⊢
        omega
      · exact h.1 p hp

/-- Every write keeps the canonical form. -/
theorem SMap.wf_put {α : Type} [DecidableEq α] (dflt : Nat → α) (m : SMap α) (k : Nat) (v : α) (h : SMap.wf dflt m = true) :
    SMap.wf dflt (SMap.put dflt m k v) = true := by
  have he := SMap.wf_erase dflt m k h
  unfold SMap.put
  split
  · exact he
  · rename_i hv
    rw [SMap.wf_iff] at he ⊢
    refine ⟨SMap.pairwise_insert k v _ he.1 (SMap.mem_erase_ne k m), ?_⟩
    intro p hp
    rcases (SMap.mem_insert k v _ p).mp hp with rfl | hp
    · exact hv
    · exact he.2 p hp

theorem SMap.wf_set {α : Type} [DecidableEq α] (z : α) (m : SMap α) (k : Nat) (v : α) (h : SMap.wf (fun _ => z) m = true) :
    SMap.wf (fun _ => z) (SMap.set z m k v) = true := SMap.wf_put _ _ _ _ h

end Sys2Proof.Machine
end

