-- ==== Sys2Proof/Laws/State.lean ====
section
/-! SUPPORT. What each update of the device leaves alone: one lemma per field per update, true by definition. -/
namespace Sys2Proof.Machine

@[simp] theorem Dev.wr_slate (d : Dev) (a : Nat) (v : Word) : (d.wr a v).slate = d.slate := rfl
@[simp] theorem Dev.wr_hold (d : Dev) (a : Nat) (v : Word) : (d.wr a v).hold = d.hold := rfl
@[simp] theorem Dev.wr_resp (d : Dev) (a : Nat) (v : Word) : (d.wr a v).resp = d.resp := rfl
@[simp] theorem Dev.wr_free (d : Dev) (a : Nat) (v : Word) : (d.wr a v).free = d.free := rfl
@[simp] theorem Dev.wr_sets (d : Dev) (a : Nat) (v : Word) : (d.wr a v).sets = d.sets := rfl
@[simp] theorem Dev.wr_marks (d : Dev) (a : Nat) (v : Word) : (d.wr a v).marks = d.marks := rfl
@[simp] theorem Dev.wr_outs (d : Dev) (a : Nat) (v : Word) : (d.wr a v).outs = d.outs := rfl
@[simp] theorem Dev.wr_hub (d : Dev) (a : Nat) (v : Word) : (d.wr a v).hub = d.hub := rfl
@[simp] theorem Dev.wr_cty (d : Dev) (a : Nat) (v : Word) : (d.wr a v).cty = d.cty := rfl
@[simp] theorem Dev.wr_fab (d : Dev) (a : Nat) (v : Word) : (d.wr a v).fab = d.fab := rfl
@[simp] theorem Dev.wr_se (d : Dev) (a : Nat) (v : Word) : (d.wr a v).se = d.se := rfl
@[simp] theorem Dev.wr_csh (d : Dev) (a : Nat) (v : Word) : (d.wr a v).csh = d.csh := rfl
@[simp] theorem Dev.wr_lanes (d : Dev) (a : Nat) (v : Word) : (d.wr a v).lanes = d.lanes := rfl
@[simp] theorem Dev.wr_eth (d : Dev) (a : Nat) (v : Word) : (d.wr a v).eth = d.eth := rfl
@[simp] theorem Dev.wr_mesh (d : Dev) (a : Nat) (v : Word) : (d.wr a v).mesh = d.mesh := rfl
@[simp] theorem Dev.wr_mem (d : Dev) (a : Nat) (v : Word) : (d.wr a v).mem = d.mem := rfl
@[simp] theorem Dev.wr_nvs (d : Dev) (a : Nat) (v : Word) : (d.wr a v).nvs = d.nvs := rfl
@[simp] theorem Dev.wr_cfg (d : Dev) (a : Nat) (v : Word) : (d.wr a v).cfg = d.cfg := rfl
@[simp] theorem Dev.wr_sup (d : Dev) (a : Nat) (v : Word) : (d.wr a v).sup = d.sup := rfl
@[simp] theorem Dev.wr_gaf (d : Dev) (a : Nat) (v : Word) : (d.wr a v).gaf = d.gaf := rfl
@[simp] theorem Dev.resetRange_slate (d : Dev) (lo hi : Nat) : (d.resetRange lo hi).slate = d.slate := rfl
@[simp] theorem Dev.resetRange_resp (d : Dev) (lo hi : Nat) : (d.resetRange lo hi).resp = d.resp := rfl
@[simp] theorem Dev.resetRange_free (d : Dev) (lo hi : Nat) : (d.resetRange lo hi).free = d.free := rfl
@[simp] theorem Dev.resetRange_sets (d : Dev) (lo hi : Nat) : (d.resetRange lo hi).sets = d.sets := rfl
@[simp] theorem Dev.resetRange_marks (d : Dev) (lo hi : Nat) : (d.resetRange lo hi).marks = d.marks := rfl
@[simp] theorem Dev.resetRange_outs (d : Dev) (lo hi : Nat) : (d.resetRange lo hi).outs = d.outs := rfl
@[simp] theorem Dev.resetRange_hub (d : Dev) (lo hi : Nat) : (d.resetRange lo hi).hub = d.hub := rfl
@[simp] theorem Dev.resetRange_cty (d : Dev) (lo hi : Nat) : (d.resetRange lo hi).cty = d.cty := rfl
@[simp] theorem Dev.resetRange_fab (d : Dev) (lo hi : Nat) : (d.resetRange lo hi).fab = d.fab := rfl
@[simp] theorem Dev.resetRange_se (d : Dev) (lo hi : Nat) : (d.resetRange lo hi).se = d.se := rfl
@[simp] theorem Dev.resetRange_csh (d : Dev) (lo hi : Nat) : (d.resetRange lo hi).csh = d.csh := rfl
@[simp] theorem Dev.resetRange_lanes (d : Dev) (lo hi : Nat) : (d.resetRange lo hi).lanes = d.lanes := rfl
@[simp] theorem Dev.resetRange_eth (d : Dev) (lo hi : Nat) : (d.resetRange lo hi).eth = d.eth := rfl
@[simp] theorem Dev.resetRange_mesh (d : Dev) (lo hi : Nat) : (d.resetRange lo hi).mesh = d.mesh := rfl
@[simp] theorem Dev.resetRange_mem (d : Dev) (lo hi : Nat) : (d.resetRange lo hi).mem = d.mem := rfl
@[simp] theorem Dev.resetRange_nvs (d : Dev) (lo hi : Nat) : (d.resetRange lo hi).nvs = d.nvs := rfl
@[simp] theorem Dev.resetRange_cfg (d : Dev) (lo hi : Nat) : (d.resetRange lo hi).cfg = d.cfg := rfl
@[simp] theorem Dev.resetRange_sup (d : Dev) (lo hi : Nat) : (d.resetRange lo hi).sup = d.sup := rfl
@[simp] theorem Dev.resetRange_gaf (d : Dev) (lo hi : Nat) : (d.resetRange lo hi).gaf = d.gaf := rfl
@[simp] theorem Dev.out_slate (d : Dev) (o : OutEv) : (d.out o).slate = d.slate := rfl
@[simp] theorem Dev.out_regs (d : Dev) (o : OutEv) : (d.out o).regs = d.regs := rfl
@[simp] theorem Dev.out_hold (d : Dev) (o : OutEv) : (d.out o).hold = d.hold := rfl
@[simp] theorem Dev.out_resp (d : Dev) (o : OutEv) : (d.out o).resp = d.resp := rfl
@[simp] theorem Dev.out_free (d : Dev) (o : OutEv) : (d.out o).free = d.free := rfl
@[simp] theorem Dev.out_sets (d : Dev) (o : OutEv) : (d.out o).sets = d.sets := rfl
@[simp] theorem Dev.out_marks (d : Dev) (o : OutEv) : (d.out o).marks = d.marks := rfl
@[simp] theorem Dev.out_hub (d : Dev) (o : OutEv) : (d.out o).hub = d.hub := rfl
@[simp] theorem Dev.out_cty (d : Dev) (o : OutEv) : (d.out o).cty = d.cty := rfl
@[simp] theorem Dev.out_fab (d : Dev) (o : OutEv) : (d.out o).fab = d.fab := rfl
@[simp] theorem Dev.out_se (d : Dev) (o : OutEv) : (d.out o).se = d.se := rfl
@[simp] theorem Dev.out_csh (d : Dev) (o : OutEv) : (d.out o).csh = d.csh := rfl
@[simp] theorem Dev.out_lanes (d : Dev) (o : OutEv) : (d.out o).lanes = d.lanes := rfl
@[simp] theorem Dev.out_eth (d : Dev) (o : OutEv) : (d.out o).eth = d.eth := rfl
@[simp] theorem Dev.out_mesh (d : Dev) (o : OutEv) : (d.out o).mesh = d.mesh := rfl
@[simp] theorem Dev.out_mem (d : Dev) (o : OutEv) : (d.out o).mem = d.mem := rfl
@[simp] theorem Dev.out_nvs (d : Dev) (o : OutEv) : (d.out o).nvs = d.nvs := rfl
@[simp] theorem Dev.out_cfg (d : Dev) (o : OutEv) : (d.out o).cfg = d.cfg := rfl
@[simp] theorem Dev.out_sup (d : Dev) (o : OutEv) : (d.out o).sup = d.sup := rfl
@[simp] theorem Dev.out_gaf (d : Dev) (o : OutEv) : (d.out o).gaf = d.gaf := rfl
@[simp] theorem Dev.evPulse_slate (d : Dev) (n : Nat) : (d.evPulse n).slate = d.slate := rfl
@[simp] theorem Dev.evPulse_regs (d : Dev) (n : Nat) : (d.evPulse n).regs = d.regs := rfl
@[simp] theorem Dev.evPulse_hold (d : Dev) (n : Nat) : (d.evPulse n).hold = d.hold := rfl
@[simp] theorem Dev.evPulse_resp (d : Dev) (n : Nat) : (d.evPulse n).resp = d.resp := rfl
@[simp] theorem Dev.evPulse_free (d : Dev) (n : Nat) : (d.evPulse n).free = d.free := rfl
@[simp] theorem Dev.evPulse_sets (d : Dev) (n : Nat) : (d.evPulse n).sets = d.sets := rfl
@[simp] theorem Dev.evPulse_marks (d : Dev) (n : Nat) : (d.evPulse n).marks = d.marks := rfl
@[simp] theorem Dev.evPulse_outs (d : Dev) (n : Nat) : (d.evPulse n).outs = d.outs := rfl
@[simp] theorem Dev.evPulse_cty (d : Dev) (n : Nat) : (d.evPulse n).cty = d.cty := rfl
@[simp] theorem Dev.evPulse_fab (d : Dev) (n : Nat) : (d.evPulse n).fab = d.fab := rfl
@[simp] theorem Dev.evPulse_se (d : Dev) (n : Nat) : (d.evPulse n).se = d.se := rfl
@[simp] theorem Dev.evPulse_csh (d : Dev) (n : Nat) : (d.evPulse n).csh = d.csh := rfl
@[simp] theorem Dev.evPulse_lanes (d : Dev) (n : Nat) : (d.evPulse n).lanes = d.lanes := rfl
@[simp] theorem Dev.evPulse_eth (d : Dev) (n : Nat) : (d.evPulse n).eth = d.eth := rfl
@[simp] theorem Dev.evPulse_mesh (d : Dev) (n : Nat) : (d.evPulse n).mesh = d.mesh := rfl
@[simp] theorem Dev.evPulse_mem (d : Dev) (n : Nat) : (d.evPulse n).mem = d.mem := rfl
@[simp] theorem Dev.evPulse_nvs (d : Dev) (n : Nat) : (d.evPulse n).nvs = d.nvs := rfl
@[simp] theorem Dev.evPulse_cfg (d : Dev) (n : Nat) : (d.evPulse n).cfg = d.cfg := rfl
@[simp] theorem Dev.evPulse_sup (d : Dev) (n : Nat) : (d.evPulse n).sup = d.sup := rfl
@[simp] theorem Dev.evPulse_gaf (d : Dev) (n : Nat) : (d.evPulse n).gaf = d.gaf := rfl
@[simp] theorem Dev.err_slate (d : Dev) : (d.err).slate = d.slate := rfl
@[simp] theorem Dev.err_regs (d : Dev) : (d.err).regs = d.regs := rfl
@[simp] theorem Dev.err_hold (d : Dev) : (d.err).hold = d.hold := rfl
@[simp] theorem Dev.err_free (d : Dev) : (d.err).free = d.free := rfl
@[simp] theorem Dev.err_sets (d : Dev) : (d.err).sets = d.sets := rfl
@[simp] theorem Dev.err_marks (d : Dev) : (d.err).marks = d.marks := rfl
@[simp] theorem Dev.err_outs (d : Dev) : (d.err).outs = d.outs := rfl
@[simp] theorem Dev.err_hub (d : Dev) : (d.err).hub = d.hub := rfl
@[simp] theorem Dev.err_cty (d : Dev) : (d.err).cty = d.cty := rfl
@[simp] theorem Dev.err_fab (d : Dev) : (d.err).fab = d.fab := rfl
@[simp] theorem Dev.err_se (d : Dev) : (d.err).se = d.se := rfl
@[simp] theorem Dev.err_csh (d : Dev) : (d.err).csh = d.csh := rfl
@[simp] theorem Dev.err_lanes (d : Dev) : (d.err).lanes = d.lanes := rfl
@[simp] theorem Dev.err_eth (d : Dev) : (d.err).eth = d.eth := rfl
@[simp] theorem Dev.err_mesh (d : Dev) : (d.err).mesh = d.mesh := rfl
@[simp] theorem Dev.err_mem (d : Dev) : (d.err).mem = d.mem := rfl
@[simp] theorem Dev.err_nvs (d : Dev) : (d.err).nvs = d.nvs := rfl
@[simp] theorem Dev.err_cfg (d : Dev) : (d.err).cfg = d.cfg := rfl
@[simp] theorem Dev.err_sup (d : Dev) : (d.err).sup = d.sup := rfl
@[simp] theorem Dev.err_gaf (d : Dev) : (d.err).gaf = d.gaf := rfl
@[simp] theorem Dev.ok_slate (d : Dev) : (d.ok).slate = d.slate := rfl
@[simp] theorem Dev.ok_regs (d : Dev) : (d.ok).regs = d.regs := rfl
@[simp] theorem Dev.ok_hold (d : Dev) : (d.ok).hold = d.hold := rfl
@[simp] theorem Dev.ok_free (d : Dev) : (d.ok).free = d.free := rfl
@[simp] theorem Dev.ok_sets (d : Dev) : (d.ok).sets = d.sets := rfl
@[simp] theorem Dev.ok_marks (d : Dev) : (d.ok).marks = d.marks := rfl
@[simp] theorem Dev.ok_outs (d : Dev) : (d.ok).outs = d.outs := rfl
@[simp] theorem Dev.ok_hub (d : Dev) : (d.ok).hub = d.hub := rfl
@[simp] theorem Dev.ok_cty (d : Dev) : (d.ok).cty = d.cty := rfl
@[simp] theorem Dev.ok_fab (d : Dev) : (d.ok).fab = d.fab := rfl
@[simp] theorem Dev.ok_se (d : Dev) : (d.ok).se = d.se := rfl
@[simp] theorem Dev.ok_csh (d : Dev) : (d.ok).csh = d.csh := rfl
@[simp] theorem Dev.ok_lanes (d : Dev) : (d.ok).lanes = d.lanes := rfl
@[simp] theorem Dev.ok_eth (d : Dev) : (d.ok).eth = d.eth := rfl
@[simp] theorem Dev.ok_mesh (d : Dev) : (d.ok).mesh = d.mesh := rfl
@[simp] theorem Dev.ok_mem (d : Dev) : (d.ok).mem = d.mem := rfl
@[simp] theorem Dev.ok_nvs (d : Dev) : (d.ok).nvs = d.nvs := rfl
@[simp] theorem Dev.ok_cfg (d : Dev) : (d.ok).cfg = d.cfg := rfl
@[simp] theorem Dev.ok_sup (d : Dev) : (d.ok).sup = d.sup := rfl
@[simp] theorem Dev.ok_gaf (d : Dev) : (d.ok).gaf = d.gaf := rfl
@[simp] theorem Dev.setHub_slate (d : Dev) (x : Hub) : (d.setHub x).slate = d.slate := rfl
@[simp] theorem Dev.setHub_regs (d : Dev) (x : Hub) : (d.setHub x).regs = d.regs := rfl
@[simp] theorem Dev.setHub_hold (d : Dev) (x : Hub) : (d.setHub x).hold = d.hold := rfl
@[simp] theorem Dev.setHub_resp (d : Dev) (x : Hub) : (d.setHub x).resp = d.resp := rfl
@[simp] theorem Dev.setHub_free (d : Dev) (x : Hub) : (d.setHub x).free = d.free := rfl
@[simp] theorem Dev.setHub_sets (d : Dev) (x : Hub) : (d.setHub x).sets = d.sets := rfl
@[simp] theorem Dev.setHub_marks (d : Dev) (x : Hub) : (d.setHub x).marks = d.marks := rfl
@[simp] theorem Dev.setHub_outs (d : Dev) (x : Hub) : (d.setHub x).outs = d.outs := rfl
@[simp] theorem Dev.setHub_cty (d : Dev) (x : Hub) : (d.setHub x).cty = d.cty := rfl
@[simp] theorem Dev.setHub_fab (d : Dev) (x : Hub) : (d.setHub x).fab = d.fab := rfl
@[simp] theorem Dev.setHub_se (d : Dev) (x : Hub) : (d.setHub x).se = d.se := rfl
@[simp] theorem Dev.setHub_csh (d : Dev) (x : Hub) : (d.setHub x).csh = d.csh := rfl
@[simp] theorem Dev.setHub_lanes (d : Dev) (x : Hub) : (d.setHub x).lanes = d.lanes := rfl
@[simp] theorem Dev.setHub_eth (d : Dev) (x : Hub) : (d.setHub x).eth = d.eth := rfl
@[simp] theorem Dev.setHub_mesh (d : Dev) (x : Hub) : (d.setHub x).mesh = d.mesh := rfl
@[simp] theorem Dev.setHub_mem (d : Dev) (x : Hub) : (d.setHub x).mem = d.mem := rfl
@[simp] theorem Dev.setHub_nvs (d : Dev) (x : Hub) : (d.setHub x).nvs = d.nvs := rfl
@[simp] theorem Dev.setHub_cfg (d : Dev) (x : Hub) : (d.setHub x).cfg = d.cfg := rfl
@[simp] theorem Dev.setHub_sup (d : Dev) (x : Hub) : (d.setHub x).sup = d.sup := rfl
@[simp] theorem Dev.setHub_gaf (d : Dev) (x : Hub) : (d.setHub x).gaf = d.gaf := rfl
@[simp] theorem Dev.setCut_slate (d : Dev) (i : Nat) (c : CutSlot) : (d.setCut i c).slate = d.slate := rfl
@[simp] theorem Dev.setCut_regs (d : Dev) (i : Nat) (c : CutSlot) : (d.setCut i c).regs = d.regs := rfl
@[simp] theorem Dev.setCut_hold (d : Dev) (i : Nat) (c : CutSlot) : (d.setCut i c).hold = d.hold := rfl
@[simp] theorem Dev.setCut_resp (d : Dev) (i : Nat) (c : CutSlot) : (d.setCut i c).resp = d.resp := rfl
@[simp] theorem Dev.setCut_free (d : Dev) (i : Nat) (c : CutSlot) : (d.setCut i c).free = d.free := rfl
@[simp] theorem Dev.setCut_sets (d : Dev) (i : Nat) (c : CutSlot) : (d.setCut i c).sets = d.sets := rfl
@[simp] theorem Dev.setCut_marks (d : Dev) (i : Nat) (c : CutSlot) : (d.setCut i c).marks = d.marks := rfl
@[simp] theorem Dev.setCut_outs (d : Dev) (i : Nat) (c : CutSlot) : (d.setCut i c).outs = d.outs := rfl
@[simp] theorem Dev.setCut_cty (d : Dev) (i : Nat) (c : CutSlot) : (d.setCut i c).cty = d.cty := rfl
@[simp] theorem Dev.setCut_fab (d : Dev) (i : Nat) (c : CutSlot) : (d.setCut i c).fab = d.fab := rfl
@[simp] theorem Dev.setCut_se (d : Dev) (i : Nat) (c : CutSlot) : (d.setCut i c).se = d.se := rfl
@[simp] theorem Dev.setCut_csh (d : Dev) (i : Nat) (c : CutSlot) : (d.setCut i c).csh = d.csh := rfl
@[simp] theorem Dev.setCut_lanes (d : Dev) (i : Nat) (c : CutSlot) : (d.setCut i c).lanes = d.lanes := rfl
@[simp] theorem Dev.setCut_eth (d : Dev) (i : Nat) (c : CutSlot) : (d.setCut i c).eth = d.eth := rfl
@[simp] theorem Dev.setCut_mesh (d : Dev) (i : Nat) (c : CutSlot) : (d.setCut i c).mesh = d.mesh := rfl
@[simp] theorem Dev.setCut_mem (d : Dev) (i : Nat) (c : CutSlot) : (d.setCut i c).mem = d.mem := rfl
@[simp] theorem Dev.setCut_nvs (d : Dev) (i : Nat) (c : CutSlot) : (d.setCut i c).nvs = d.nvs := rfl
@[simp] theorem Dev.setCut_cfg (d : Dev) (i : Nat) (c : CutSlot) : (d.setCut i c).cfg = d.cfg := rfl
@[simp] theorem Dev.setCut_sup (d : Dev) (i : Nat) (c : CutSlot) : (d.setCut i c).sup = d.sup := rfl
@[simp] theorem Dev.setCut_gaf (d : Dev) (i : Nat) (c : CutSlot) : (d.setCut i c).gaf = d.gaf := rfl
@[simp] theorem Dev.setSlot_slate (d : Dev) (n : Nat) (r : RefSlot) : (d.setSlot n r).slate = d.slate := rfl
@[simp] theorem Dev.setSlot_regs (d : Dev) (n : Nat) (r : RefSlot) : (d.setSlot n r).regs = d.regs := rfl
@[simp] theorem Dev.setSlot_hold (d : Dev) (n : Nat) (r : RefSlot) : (d.setSlot n r).hold = d.hold := rfl
@[simp] theorem Dev.setSlot_resp (d : Dev) (n : Nat) (r : RefSlot) : (d.setSlot n r).resp = d.resp := rfl
@[simp] theorem Dev.setSlot_free (d : Dev) (n : Nat) (r : RefSlot) : (d.setSlot n r).free = d.free := rfl
@[simp] theorem Dev.setSlot_sets (d : Dev) (n : Nat) (r : RefSlot) : (d.setSlot n r).sets = d.sets := rfl
@[simp] theorem Dev.setSlot_marks (d : Dev) (n : Nat) (r : RefSlot) : (d.setSlot n r).marks = d.marks := rfl
@[simp] theorem Dev.setSlot_outs (d : Dev) (n : Nat) (r : RefSlot) : (d.setSlot n r).outs = d.outs := rfl
@[simp] theorem Dev.setSlot_hub (d : Dev) (n : Nat) (r : RefSlot) : (d.setSlot n r).hub = d.hub := rfl
@[simp] theorem Dev.setSlot_fab (d : Dev) (n : Nat) (r : RefSlot) : (d.setSlot n r).fab = d.fab := rfl
@[simp] theorem Dev.setSlot_se (d : Dev) (n : Nat) (r : RefSlot) : (d.setSlot n r).se = d.se := rfl
@[simp] theorem Dev.setSlot_csh (d : Dev) (n : Nat) (r : RefSlot) : (d.setSlot n r).csh = d.csh := rfl
@[simp] theorem Dev.setSlot_lanes (d : Dev) (n : Nat) (r : RefSlot) : (d.setSlot n r).lanes = d.lanes := rfl
@[simp] theorem Dev.setSlot_eth (d : Dev) (n : Nat) (r : RefSlot) : (d.setSlot n r).eth = d.eth := rfl
@[simp] theorem Dev.setSlot_mesh (d : Dev) (n : Nat) (r : RefSlot) : (d.setSlot n r).mesh = d.mesh := rfl
@[simp] theorem Dev.setSlot_mem (d : Dev) (n : Nat) (r : RefSlot) : (d.setSlot n r).mem = d.mem := rfl
@[simp] theorem Dev.setSlot_nvs (d : Dev) (n : Nat) (r : RefSlot) : (d.setSlot n r).nvs = d.nvs := rfl
@[simp] theorem Dev.setSlot_cfg (d : Dev) (n : Nat) (r : RefSlot) : (d.setSlot n r).cfg = d.cfg := rfl
@[simp] theorem Dev.setSlot_sup (d : Dev) (n : Nat) (r : RefSlot) : (d.setSlot n r).sup = d.sup := rfl
@[simp] theorem Dev.setSlot_gaf (d : Dev) (n : Nat) (r : RefSlot) : (d.setSlot n r).gaf = d.gaf := rfl
@[simp] theorem Dev.setCap_slate (d : Dev) (die : Nat) (c : Capture) : (d.setCap die c).slate = d.slate := rfl
@[simp] theorem Dev.setCap_regs (d : Dev) (die : Nat) (c : Capture) : (d.setCap die c).regs = d.regs := rfl
@[simp] theorem Dev.setCap_hold (d : Dev) (die : Nat) (c : Capture) : (d.setCap die c).hold = d.hold := rfl
@[simp] theorem Dev.setCap_resp (d : Dev) (die : Nat) (c : Capture) : (d.setCap die c).resp = d.resp := rfl
@[simp] theorem Dev.setCap_free (d : Dev) (die : Nat) (c : Capture) : (d.setCap die c).free = d.free := rfl
@[simp] theorem Dev.setCap_sets (d : Dev) (die : Nat) (c : Capture) : (d.setCap die c).sets = d.sets := rfl
@[simp] theorem Dev.setCap_marks (d : Dev) (die : Nat) (c : Capture) : (d.setCap die c).marks = d.marks := rfl
@[simp] theorem Dev.setCap_outs (d : Dev) (die : Nat) (c : Capture) : (d.setCap die c).outs = d.outs := rfl
@[simp] theorem Dev.setCap_hub (d : Dev) (die : Nat) (c : Capture) : (d.setCap die c).hub = d.hub := rfl
@[simp] theorem Dev.setCap_cty (d : Dev) (die : Nat) (c : Capture) : (d.setCap die c).cty = d.cty := rfl
@[simp] theorem Dev.setCap_se (d : Dev) (die : Nat) (c : Capture) : (d.setCap die c).se = d.se := rfl
@[simp] theorem Dev.setCap_csh (d : Dev) (die : Nat) (c : Capture) : (d.setCap die c).csh = d.csh := rfl
@[simp] theorem Dev.setCap_lanes (d : Dev) (die : Nat) (c : Capture) : (d.setCap die c).lanes = d.lanes := rfl
@[simp] theorem Dev.setCap_eth (d : Dev) (die : Nat) (c : Capture) : (d.setCap die c).eth = d.eth := rfl
@[simp] theorem Dev.setCap_mesh (d : Dev) (die : Nat) (c : Capture) : (d.setCap die c).mesh = d.mesh := rfl
@[simp] theorem Dev.setCap_mem (d : Dev) (die : Nat) (c : Capture) : (d.setCap die c).mem = d.mem := rfl
@[simp] theorem Dev.setCap_nvs (d : Dev) (die : Nat) (c : Capture) : (d.setCap die c).nvs = d.nvs := rfl
@[simp] theorem Dev.setCap_cfg (d : Dev) (die : Nat) (c : Capture) : (d.setCap die c).cfg = d.cfg := rfl
@[simp] theorem Dev.setCap_sup (d : Dev) (die : Nat) (c : Capture) : (d.setCap die c).sup = d.sup := rfl
@[simp] theorem Dev.setCap_gaf (d : Dev) (die : Nat) (c : Capture) : (d.setCap die c).gaf = d.gaf := rfl
@[simp] theorem Dev.setMarch_slate (d : Dev) (e : Nat) (m : Option March) : (d.setMarch e m).slate = d.slate := rfl
@[simp] theorem Dev.setMarch_regs (d : Dev) (e : Nat) (m : Option March) : (d.setMarch e m).regs = d.regs := rfl
@[simp] theorem Dev.setMarch_hold (d : Dev) (e : Nat) (m : Option March) : (d.setMarch e m).hold = d.hold := rfl
@[simp] theorem Dev.setMarch_resp (d : Dev) (e : Nat) (m : Option March) : (d.setMarch e m).resp = d.resp := rfl
@[simp] theorem Dev.setMarch_free (d : Dev) (e : Nat) (m : Option March) : (d.setMarch e m).free = d.free := rfl
@[simp] theorem Dev.setMarch_sets (d : Dev) (e : Nat) (m : Option March) : (d.setMarch e m).sets = d.sets := rfl
@[simp] theorem Dev.setMarch_marks (d : Dev) (e : Nat) (m : Option March) : (d.setMarch e m).marks = d.marks := rfl
@[simp] theorem Dev.setMarch_outs (d : Dev) (e : Nat) (m : Option March) : (d.setMarch e m).outs = d.outs := rfl
@[simp] theorem Dev.setMarch_hub (d : Dev) (e : Nat) (m : Option March) : (d.setMarch e m).hub = d.hub := rfl
@[simp] theorem Dev.setMarch_cty (d : Dev) (e : Nat) (m : Option March) : (d.setMarch e m).cty = d.cty := rfl
@[simp] theorem Dev.setMarch_se (d : Dev) (e : Nat) (m : Option March) : (d.setMarch e m).se = d.se := rfl
@[simp] theorem Dev.setMarch_csh (d : Dev) (e : Nat) (m : Option March) : (d.setMarch e m).csh = d.csh := rfl
@[simp] theorem Dev.setMarch_lanes (d : Dev) (e : Nat) (m : Option March) : (d.setMarch e m).lanes = d.lanes := rfl
@[simp] theorem Dev.setMarch_eth (d : Dev) (e : Nat) (m : Option March) : (d.setMarch e m).eth = d.eth := rfl
@[simp] theorem Dev.setMarch_mesh (d : Dev) (e : Nat) (m : Option March) : (d.setMarch e m).mesh = d.mesh := rfl
@[simp] theorem Dev.setMarch_mem (d : Dev) (e : Nat) (m : Option March) : (d.setMarch e m).mem = d.mem := rfl
@[simp] theorem Dev.setMarch_nvs (d : Dev) (e : Nat) (m : Option March) : (d.setMarch e m).nvs = d.nvs := rfl
@[simp] theorem Dev.setMarch_cfg (d : Dev) (e : Nat) (m : Option March) : (d.setMarch e m).cfg = d.cfg := rfl
@[simp] theorem Dev.setMarch_sup (d : Dev) (e : Nat) (m : Option March) : (d.setMarch e m).sup = d.sup := rfl
@[simp] theorem Dev.setMarch_gaf (d : Dev) (e : Nat) (m : Option March) : (d.setMarch e m).gaf = d.gaf := rfl
@[simp] theorem Dev.setEngine_slate (d : Dev) (n : Nat) (x : Engine) : (d.setEngine n x).slate = d.slate := rfl
@[simp] theorem Dev.setEngine_regs (d : Dev) (n : Nat) (x : Engine) : (d.setEngine n x).regs = d.regs := rfl
@[simp] theorem Dev.setEngine_hold (d : Dev) (n : Nat) (x : Engine) : (d.setEngine n x).hold = d.hold := rfl
@[simp] theorem Dev.setEngine_resp (d : Dev) (n : Nat) (x : Engine) : (d.setEngine n x).resp = d.resp := rfl
@[simp] theorem Dev.setEngine_free (d : Dev) (n : Nat) (x : Engine) : (d.setEngine n x).free = d.free := rfl
@[simp] theorem Dev.setEngine_sets (d : Dev) (n : Nat) (x : Engine) : (d.setEngine n x).sets = d.sets := rfl
@[simp] theorem Dev.setEngine_marks (d : Dev) (n : Nat) (x : Engine) : (d.setEngine n x).marks = d.marks := rfl
@[simp] theorem Dev.setEngine_outs (d : Dev) (n : Nat) (x : Engine) : (d.setEngine n x).outs = d.outs := rfl
@[simp] theorem Dev.setEngine_hub (d : Dev) (n : Nat) (x : Engine) : (d.setEngine n x).hub = d.hub := rfl
@[simp] theorem Dev.setEngine_cty (d : Dev) (n : Nat) (x : Engine) : (d.setEngine n x).cty = d.cty := rfl
@[simp] theorem Dev.setEngine_fab (d : Dev) (n : Nat) (x : Engine) : (d.setEngine n x).fab = d.fab := rfl
@[simp] theorem Dev.setEngine_csh (d : Dev) (n : Nat) (x : Engine) : (d.setEngine n x).csh = d.csh := rfl
@[simp] theorem Dev.setEngine_lanes (d : Dev) (n : Nat) (x : Engine) : (d.setEngine n x).lanes = d.lanes := rfl
@[simp] theorem Dev.setEngine_eth (d : Dev) (n : Nat) (x : Engine) : (d.setEngine n x).eth = d.eth := rfl
@[simp] theorem Dev.setEngine_mesh (d : Dev) (n : Nat) (x : Engine) : (d.setEngine n x).mesh = d.mesh := rfl
@[simp] theorem Dev.setEngine_mem (d : Dev) (n : Nat) (x : Engine) : (d.setEngine n x).mem = d.mem := rfl
@[simp] theorem Dev.setEngine_nvs (d : Dev) (n : Nat) (x : Engine) : (d.setEngine n x).nvs = d.nvs := rfl
@[simp] theorem Dev.setEngine_cfg (d : Dev) (n : Nat) (x : Engine) : (d.setEngine n x).cfg = d.cfg := rfl
@[simp] theorem Dev.setEngine_sup (d : Dev) (n : Nat) (x : Engine) : (d.setEngine n x).sup = d.sup := rfl
@[simp] theorem Dev.setEngine_gaf (d : Dev) (n : Nat) (x : Engine) : (d.setEngine n x).gaf = d.gaf := rfl
@[simp] theorem Dev.setLane_slate (d : Dev) (l : Nat) (x : Lane) : (d.setLane l x).slate = d.slate := rfl
@[simp] theorem Dev.setLane_regs (d : Dev) (l : Nat) (x : Lane) : (d.setLane l x).regs = d.regs := rfl
@[simp] theorem Dev.setLane_hold (d : Dev) (l : Nat) (x : Lane) : (d.setLane l x).hold = d.hold := rfl
@[simp] theorem Dev.setLane_resp (d : Dev) (l : Nat) (x : Lane) : (d.setLane l x).resp = d.resp := rfl
@[simp] theorem Dev.setLane_free (d : Dev) (l : Nat) (x : Lane) : (d.setLane l x).free = d.free := rfl
@[simp] theorem Dev.setLane_sets (d : Dev) (l : Nat) (x : Lane) : (d.setLane l x).sets = d.sets := rfl
@[simp] theorem Dev.setLane_marks (d : Dev) (l : Nat) (x : Lane) : (d.setLane l x).marks = d.marks := rfl
@[simp] theorem Dev.setLane_outs (d : Dev) (l : Nat) (x : Lane) : (d.setLane l x).outs = d.outs := rfl
@[simp] theorem Dev.setLane_hub (d : Dev) (l : Nat) (x : Lane) : (d.setLane l x).hub = d.hub := rfl
@[simp] theorem Dev.setLane_cty (d : Dev) (l : Nat) (x : Lane) : (d.setLane l x).cty = d.cty := rfl
@[simp] theorem Dev.setLane_fab (d : Dev) (l : Nat) (x : Lane) : (d.setLane l x).fab = d.fab := rfl
@[simp] theorem Dev.setLane_se (d : Dev) (l : Nat) (x : Lane) : (d.setLane l x).se = d.se := rfl
@[simp] theorem Dev.setLane_csh (d : Dev) (l : Nat) (x : Lane) : (d.setLane l x).csh = d.csh := rfl
@[simp] theorem Dev.setLane_eth (d : Dev) (l : Nat) (x : Lane) : (d.setLane l x).eth = d.eth := rfl
@[simp] theorem Dev.setLane_mesh (d : Dev) (l : Nat) (x : Lane) : (d.setLane l x).mesh = d.mesh := rfl
@[simp] theorem Dev.setLane_mem (d : Dev) (l : Nat) (x : Lane) : (d.setLane l x).mem = d.mem := rfl
@[simp] theorem Dev.setLane_nvs (d : Dev) (l : Nat) (x : Lane) : (d.setLane l x).nvs = d.nvs := rfl
@[simp] theorem Dev.setLane_cfg (d : Dev) (l : Nat) (x : Lane) : (d.setLane l x).cfg = d.cfg := rfl
@[simp] theorem Dev.setLane_sup (d : Dev) (l : Nat) (x : Lane) : (d.setLane l x).sup = d.sup := rfl
@[simp] theorem Dev.setLane_gaf (d : Dev) (l : Nat) (x : Lane) : (d.setLane l x).gaf = d.gaf := rfl
@[simp] theorem Dev.setMac_slate (d : Dev) (m : Nat) (x : Mac) : (d.setMac m x).slate = d.slate := rfl
@[simp] theorem Dev.setMac_regs (d : Dev) (m : Nat) (x : Mac) : (d.setMac m x).regs = d.regs := rfl
@[simp] theorem Dev.setMac_hold (d : Dev) (m : Nat) (x : Mac) : (d.setMac m x).hold = d.hold := rfl
@[simp] theorem Dev.setMac_resp (d : Dev) (m : Nat) (x : Mac) : (d.setMac m x).resp = d.resp := rfl
@[simp] theorem Dev.setMac_free (d : Dev) (m : Nat) (x : Mac) : (d.setMac m x).free = d.free := rfl
@[simp] theorem Dev.setMac_sets (d : Dev) (m : Nat) (x : Mac) : (d.setMac m x).sets = d.sets := rfl
@[simp] theorem Dev.setMac_marks (d : Dev) (m : Nat) (x : Mac) : (d.setMac m x).marks = d.marks := rfl
@[simp] theorem Dev.setMac_outs (d : Dev) (m : Nat) (x : Mac) : (d.setMac m x).outs = d.outs := rfl
@[simp] theorem Dev.setMac_hub (d : Dev) (m : Nat) (x : Mac) : (d.setMac m x).hub = d.hub := rfl
@[simp] theorem Dev.setMac_cty (d : Dev) (m : Nat) (x : Mac) : (d.setMac m x).cty = d.cty := rfl
@[simp] theorem Dev.setMac_fab (d : Dev) (m : Nat) (x : Mac) : (d.setMac m x).fab = d.fab := rfl
@[simp] theorem Dev.setMac_se (d : Dev) (m : Nat) (x : Mac) : (d.setMac m x).se = d.se := rfl
@[simp] theorem Dev.setMac_csh (d : Dev) (m : Nat) (x : Mac) : (d.setMac m x).csh = d.csh := rfl
@[simp] theorem Dev.setMac_lanes (d : Dev) (m : Nat) (x : Mac) : (d.setMac m x).lanes = d.lanes := rfl
@[simp] theorem Dev.setMac_mesh (d : Dev) (m : Nat) (x : Mac) : (d.setMac m x).mesh = d.mesh := rfl
@[simp] theorem Dev.setMac_mem (d : Dev) (m : Nat) (x : Mac) : (d.setMac m x).mem = d.mem := rfl
@[simp] theorem Dev.setMac_nvs (d : Dev) (m : Nat) (x : Mac) : (d.setMac m x).nvs = d.nvs := rfl
@[simp] theorem Dev.setMac_cfg (d : Dev) (m : Nat) (x : Mac) : (d.setMac m x).cfg = d.cfg := rfl
@[simp] theorem Dev.setMac_sup (d : Dev) (m : Nat) (x : Mac) : (d.setMac m x).sup = d.sup := rfl
@[simp] theorem Dev.setMac_gaf (d : Dev) (m : Nat) (x : Mac) : (d.setMac m x).gaf = d.gaf := rfl
@[simp] theorem Dev.setJlk_slate (d : Dev) (j : Nat) (x : Jlk) : (d.setJlk j x).slate = d.slate := rfl
@[simp] theorem Dev.setJlk_regs (d : Dev) (j : Nat) (x : Jlk) : (d.setJlk j x).regs = d.regs := rfl
@[simp] theorem Dev.setJlk_hold (d : Dev) (j : Nat) (x : Jlk) : (d.setJlk j x).hold = d.hold := rfl
@[simp] theorem Dev.setJlk_resp (d : Dev) (j : Nat) (x : Jlk) : (d.setJlk j x).resp = d.resp := rfl
@[simp] theorem Dev.setJlk_free (d : Dev) (j : Nat) (x : Jlk) : (d.setJlk j x).free = d.free := rfl
@[simp] theorem Dev.setJlk_sets (d : Dev) (j : Nat) (x : Jlk) : (d.setJlk j x).sets = d.sets := rfl
@[simp] theorem Dev.setJlk_marks (d : Dev) (j : Nat) (x : Jlk) : (d.setJlk j x).marks = d.marks := rfl
@[simp] theorem Dev.setJlk_outs (d : Dev) (j : Nat) (x : Jlk) : (d.setJlk j x).outs = d.outs := rfl
@[simp] theorem Dev.setJlk_hub (d : Dev) (j : Nat) (x : Jlk) : (d.setJlk j x).hub = d.hub := rfl
@[simp] theorem Dev.setJlk_cty (d : Dev) (j : Nat) (x : Jlk) : (d.setJlk j x).cty = d.cty := rfl
@[simp] theorem Dev.setJlk_fab (d : Dev) (j : Nat) (x : Jlk) : (d.setJlk j x).fab = d.fab := rfl
@[simp] theorem Dev.setJlk_se (d : Dev) (j : Nat) (x : Jlk) : (d.setJlk j x).se = d.se := rfl
@[simp] theorem Dev.setJlk_csh (d : Dev) (j : Nat) (x : Jlk) : (d.setJlk j x).csh = d.csh := rfl
@[simp] theorem Dev.setJlk_lanes (d : Dev) (j : Nat) (x : Jlk) : (d.setJlk j x).lanes = d.lanes := rfl
@[simp] theorem Dev.setJlk_mesh (d : Dev) (j : Nat) (x : Jlk) : (d.setJlk j x).mesh = d.mesh := rfl
@[simp] theorem Dev.setJlk_mem (d : Dev) (j : Nat) (x : Jlk) : (d.setJlk j x).mem = d.mem := rfl
@[simp] theorem Dev.setJlk_nvs (d : Dev) (j : Nat) (x : Jlk) : (d.setJlk j x).nvs = d.nvs := rfl
@[simp] theorem Dev.setJlk_cfg (d : Dev) (j : Nat) (x : Jlk) : (d.setJlk j x).cfg = d.cfg := rfl
@[simp] theorem Dev.setJlk_sup (d : Dev) (j : Nat) (x : Jlk) : (d.setJlk j x).sup = d.sup := rfl
@[simp] theorem Dev.setJlk_gaf (d : Dev) (j : Nat) (x : Jlk) : (d.setJlk j x).gaf = d.gaf := rfl
@[simp] theorem Dev.setMport_slate (d : Dev) (p : Nat) (x : MeshPort) : (d.setMport p x).slate = d.slate := rfl
@[simp] theorem Dev.setMport_regs (d : Dev) (p : Nat) (x : MeshPort) : (d.setMport p x).regs = d.regs := rfl
@[simp] theorem Dev.setMport_hold (d : Dev) (p : Nat) (x : MeshPort) : (d.setMport p x).hold = d.hold := rfl
@[simp] theorem Dev.setMport_resp (d : Dev) (p : Nat) (x : MeshPort) : (d.setMport p x).resp = d.resp := rfl
@[simp] theorem Dev.setMport_free (d : Dev) (p : Nat) (x : MeshPort) : (d.setMport p x).free = d.free := rfl
@[simp] theorem Dev.setMport_sets (d : Dev) (p : Nat) (x : MeshPort) : (d.setMport p x).sets = d.sets := rfl
@[simp] theorem Dev.setMport_marks (d : Dev) (p : Nat) (x : MeshPort) : (d.setMport p x).marks = d.marks := rfl
@[simp] theorem Dev.setMport_outs (d : Dev) (p : Nat) (x : MeshPort) : (d.setMport p x).outs = d.outs := rfl
@[simp] theorem Dev.setMport_hub (d : Dev) (p : Nat) (x : MeshPort) : (d.setMport p x).hub = d.hub := rfl
@[simp] theorem Dev.setMport_cty (d : Dev) (p : Nat) (x : MeshPort) : (d.setMport p x).cty = d.cty := rfl
@[simp] theorem Dev.setMport_fab (d : Dev) (p : Nat) (x : MeshPort) : (d.setMport p x).fab = d.fab := rfl
@[simp] theorem Dev.setMport_se (d : Dev) (p : Nat) (x : MeshPort) : (d.setMport p x).se = d.se := rfl
@[simp] theorem Dev.setMport_csh (d : Dev) (p : Nat) (x : MeshPort) : (d.setMport p x).csh = d.csh := rfl
@[simp] theorem Dev.setMport_lanes (d : Dev) (p : Nat) (x : MeshPort) : (d.setMport p x).lanes = d.lanes := rfl
@[simp] theorem Dev.setMport_eth (d : Dev) (p : Nat) (x : MeshPort) : (d.setMport p x).eth = d.eth := rfl
@[simp] theorem Dev.setMport_mem (d : Dev) (p : Nat) (x : MeshPort) : (d.setMport p x).mem = d.mem := rfl
@[simp] theorem Dev.setMport_nvs (d : Dev) (p : Nat) (x : MeshPort) : (d.setMport p x).nvs = d.nvs := rfl
@[simp] theorem Dev.setMport_cfg (d : Dev) (p : Nat) (x : MeshPort) : (d.setMport p x).cfg = d.cfg := rfl
@[simp] theorem Dev.setMport_sup (d : Dev) (p : Nat) (x : MeshPort) : (d.setMport p x).sup = d.sup := rfl
@[simp] theorem Dev.setMport_gaf (d : Dev) (p : Nat) (x : MeshPort) : (d.setMport p x).gaf = d.gaf := rfl
@[simp] theorem Dev.setMesh_slate (d : Dev) (x : Mesh) : (d.setMesh x).slate = d.slate := rfl
@[simp] theorem Dev.setMesh_regs (d : Dev) (x : Mesh) : (d.setMesh x).regs = d.regs := rfl
@[simp] theorem Dev.setMesh_hold (d : Dev) (x : Mesh) : (d.setMesh x).hold = d.hold := rfl
@[simp] theorem Dev.setMesh_resp (d : Dev) (x : Mesh) : (d.setMesh x).resp = d.resp := rfl
@[simp] theorem Dev.setMesh_free (d : Dev) (x : Mesh) : (d.setMesh x).free = d.free := rfl
@[simp] theorem Dev.setMesh_sets (d : Dev) (x : Mesh) : (d.setMesh x).sets = d.sets := rfl
@[simp] theorem Dev.setMesh_marks (d : Dev) (x : Mesh) : (d.setMesh x).marks = d.marks := rfl
@[simp] theorem Dev.setMesh_outs (d : Dev) (x : Mesh) : (d.setMesh x).outs = d.outs := rfl
@[simp] theorem Dev.setMesh_hub (d : Dev) (x : Mesh) : (d.setMesh x).hub = d.hub := rfl
@[simp] theorem Dev.setMesh_cty (d : Dev) (x : Mesh) : (d.setMesh x).cty = d.cty := rfl
@[simp] theorem Dev.setMesh_fab (d : Dev) (x : Mesh) : (d.setMesh x).fab = d.fab := rfl
@[simp] theorem Dev.setMesh_se (d : Dev) (x : Mesh) : (d.setMesh x).se = d.se := rfl
@[simp] theorem Dev.setMesh_csh (d : Dev) (x : Mesh) : (d.setMesh x).csh = d.csh := rfl
@[simp] theorem Dev.setMesh_lanes (d : Dev) (x : Mesh) : (d.setMesh x).lanes = d.lanes := rfl
@[simp] theorem Dev.setMesh_eth (d : Dev) (x : Mesh) : (d.setMesh x).eth = d.eth := rfl
@[simp] theorem Dev.setMesh_mem (d : Dev) (x : Mesh) : (d.setMesh x).mem = d.mem := rfl
@[simp] theorem Dev.setMesh_nvs (d : Dev) (x : Mesh) : (d.setMesh x).nvs = d.nvs := rfl
@[simp] theorem Dev.setMesh_cfg (d : Dev) (x : Mesh) : (d.setMesh x).cfg = d.cfg := rfl
@[simp] theorem Dev.setMesh_sup (d : Dev) (x : Mesh) : (d.setMesh x).sup = d.sup := rfl
@[simp] theorem Dev.setMesh_gaf (d : Dev) (x : Mesh) : (d.setMesh x).gaf = d.gaf := rfl
@[simp] theorem Dev.setDmc_slate (d : Dev) (n : Nat) (x : Dmc) : (d.setDmc n x).slate = d.slate := rfl
@[simp] theorem Dev.setDmc_regs (d : Dev) (n : Nat) (x : Dmc) : (d.setDmc n x).regs = d.regs := rfl
@[simp] theorem Dev.setDmc_hold (d : Dev) (n : Nat) (x : Dmc) : (d.setDmc n x).hold = d.hold := rfl
@[simp] theorem Dev.setDmc_resp (d : Dev) (n : Nat) (x : Dmc) : (d.setDmc n x).resp = d.resp := rfl
@[simp] theorem Dev.setDmc_free (d : Dev) (n : Nat) (x : Dmc) : (d.setDmc n x).free = d.free := rfl
@[simp] theorem Dev.setDmc_sets (d : Dev) (n : Nat) (x : Dmc) : (d.setDmc n x).sets = d.sets := rfl
@[simp] theorem Dev.setDmc_marks (d : Dev) (n : Nat) (x : Dmc) : (d.setDmc n x).marks = d.marks := rfl
@[simp] theorem Dev.setDmc_outs (d : Dev) (n : Nat) (x : Dmc) : (d.setDmc n x).outs = d.outs := rfl
@[simp] theorem Dev.setDmc_hub (d : Dev) (n : Nat) (x : Dmc) : (d.setDmc n x).hub = d.hub := rfl
@[simp] theorem Dev.setDmc_cty (d : Dev) (n : Nat) (x : Dmc) : (d.setDmc n x).cty = d.cty := rfl
@[simp] theorem Dev.setDmc_fab (d : Dev) (n : Nat) (x : Dmc) : (d.setDmc n x).fab = d.fab := rfl
@[simp] theorem Dev.setDmc_se (d : Dev) (n : Nat) (x : Dmc) : (d.setDmc n x).se = d.se := rfl
@[simp] theorem Dev.setDmc_csh (d : Dev) (n : Nat) (x : Dmc) : (d.setDmc n x).csh = d.csh := rfl
@[simp] theorem Dev.setDmc_lanes (d : Dev) (n : Nat) (x : Dmc) : (d.setDmc n x).lanes = d.lanes := rfl
@[simp] theorem Dev.setDmc_eth (d : Dev) (n : Nat) (x : Dmc) : (d.setDmc n x).eth = d.eth := rfl
@[simp] theorem Dev.setDmc_mesh (d : Dev) (n : Nat) (x : Dmc) : (d.setDmc n x).mesh = d.mesh := rfl
@[simp] theorem Dev.setDmc_nvs (d : Dev) (n : Nat) (x : Dmc) : (d.setDmc n x).nvs = d.nvs := rfl
@[simp] theorem Dev.setDmc_cfg (d : Dev) (n : Nat) (x : Dmc) : (d.setDmc n x).cfg = d.cfg := rfl
@[simp] theorem Dev.setDmc_sup (d : Dev) (n : Nat) (x : Dmc) : (d.setDmc n x).sup = d.sup := rfl
@[simp] theorem Dev.setDmc_gaf (d : Dev) (n : Nat) (x : Dmc) : (d.setDmc n x).gaf = d.gaf := rfl
@[simp] theorem Dev.setMch_slate (d : Dev) (n : Nat) (x : MpeChan) : (d.setMch n x).slate = d.slate := rfl
@[simp] theorem Dev.setMch_regs (d : Dev) (n : Nat) (x : MpeChan) : (d.setMch n x).regs = d.regs := rfl
@[simp] theorem Dev.setMch_hold (d : Dev) (n : Nat) (x : MpeChan) : (d.setMch n x).hold = d.hold := rfl
@[simp] theorem Dev.setMch_resp (d : Dev) (n : Nat) (x : MpeChan) : (d.setMch n x).resp = d.resp := rfl
@[simp] theorem Dev.setMch_free (d : Dev) (n : Nat) (x : MpeChan) : (d.setMch n x).free = d.free := rfl
@[simp] theorem Dev.setMch_sets (d : Dev) (n : Nat) (x : MpeChan) : (d.setMch n x).sets = d.sets := rfl
@[simp] theorem Dev.setMch_marks (d : Dev) (n : Nat) (x : MpeChan) : (d.setMch n x).marks = d.marks := rfl
@[simp] theorem Dev.setMch_outs (d : Dev) (n : Nat) (x : MpeChan) : (d.setMch n x).outs = d.outs := rfl
@[simp] theorem Dev.setMch_hub (d : Dev) (n : Nat) (x : MpeChan) : (d.setMch n x).hub = d.hub := rfl
@[simp] theorem Dev.setMch_cty (d : Dev) (n : Nat) (x : MpeChan) : (d.setMch n x).cty = d.cty := rfl
@[simp] theorem Dev.setMch_fab (d : Dev) (n : Nat) (x : MpeChan) : (d.setMch n x).fab = d.fab := rfl
@[simp] theorem Dev.setMch_se (d : Dev) (n : Nat) (x : MpeChan) : (d.setMch n x).se = d.se := rfl
@[simp] theorem Dev.setMch_csh (d : Dev) (n : Nat) (x : MpeChan) : (d.setMch n x).csh = d.csh := rfl
@[simp] theorem Dev.setMch_lanes (d : Dev) (n : Nat) (x : MpeChan) : (d.setMch n x).lanes = d.lanes := rfl
@[simp] theorem Dev.setMch_eth (d : Dev) (n : Nat) (x : MpeChan) : (d.setMch n x).eth = d.eth := rfl
@[simp] theorem Dev.setMch_mesh (d : Dev) (n : Nat) (x : MpeChan) : (d.setMch n x).mesh = d.mesh := rfl
@[simp] theorem Dev.setMch_nvs (d : Dev) (n : Nat) (x : MpeChan) : (d.setMch n x).nvs = d.nvs := rfl
@[simp] theorem Dev.setMch_cfg (d : Dev) (n : Nat) (x : MpeChan) : (d.setMch n x).cfg = d.cfg := rfl
@[simp] theorem Dev.setMch_sup (d : Dev) (n : Nat) (x : MpeChan) : (d.setMch n x).sup = d.sup := rfl
@[simp] theorem Dev.setMch_gaf (d : Dev) (n : Nat) (x : MpeChan) : (d.setMch n x).gaf = d.gaf := rfl
@[simp] theorem Dev.setNvs_slate (d : Dev) (x : Nvs) : (d.setNvs x).slate = d.slate := rfl
@[simp] theorem Dev.setNvs_regs (d : Dev) (x : Nvs) : (d.setNvs x).regs = d.regs := rfl
@[simp] theorem Dev.setNvs_hold (d : Dev) (x : Nvs) : (d.setNvs x).hold = d.hold := rfl
@[simp] theorem Dev.setNvs_resp (d : Dev) (x : Nvs) : (d.setNvs x).resp = d.resp := rfl
@[simp] theorem Dev.setNvs_free (d : Dev) (x : Nvs) : (d.setNvs x).free = d.free := rfl
@[simp] theorem Dev.setNvs_sets (d : Dev) (x : Nvs) : (d.setNvs x).sets = d.sets := rfl
@[simp] theorem Dev.setNvs_marks (d : Dev) (x : Nvs) : (d.setNvs x).marks = d.marks := rfl
@[simp] theorem Dev.setNvs_outs (d : Dev) (x : Nvs) : (d.setNvs x).outs = d.outs := rfl
@[simp] theorem Dev.setNvs_hub (d : Dev) (x : Nvs) : (d.setNvs x).hub = d.hub := rfl
@[simp] theorem Dev.setNvs_cty (d : Dev) (x : Nvs) : (d.setNvs x).cty = d.cty := rfl
@[simp] theorem Dev.setNvs_fab (d : Dev) (x : Nvs) : (d.setNvs x).fab = d.fab := rfl
@[simp] theorem Dev.setNvs_se (d : Dev) (x : Nvs) : (d.setNvs x).se = d.se := rfl
@[simp] theorem Dev.setNvs_csh (d : Dev) (x : Nvs) : (d.setNvs x).csh = d.csh := rfl
@[simp] theorem Dev.setNvs_lanes (d : Dev) (x : Nvs) : (d.setNvs x).lanes = d.lanes := rfl
@[simp] theorem Dev.setNvs_eth (d : Dev) (x : Nvs) : (d.setNvs x).eth = d.eth := rfl
@[simp] theorem Dev.setNvs_mesh (d : Dev) (x : Nvs) : (d.setNvs x).mesh = d.mesh := rfl
@[simp] theorem Dev.setNvs_mem (d : Dev) (x : Nvs) : (d.setNvs x).mem = d.mem := rfl
@[simp] theorem Dev.setNvs_cfg (d : Dev) (x : Nvs) : (d.setNvs x).cfg = d.cfg := rfl
@[simp] theorem Dev.setNvs_sup (d : Dev) (x : Nvs) : (d.setNvs x).sup = d.sup := rfl
@[simp] theorem Dev.setNvs_gaf (d : Dev) (x : Nvs) : (d.setNvs x).gaf = d.gaf := rfl
@[simp] theorem Dev.setCfg_slate (d : Dev) (x : Cfg) : (d.setCfg x).slate = d.slate := rfl
@[simp] theorem Dev.setCfg_regs (d : Dev) (x : Cfg) : (d.setCfg x).regs = d.regs := rfl
@[simp] theorem Dev.setCfg_hold (d : Dev) (x : Cfg) : (d.setCfg x).hold = d.hold := rfl
@[simp] theorem Dev.setCfg_resp (d : Dev) (x : Cfg) : (d.setCfg x).resp = d.resp := rfl
@[simp] theorem Dev.setCfg_free (d : Dev) (x : Cfg) : (d.setCfg x).free = d.free := rfl
@[simp] theorem Dev.setCfg_sets (d : Dev) (x : Cfg) : (d.setCfg x).sets = d.sets := rfl
@[simp] theorem Dev.setCfg_marks (d : Dev) (x : Cfg) : (d.setCfg x).marks = d.marks := rfl
@[simp] theorem Dev.setCfg_outs (d : Dev) (x : Cfg) : (d.setCfg x).outs = d.outs := rfl
@[simp] theorem Dev.setCfg_hub (d : Dev) (x : Cfg) : (d.setCfg x).hub = d.hub := rfl
@[simp] theorem Dev.setCfg_cty (d : Dev) (x : Cfg) : (d.setCfg x).cty = d.cty := rfl
@[simp] theorem Dev.setCfg_fab (d : Dev) (x : Cfg) : (d.setCfg x).fab = d.fab := rfl
@[simp] theorem Dev.setCfg_se (d : Dev) (x : Cfg) : (d.setCfg x).se = d.se := rfl
@[simp] theorem Dev.setCfg_csh (d : Dev) (x : Cfg) : (d.setCfg x).csh = d.csh := rfl
@[simp] theorem Dev.setCfg_lanes (d : Dev) (x : Cfg) : (d.setCfg x).lanes = d.lanes := rfl
@[simp] theorem Dev.setCfg_eth (d : Dev) (x : Cfg) : (d.setCfg x).eth = d.eth := rfl
@[simp] theorem Dev.setCfg_mesh (d : Dev) (x : Cfg) : (d.setCfg x).mesh = d.mesh := rfl
@[simp] theorem Dev.setCfg_mem (d : Dev) (x : Cfg) : (d.setCfg x).mem = d.mem := rfl
@[simp] theorem Dev.setCfg_nvs (d : Dev) (x : Cfg) : (d.setCfg x).nvs = d.nvs := rfl
@[simp] theorem Dev.setCfg_sup (d : Dev) (x : Cfg) : (d.setCfg x).sup = d.sup := rfl
@[simp] theorem Dev.setCfg_gaf (d : Dev) (x : Cfg) : (d.setCfg x).gaf = d.gaf := rfl
@[simp] theorem Dev.setSup_slate (d : Dev) (x : Sup) : (d.setSup x).slate = d.slate := rfl
@[simp] theorem Dev.setSup_regs (d : Dev) (x : Sup) : (d.setSup x).regs = d.regs := rfl
@[simp] theorem Dev.setSup_hold (d : Dev) (x : Sup) : (d.setSup x).hold = d.hold := rfl
@[simp] theorem Dev.setSup_resp (d : Dev) (x : Sup) : (d.setSup x).resp = d.resp := rfl
@[simp] theorem Dev.setSup_free (d : Dev) (x : Sup) : (d.setSup x).free = d.free := rfl
@[simp] theorem Dev.setSup_sets (d : Dev) (x : Sup) : (d.setSup x).sets = d.sets := rfl
@[simp] theorem Dev.setSup_marks (d : Dev) (x : Sup) : (d.setSup x).marks = d.marks := rfl
@[simp] theorem Dev.setSup_outs (d : Dev) (x : Sup) : (d.setSup x).outs = d.outs := rfl
@[simp] theorem Dev.setSup_hub (d : Dev) (x : Sup) : (d.setSup x).hub = d.hub := rfl
@[simp] theorem Dev.setSup_cty (d : Dev) (x : Sup) : (d.setSup x).cty = d.cty := rfl
@[simp] theorem Dev.setSup_fab (d : Dev) (x : Sup) : (d.setSup x).fab = d.fab := rfl
@[simp] theorem Dev.setSup_se (d : Dev) (x : Sup) : (d.setSup x).se = d.se := rfl
@[simp] theorem Dev.setSup_csh (d : Dev) (x : Sup) : (d.setSup x).csh = d.csh := rfl
@[simp] theorem Dev.setSup_lanes (d : Dev) (x : Sup) : (d.setSup x).lanes = d.lanes := rfl
@[simp] theorem Dev.setSup_eth (d : Dev) (x : Sup) : (d.setSup x).eth = d.eth := rfl
@[simp] theorem Dev.setSup_mesh (d : Dev) (x : Sup) : (d.setSup x).mesh = d.mesh := rfl
@[simp] theorem Dev.setSup_mem (d : Dev) (x : Sup) : (d.setSup x).mem = d.mem := rfl
@[simp] theorem Dev.setSup_nvs (d : Dev) (x : Sup) : (d.setSup x).nvs = d.nvs := rfl
@[simp] theorem Dev.setSup_cfg (d : Dev) (x : Sup) : (d.setSup x).cfg = d.cfg := rfl
@[simp] theorem Dev.setSup_gaf (d : Dev) (x : Sup) : (d.setSup x).gaf = d.gaf := rfl
@[simp] theorem Dev.setCore_slate (d : Dev) (x : Core) : (d.setCore x).slate = d.slate := rfl
@[simp] theorem Dev.setCore_regs (d : Dev) (x : Core) : (d.setCore x).regs = d.regs := rfl
@[simp] theorem Dev.setCore_hold (d : Dev) (x : Core) : (d.setCore x).hold = d.hold := rfl
@[simp] theorem Dev.setCore_resp (d : Dev) (x : Core) : (d.setCore x).resp = d.resp := rfl
@[simp] theorem Dev.setCore_free (d : Dev) (x : Core) : (d.setCore x).free = d.free := rfl
@[simp] theorem Dev.setCore_sets (d : Dev) (x : Core) : (d.setCore x).sets = d.sets := rfl
@[simp] theorem Dev.setCore_marks (d : Dev) (x : Core) : (d.setCore x).marks = d.marks := rfl
@[simp] theorem Dev.setCore_outs (d : Dev) (x : Core) : (d.setCore x).outs = d.outs := rfl
@[simp] theorem Dev.setCore_hub (d : Dev) (x : Core) : (d.setCore x).hub = d.hub := rfl
@[simp] theorem Dev.setCore_cty (d : Dev) (x : Core) : (d.setCore x).cty = d.cty := rfl
@[simp] theorem Dev.setCore_fab (d : Dev) (x : Core) : (d.setCore x).fab = d.fab := rfl
@[simp] theorem Dev.setCore_se (d : Dev) (x : Core) : (d.setCore x).se = d.se := rfl
@[simp] theorem Dev.setCore_csh (d : Dev) (x : Core) : (d.setCore x).csh = d.csh := rfl
@[simp] theorem Dev.setCore_lanes (d : Dev) (x : Core) : (d.setCore x).lanes = d.lanes := rfl
@[simp] theorem Dev.setCore_eth (d : Dev) (x : Core) : (d.setCore x).eth = d.eth := rfl
@[simp] theorem Dev.setCore_mesh (d : Dev) (x : Core) : (d.setCore x).mesh = d.mesh := rfl
@[simp] theorem Dev.setCore_mem (d : Dev) (x : Core) : (d.setCore x).mem = d.mem := rfl
@[simp] theorem Dev.setCore_nvs (d : Dev) (x : Core) : (d.setCore x).nvs = d.nvs := rfl
@[simp] theorem Dev.setCore_cfg (d : Dev) (x : Core) : (d.setCore x).cfg = d.cfg := rfl
@[simp] theorem Dev.setCore_gaf (d : Dev) (x : Core) : (d.setCore x).gaf = d.gaf := rfl
@[simp] theorem Dev.setDbg_slate (d : Dev) (x : Dbg) : (d.setDbg x).slate = d.slate := rfl
@[simp] theorem Dev.setDbg_regs (d : Dev) (x : Dbg) : (d.setDbg x).regs = d.regs := rfl
@[simp] theorem Dev.setDbg_hold (d : Dev) (x : Dbg) : (d.setDbg x).hold = d.hold := rfl
@[simp] theorem Dev.setDbg_resp (d : Dev) (x : Dbg) : (d.setDbg x).resp = d.resp := rfl
@[simp] theorem Dev.setDbg_free (d : Dev) (x : Dbg) : (d.setDbg x).free = d.free := rfl
@[simp] theorem Dev.setDbg_sets (d : Dev) (x : Dbg) : (d.setDbg x).sets = d.sets := rfl
@[simp] theorem Dev.setDbg_marks (d : Dev) (x : Dbg) : (d.setDbg x).marks = d.marks := rfl
@[simp] theorem Dev.setDbg_outs (d : Dev) (x : Dbg) : (d.setDbg x).outs = d.outs := rfl
@[simp] theorem Dev.setDbg_hub (d : Dev) (x : Dbg) : (d.setDbg x).hub = d.hub := rfl
@[simp] theorem Dev.setDbg_cty (d : Dev) (x : Dbg) : (d.setDbg x).cty = d.cty := rfl
@[simp] theorem Dev.setDbg_fab (d : Dev) (x : Dbg) : (d.setDbg x).fab = d.fab := rfl
@[simp] theorem Dev.setDbg_se (d : Dev) (x : Dbg) : (d.setDbg x).se = d.se := rfl
@[simp] theorem Dev.setDbg_csh (d : Dev) (x : Dbg) : (d.setDbg x).csh = d.csh := rfl
@[simp] theorem Dev.setDbg_lanes (d : Dev) (x : Dbg) : (d.setDbg x).lanes = d.lanes := rfl
@[simp] theorem Dev.setDbg_eth (d : Dev) (x : Dbg) : (d.setDbg x).eth = d.eth := rfl
@[simp] theorem Dev.setDbg_mesh (d : Dev) (x : Dbg) : (d.setDbg x).mesh = d.mesh := rfl
@[simp] theorem Dev.setDbg_mem (d : Dev) (x : Dbg) : (d.setDbg x).mem = d.mem := rfl
@[simp] theorem Dev.setDbg_nvs (d : Dev) (x : Dbg) : (d.setDbg x).nvs = d.nvs := rfl
@[simp] theorem Dev.setDbg_cfg (d : Dev) (x : Dbg) : (d.setDbg x).cfg = d.cfg := rfl
@[simp] theorem Dev.setDbg_gaf (d : Dev) (x : Dbg) : (d.setDbg x).gaf = d.gaf := rfl
@[simp] theorem Dev.setUart_slate (d : Dev) (x : Uart) : (d.setUart x).slate = d.slate := rfl
@[simp] theorem Dev.setUart_regs (d : Dev) (x : Uart) : (d.setUart x).regs = d.regs := rfl
@[simp] theorem Dev.setUart_hold (d : Dev) (x : Uart) : (d.setUart x).hold = d.hold := rfl
@[simp] theorem Dev.setUart_resp (d : Dev) (x : Uart) : (d.setUart x).resp = d.resp := rfl
@[simp] theorem Dev.setUart_free (d : Dev) (x : Uart) : (d.setUart x).free = d.free := rfl
@[simp] theorem Dev.setUart_sets (d : Dev) (x : Uart) : (d.setUart x).sets = d.sets := rfl
@[simp] theorem Dev.setUart_marks (d : Dev) (x : Uart) : (d.setUart x).marks = d.marks := rfl
@[simp] theorem Dev.setUart_outs (d : Dev) (x : Uart) : (d.setUart x).outs = d.outs := rfl
@[simp] theorem Dev.setUart_hub (d : Dev) (x : Uart) : (d.setUart x).hub = d.hub := rfl
@[simp] theorem Dev.setUart_cty (d : Dev) (x : Uart) : (d.setUart x).cty = d.cty := rfl
@[simp] theorem Dev.setUart_fab (d : Dev) (x : Uart) : (d.setUart x).fab = d.fab := rfl
@[simp] theorem Dev.setUart_se (d : Dev) (x : Uart) : (d.setUart x).se = d.se := rfl
@[simp] theorem Dev.setUart_csh (d : Dev) (x : Uart) : (d.setUart x).csh = d.csh := rfl
@[simp] theorem Dev.setUart_lanes (d : Dev) (x : Uart) : (d.setUart x).lanes = d.lanes := rfl
@[simp] theorem Dev.setUart_eth (d : Dev) (x : Uart) : (d.setUart x).eth = d.eth := rfl
@[simp] theorem Dev.setUart_mesh (d : Dev) (x : Uart) : (d.setUart x).mesh = d.mesh := rfl
@[simp] theorem Dev.setUart_mem (d : Dev) (x : Uart) : (d.setUart x).mem = d.mem := rfl
@[simp] theorem Dev.setUart_nvs (d : Dev) (x : Uart) : (d.setUart x).nvs = d.nvs := rfl
@[simp] theorem Dev.setUart_cfg (d : Dev) (x : Uart) : (d.setUart x).cfg = d.cfg := rfl
@[simp] theorem Dev.setUart_gaf (d : Dev) (x : Uart) : (d.setUart x).gaf = d.gaf := rfl
@[simp] theorem Dev.setTwi_slate (d : Dev) (x : Twi) : (d.setTwi x).slate = d.slate := rfl
@[simp] theorem Dev.setTwi_regs (d : Dev) (x : Twi) : (d.setTwi x).regs = d.regs := rfl
@[simp] theorem Dev.setTwi_hold (d : Dev) (x : Twi) : (d.setTwi x).hold = d.hold := rfl
@[simp] theorem Dev.setTwi_resp (d : Dev) (x : Twi) : (d.setTwi x).resp = d.resp := rfl
@[simp] theorem Dev.setTwi_free (d : Dev) (x : Twi) : (d.setTwi x).free = d.free := rfl
@[simp] theorem Dev.setTwi_sets (d : Dev) (x : Twi) : (d.setTwi x).sets = d.sets := rfl
@[simp] theorem Dev.setTwi_marks (d : Dev) (x : Twi) : (d.setTwi x).marks = d.marks := rfl
@[simp] theorem Dev.setTwi_outs (d : Dev) (x : Twi) : (d.setTwi x).outs = d.outs := rfl
@[simp] theorem Dev.setTwi_hub (d : Dev) (x : Twi) : (d.setTwi x).hub = d.hub := rfl
@[simp] theorem Dev.setTwi_cty (d : Dev) (x : Twi) : (d.setTwi x).cty = d.cty := rfl
@[simp] theorem Dev.setTwi_fab (d : Dev) (x : Twi) : (d.setTwi x).fab = d.fab := rfl
@[simp] theorem Dev.setTwi_se (d : Dev) (x : Twi) : (d.setTwi x).se = d.se := rfl
@[simp] theorem Dev.setTwi_csh (d : Dev) (x : Twi) : (d.setTwi x).csh = d.csh := rfl
@[simp] theorem Dev.setTwi_lanes (d : Dev) (x : Twi) : (d.setTwi x).lanes = d.lanes := rfl
@[simp] theorem Dev.setTwi_eth (d : Dev) (x : Twi) : (d.setTwi x).eth = d.eth := rfl
@[simp] theorem Dev.setTwi_mesh (d : Dev) (x : Twi) : (d.setTwi x).mesh = d.mesh := rfl
@[simp] theorem Dev.setTwi_mem (d : Dev) (x : Twi) : (d.setTwi x).mem = d.mem := rfl
@[simp] theorem Dev.setTwi_nvs (d : Dev) (x : Twi) : (d.setTwi x).nvs = d.nvs := rfl
@[simp] theorem Dev.setTwi_cfg (d : Dev) (x : Twi) : (d.setTwi x).cfg = d.cfg := rfl
@[simp] theorem Dev.setTwi_gaf (d : Dev) (x : Twi) : (d.setTwi x).gaf = d.gaf := rfl
@[simp] theorem Dev.setGaf_slate (d : Dev) (x : Gaf) : (d.setGaf x).slate = d.slate := rfl
@[simp] theorem Dev.setGaf_regs (d : Dev) (x : Gaf) : (d.setGaf x).regs = d.regs := rfl
@[simp] theorem Dev.setGaf_hold (d : Dev) (x : Gaf) : (d.setGaf x).hold = d.hold := rfl
@[simp] theorem Dev.setGaf_resp (d : Dev) (x : Gaf) : (d.setGaf x).resp = d.resp := rfl
@[simp] theorem Dev.setGaf_free (d : Dev) (x : Gaf) : (d.setGaf x).free = d.free := rfl
@[simp] theorem Dev.setGaf_sets (d : Dev) (x : Gaf) : (d.setGaf x).sets = d.sets := rfl
@[simp] theorem Dev.setGaf_marks (d : Dev) (x : Gaf) : (d.setGaf x).marks = d.marks := rfl
@[simp] theorem Dev.setGaf_outs (d : Dev) (x : Gaf) : (d.setGaf x).outs = d.outs := rfl
@[simp] theorem Dev.setGaf_hub (d : Dev) (x : Gaf) : (d.setGaf x).hub = d.hub := rfl
@[simp] theorem Dev.setGaf_cty (d : Dev) (x : Gaf) : (d.setGaf x).cty = d.cty := rfl
@[simp] theorem Dev.setGaf_fab (d : Dev) (x : Gaf) : (d.setGaf x).fab = d.fab := rfl
@[simp] theorem Dev.setGaf_se (d : Dev) (x : Gaf) : (d.setGaf x).se = d.se := rfl
@[simp] theorem Dev.setGaf_csh (d : Dev) (x : Gaf) : (d.setGaf x).csh = d.csh := rfl
@[simp] theorem Dev.setGaf_lanes (d : Dev) (x : Gaf) : (d.setGaf x).lanes = d.lanes := rfl
@[simp] theorem Dev.setGaf_eth (d : Dev) (x : Gaf) : (d.setGaf x).eth = d.eth := rfl
@[simp] theorem Dev.setGaf_mesh (d : Dev) (x : Gaf) : (d.setGaf x).mesh = d.mesh := rfl
@[simp] theorem Dev.setGaf_mem (d : Dev) (x : Gaf) : (d.setGaf x).mem = d.mem := rfl
@[simp] theorem Dev.setGaf_nvs (d : Dev) (x : Gaf) : (d.setGaf x).nvs = d.nvs := rfl
@[simp] theorem Dev.setGaf_cfg (d : Dev) (x : Gaf) : (d.setGaf x).cfg = d.cfg := rfl
@[simp] theorem Dev.setGaf_sup (d : Dev) (x : Gaf) : (d.setGaf x).sup = d.sup := rfl
@[simp] theorem Dev.setHub_same (d : Dev) (x : Hub) : (d.setHub x).hub = x := rfl
@[simp] theorem Dev.setNvs_same (d : Dev) (x : Nvs) : (d.setNvs x).nvs = x := rfl
@[simp] theorem Dev.setCfg_same (d : Dev) (x : Cfg) : (d.setCfg x).cfg = x := rfl
@[simp] theorem Dev.setSup_same (d : Dev) (x : Sup) : (d.setSup x).sup = x := rfl
@[simp] theorem Dev.setGaf_same (d : Dev) (x : Gaf) : (d.setGaf x).gaf = x := rfl
@[simp] theorem Dev.setMesh_same (d : Dev) (x : Mesh) : (d.setMesh x).mesh = x := rfl
@[simp] theorem Dev.setCore_same (d : Dev) (x : Core) : (d.setCore x).sup.core = x := rfl
@[simp] theorem Dev.setCore_sup_dbg (d : Dev) (x : Core) : (d.setCore x).sup.dbg = d.sup.dbg := rfl
@[simp] theorem Dev.setCore_sup_twi (d : Dev) (x : Core) : (d.setCore x).sup.twi = d.sup.twi := rfl
@[simp] theorem Dev.setCore_sup_uart (d : Dev) (x : Core) : (d.setCore x).sup.uart = d.sup.uart := rfl
@[simp] theorem Dev.setCore_sup_boot (d : Dev) (x : Core) : (d.setCore x).sup.boot = d.sup.boot := rfl
@[simp] theorem Dev.setCore_sup_sram (d : Dev) (x : Core) : (d.setCore x).sup.sram = d.sup.sram := rfl
@[simp] theorem Dev.setCore_sup_level (d : Dev) (x : Core) : (d.setCore x).sup.level = d.sup.level := rfl
@[simp] theorem Dev.setCore_sup_swPend (d : Dev) (x : Core) : (d.setCore x).sup.swPend = d.sup.swPend := rfl
@[simp] theorem Dev.setCore_sup_active (d : Dev) (x : Core) : (d.setCore x).sup.active = d.sup.active := rfl
@[simp] theorem Dev.setCore_sup_compete (d : Dev) (x : Core) : (d.setCore x).sup.compete = d.sup.compete := rfl
@[simp] theorem Dev.setCore_sup_req (d : Dev) (x : Core) : (d.setCore x).sup.req = d.sup.req := rfl
@[simp] theorem Dev.setCore_sup_setNow (d : Dev) (x : Core) : (d.setCore x).sup.setNow = d.sup.setNow := rfl
@[simp] theorem Dev.setCore_sup_latch (d : Dev) (x : Core) : (d.setCore x).sup.latch = d.sup.latch := rfl
@[simp] theorem Dev.setCore_sup_wdgAcc (d : Dev) (x : Core) : (d.setCore x).sup.wdgAcc = d.sup.wdgAcc := rfl
@[simp] theorem Dev.setCore_sup_wdgWarned (d : Dev) (x : Core) : (d.setCore x).sup.wdgWarned = d.sup.wdgWarned := rfl
@[simp] theorem Dev.setCore_sup_wdgFrozen (d : Dev) (x : Core) : (d.setCore x).sup.wdgFrozen = d.sup.wdgFrozen := rfl
@[simp] theorem Dev.setDbg_sup_core (d : Dev) (x : Dbg) : (d.setDbg x).sup.core = d.sup.core := rfl
@[simp] theorem Dev.setDbg_same (d : Dev) (x : Dbg) : (d.setDbg x).sup.dbg = x := rfl
@[simp] theorem Dev.setDbg_sup_twi (d : Dev) (x : Dbg) : (d.setDbg x).sup.twi = d.sup.twi := rfl
@[simp] theorem Dev.setDbg_sup_uart (d : Dev) (x : Dbg) : (d.setDbg x).sup.uart = d.sup.uart := rfl
@[simp] theorem Dev.setDbg_sup_boot (d : Dev) (x : Dbg) : (d.setDbg x).sup.boot = d.sup.boot := rfl
@[simp] theorem Dev.setDbg_sup_sram (d : Dev) (x : Dbg) : (d.setDbg x).sup.sram = d.sup.sram := rfl
@[simp] theorem Dev.setDbg_sup_level (d : Dev) (x : Dbg) : (d.setDbg x).sup.level = d.sup.level := rfl
@[simp] theorem Dev.setDbg_sup_swPend (d : Dev) (x : Dbg) : (d.setDbg x).sup.swPend = d.sup.swPend := rfl
@[simp] theorem Dev.setDbg_sup_active (d : Dev) (x : Dbg) : (d.setDbg x).sup.active = d.sup.active := rfl
@[simp] theorem Dev.setDbg_sup_compete (d : Dev) (x : Dbg) : (d.setDbg x).sup.compete = d.sup.compete := rfl
@[simp] theorem Dev.setDbg_sup_req (d : Dev) (x : Dbg) : (d.setDbg x).sup.req = d.sup.req := rfl
@[simp] theorem Dev.setDbg_sup_setNow (d : Dev) (x : Dbg) : (d.setDbg x).sup.setNow = d.sup.setNow := rfl
@[simp] theorem Dev.setDbg_sup_latch (d : Dev) (x : Dbg) : (d.setDbg x).sup.latch = d.sup.latch := rfl
@[simp] theorem Dev.setDbg_sup_wdgAcc (d : Dev) (x : Dbg) : (d.setDbg x).sup.wdgAcc = d.sup.wdgAcc := rfl
@[simp] theorem Dev.setDbg_sup_wdgWarned (d : Dev) (x : Dbg) : (d.setDbg x).sup.wdgWarned = d.sup.wdgWarned := rfl
@[simp] theorem Dev.setDbg_sup_wdgFrozen (d : Dev) (x : Dbg) : (d.setDbg x).sup.wdgFrozen = d.sup.wdgFrozen := rfl
@[simp] theorem Dev.setUart_sup_core (d : Dev) (x : Uart) : (d.setUart x).sup.core = d.sup.core := rfl
@[simp] theorem Dev.setUart_sup_dbg (d : Dev) (x : Uart) : (d.setUart x).sup.dbg = d.sup.dbg := rfl
@[simp] theorem Dev.setUart_sup_twi (d : Dev) (x : Uart) : (d.setUart x).sup.twi = d.sup.twi := rfl
@[simp] theorem Dev.setUart_same (d : Dev) (x : Uart) : (d.setUart x).sup.uart = x := rfl
@[simp] theorem Dev.setUart_sup_boot (d : Dev) (x : Uart) : (d.setUart x).sup.boot = d.sup.boot := rfl
@[simp] theorem Dev.setUart_sup_sram (d : Dev) (x : Uart) : (d.setUart x).sup.sram = d.sup.sram := rfl
@[simp] theorem Dev.setUart_sup_level (d : Dev) (x : Uart) : (d.setUart x).sup.level = d.sup.level := rfl
@[simp] theorem Dev.setUart_sup_swPend (d : Dev) (x : Uart) : (d.setUart x).sup.swPend = d.sup.swPend := rfl
@[simp] theorem Dev.setUart_sup_active (d : Dev) (x : Uart) : (d.setUart x).sup.active = d.sup.active := rfl
@[simp] theorem Dev.setUart_sup_compete (d : Dev) (x : Uart) : (d.setUart x).sup.compete = d.sup.compete := rfl
@[simp] theorem Dev.setUart_sup_req (d : Dev) (x : Uart) : (d.setUart x).sup.req = d.sup.req := rfl
@[simp] theorem Dev.setUart_sup_setNow (d : Dev) (x : Uart) : (d.setUart x).sup.setNow = d.sup.setNow := rfl
@[simp] theorem Dev.setUart_sup_latch (d : Dev) (x : Uart) : (d.setUart x).sup.latch = d.sup.latch := rfl
@[simp] theorem Dev.setUart_sup_wdgAcc (d : Dev) (x : Uart) : (d.setUart x).sup.wdgAcc = d.sup.wdgAcc := rfl
@[simp] theorem Dev.setUart_sup_wdgWarned (d : Dev) (x : Uart) : (d.setUart x).sup.wdgWarned = d.sup.wdgWarned := rfl
@[simp] theorem Dev.setUart_sup_wdgFrozen (d : Dev) (x : Uart) : (d.setUart x).sup.wdgFrozen = d.sup.wdgFrozen := rfl
@[simp] theorem Dev.setTwi_sup_core (d : Dev) (x : Twi) : (d.setTwi x).sup.core = d.sup.core := rfl
@[simp] theorem Dev.setTwi_sup_dbg (d : Dev) (x : Twi) : (d.setTwi x).sup.dbg = d.sup.dbg := rfl
@[simp] theorem Dev.setTwi_same (d : Dev) (x : Twi) : (d.setTwi x).sup.twi = x := rfl
@[simp] theorem Dev.setTwi_sup_uart (d : Dev) (x : Twi) : (d.setTwi x).sup.uart = d.sup.uart := rfl
@[simp] theorem Dev.setTwi_sup_boot (d : Dev) (x : Twi) : (d.setTwi x).sup.boot = d.sup.boot := rfl
@[simp] theorem Dev.setTwi_sup_sram (d : Dev) (x : Twi) : (d.setTwi x).sup.sram = d.sup.sram := rfl
@[simp] theorem Dev.setTwi_sup_level (d : Dev) (x : Twi) : (d.setTwi x).sup.level = d.sup.level := rfl
@[simp] theorem Dev.setTwi_sup_swPend (d : Dev) (x : Twi) : (d.setTwi x).sup.swPend = d.sup.swPend := rfl
@[simp] theorem Dev.setTwi_sup_active (d : Dev) (x : Twi) : (d.setTwi x).sup.active = d.sup.active := rfl
@[simp] theorem Dev.setTwi_sup_compete (d : Dev) (x : Twi) : (d.setTwi x).sup.compete = d.sup.compete := rfl
@[simp] theorem Dev.setTwi_sup_req (d : Dev) (x : Twi) : (d.setTwi x).sup.req = d.sup.req := rfl
@[simp] theorem Dev.setTwi_sup_setNow (d : Dev) (x : Twi) : (d.setTwi x).sup.setNow = d.sup.setNow := rfl
@[simp] theorem Dev.setTwi_sup_latch (d : Dev) (x : Twi) : (d.setTwi x).sup.latch = d.sup.latch := rfl
@[simp] theorem Dev.setTwi_sup_wdgAcc (d : Dev) (x : Twi) : (d.setTwi x).sup.wdgAcc = d.sup.wdgAcc := rfl
@[simp] theorem Dev.setTwi_sup_wdgWarned (d : Dev) (x : Twi) : (d.setTwi x).sup.wdgWarned = d.sup.wdgWarned := rfl
@[simp] theorem Dev.setTwi_sup_wdgFrozen (d : Dev) (x : Twi) : (d.setTwi x).sup.wdgFrozen = d.sup.wdgFrozen := rfl
@[simp] theorem Dev.err_resp (d : Dev) : d.err.resp = .error := rfl
@[simp] theorem Dev.ok_resp (d : Dev) : d.ok.resp = .done := rfl
@[simp] theorem Dev.out_outs (d : Dev) (x : OutEv) : (d.out x).outs = x :: d.outs := rfl

end Sys2Proof.Machine
end

