-- ==== Sys2Proof/Laws/Ops.lean ====
section
/-! SUPPORT. What the named operations do: registers and their fields, the log, the gate of the control bus, and the ways a
command answers. -/
namespace Sys2Proof.Machine
open Reg

/-! ## Registers -/

@[simp] theorem Dev.rd_wr_same (d : Dev) (a : Nat) (v : Word) : (d.wr a v).rd a = v := SMap.get_put_same _ _ _ _

theorem Dev.rd_wr_ne (d : Dev) (a b : Nat) (v : Word) (h : b ≠ a) : (d.wr a v).rd b = d.rd b := SMap.get_put_ne _ _ _ _ _ h

/-- What registers read as depends on the register file alone. -/
theorem Dev.rd_congr {d e : Dev} (h : d.regs = e.regs) (a : Nat) : d.rd a = e.rd a := by simp [Dev.rd, h]

theorem Dev.rf_congr {d e : Dev} (h : d.regs = e.regs) (f : RF) : d.rf f = e.rf f := by simp [Dev.rf, Dev.rd_congr h]

theorem Dev.rf_lt (d : Dev) (f : RF) : d.rf f < 2 ^ f.w := fieldGet_lt _ _ _

/-- A field read after it is written. -/
theorem Dev.rf_wf_same (d : Dev) (f : RF) (v : Nat) (h : f.lo + f.w ≤ 32) : (d.wf f v).rf f = v % 2 ^ f.w := by
  simp [Dev.rf, Dev.wf, fieldGet_fieldSet_same _ _ _ _ h]

/-- A write of a field leaves the fields of other registers alone. -/
theorem Dev.rf_wf_addr (d : Dev) (f g : RF) (v : Nat) (h : g.addr ≠ f.addr) : (d.wf f v).rf g = d.rf g := by
  simp [Dev.rf, Dev.wf, Dev.rd_wr_ne _ _ _ _ h]

/-- A write of a field leaves the register's other fields alone. -/
theorem Dev.rf_wf_bits (d : Dev) (f g : RF) (v : Nat) (h : f.lo + f.w ≤ g.lo ∨ g.lo + g.w ≤ f.lo) :
    (d.wf f v).rf g = d.rf g := by
  by_cases ha : g.addr = f.addr
  · simp [Dev.rf, Dev.wf, ha, fieldGet_fieldSet_ne _ _ _ _ _ _ h]
  · exact Dev.rf_wf_addr d f g v ha

theorem Dev.rd_wf_ne (d : Dev) (f : RF) (v : Nat) (a : Nat) (h : a ≠ f.addr) : (d.wf f v).rd a = d.rd a :=
  Dev.rd_wr_ne _ _ _ _ h

theorem Dev.on_def (d : Dev) (f : RF) : d.on f = { d.wf f 1 with sets := (f.addr, fieldMask f.lo f.w) :: d.sets } := rfl

/-- A register that hardware sets a flag of, and the others. -/
theorem Dev.on_regs (d : Dev) (f : RF) : (d.on f).regs = (d.wf f 1).regs := rfl
theorem Dev.rd_on (d : Dev) (f : RF) (a : Nat) : (d.on f).rd a = (d.wf f 1).rd a := rfl
theorem Dev.rf_on (d : Dev) (f g : RF) : (d.on f).rf g = (d.wf f 1).rf g := rfl
theorem Dev.off_def (d : Dev) (f : RF) : d.off f = d.wf f 0 := rfl
theorem Dev.wb_def (d : Dev) (f : RF) (b : Bool) : d.wb f b = d.wf f b.toNat := rfl
theorem Dev.bit_def (d : Dev) (f : RF) : d.bit f = (d.rf f != 0) := rfl

/-- An event counter saturates (R36). -/
theorem Dev.rf_incBy (d : Dev) (f : RF) (n : Nat) (h : f.lo + f.w ≤ 32) :
    (d.incBy f n).rf f = min (d.rf f + n) (2 ^ f.w - 1) := by
  have hp := Nat.two_pow_pos f.w
  rw [Dev.incBy, Dev.rf_wf_same _ _ _ h, satU]
  exact Nat.mod_eq_of_lt (by omega)

/-- The registers keep their canonical form. -/
theorem Dev.wf_wr (d : Dev) (a : Nat) (v : Word) (h : SMap.wf resetWord d.regs = true) :
    SMap.wf resetWord (d.wr a v).regs = true := SMap.wf_put _ _ _ _ h

theorem Dev.wf_resetRange (d : Dev) (lo hi : Nat) (h : SMap.wf resetWord d.regs = true) :
    SMap.wf resetWord (d.resetRange lo hi).regs = true := SMap.wf_clear resetWord (fun a => lo ≤ a && a ≤ hi) d.regs h

/-! ## What updates of other fields leave of a wf -/

@[simp] theorem Dev.wf_slate (d : Dev) (f : RF) (v : Nat) : (d.wf f v).slate = d.slate := rfl
@[simp] theorem Dev.wf_hub (d : Dev) (f : RF) (v : Nat) : (d.wf f v).hub = d.hub := rfl
@[simp] theorem Dev.wf_outs (d : Dev) (f : RF) (v : Nat) : (d.wf f v).outs = d.outs := rfl
@[simp] theorem Dev.wf_resp (d : Dev) (f : RF) (v : Nat) : (d.wf f v).resp = d.resp := rfl
@[simp] theorem Dev.wf_cty (d : Dev) (f : RF) (v : Nat) : (d.wf f v).cty = d.cty := rfl
@[simp] theorem Dev.wf_fab (d : Dev) (f : RF) (v : Nat) : (d.wf f v).fab = d.fab := rfl
@[simp] theorem Dev.wf_se (d : Dev) (f : RF) (v : Nat) : (d.wf f v).se = d.se := rfl
@[simp] theorem Dev.wf_csh (d : Dev) (f : RF) (v : Nat) : (d.wf f v).csh = d.csh := rfl
@[simp] theorem Dev.wf_lanes (d : Dev) (f : RF) (v : Nat) : (d.wf f v).lanes = d.lanes := rfl
@[simp] theorem Dev.wf_eth (d : Dev) (f : RF) (v : Nat) : (d.wf f v).eth = d.eth := rfl
@[simp] theorem Dev.wf_mesh (d : Dev) (f : RF) (v : Nat) : (d.wf f v).mesh = d.mesh := rfl
@[simp] theorem Dev.wf_mem (d : Dev) (f : RF) (v : Nat) : (d.wf f v).mem = d.mem := rfl
@[simp] theorem Dev.wf_nvs (d : Dev) (f : RF) (v : Nat) : (d.wf f v).nvs = d.nvs := rfl
@[simp] theorem Dev.wf_cfg (d : Dev) (f : RF) (v : Nat) : (d.wf f v).cfg = d.cfg := rfl
@[simp] theorem Dev.wf_sup (d : Dev) (f : RF) (v : Nat) : (d.wf f v).sup = d.sup := rfl
@[simp] theorem Dev.wf_gaf (d : Dev) (f : RF) (v : Nat) : (d.wf f v).gaf = d.gaf := rfl

/-! ## The log (R45, R46): it changes the ring, DLY_STAT and the drop counts, and nothing else -/

/-- The device but for the ring and the registers. -/
theorem Dev.storeRec_rest (d : Dev) (b c : Nat) (s : Sev) (l : List Nat) :
    ∃ r m, d.storeRec b c s l = { d with regs := r, hub := { d.hub with dailies := m } } := by
  unfold Dev.storeRec
  split
  · exact ⟨d.regs, d.hub.dailies, rfl⟩
  · split
    · split
      · exact ⟨_, d.hub.dailies, rfl⟩
      · exact ⟨_, d.hub.dailies, rfl⟩
    · exact ⟨_, _, rfl⟩

theorem Dev.log_rest (d : Dev) (b c : Nat) (s : Sev) (l : List Nat) :
    ∃ r w m, d.log b c s l = { d with regs := r, sets := w, hub := { d.hub with dailies := m } } := by
  obtain ⟨r, m, h⟩ := d.storeRec_rest b c s l
  unfold Dev.log
  generalize d.storeRec b c s l = e at h
  dsimp only
  split
  · obtain ⟨r', m', h'⟩ := (e.on DLY_STAT_WM).storeRec_rest 0x0D 0x01 .note
      [e.rf DLY_STAT_COUNT, e.rf DLY_STAT_COUNT / 256, 0, 0, 0]
    refine ⟨r', (e.on DLY_STAT_WM).sets, m', ?_⟩
    rw [h', h]
    rfl
  · exact ⟨r, d.sets, m, h⟩

theorem Dev.rd_inc_ne (d : Dev) (f : RF) (a : Nat) (h : a ≠ f.addr) : (d.inc f).rd a = d.rd a :=
  Dev.rd_wf_ne d f _ a h

theorem Dev.storeRec_rd (d : Dev) (b c : Nat) (s : Sev) (l : List Nat) (a : Nat) (h1 : a ≠ DLY_STAT) (h2 : a ≠ DLY_DROP) :
    (d.storeRec b c s l).rd a = d.rd a := by
  have low : a ≠ DLY_DROP_LOW.addr := h2
  have high : a ≠ DLY_DROP_HIGH.addr := h2
  have head : a ≠ DLY_STAT_HEAD.addr := h1
  have count : a ≠ DLY_STAT_COUNT.addr := h1
  unfold Dev.storeRec
  split
  · rfl
  · split
    · split
      · exact Dev.rd_inc_ne d DLY_DROP_LOW a low
      · exact Dev.rd_inc_ne d DLY_DROP_HIGH a high
    · rw [Dev.rd_wf_ne _ _ _ _ count, Dev.rd_wf_ne _ _ _ _ head]
      exact Dev.rd_congr (by rfl) a

/-- The log leaves every register but DLY_STAT and DLY_DROP as it was. -/
theorem Dev.log_rd (d : Dev) (b c : Nat) (s : Sev) (l : List Nat) (a : Nat) (h1 : a ≠ DLY_STAT) (h2 : a ≠ DLY_DROP) :
    (d.log b c s l).rd a = d.rd a := by
  unfold Dev.log
  dsimp only
  split
  · rw [Dev.storeRec_rd _ _ _ _ _ _ h1 h2, Dev.rd_on, Dev.rd_wf_ne _ _ _ _ h1, Dev.storeRec_rd _ _ _ _ _ _ h1 h2]
  · exact Dev.storeRec_rd _ _ _ _ _ _ h1 h2

theorem Dev.log_rf (d : Dev) (b c : Nat) (s : Sev) (l : List Nat) (f : RF) (h1 : f.addr ≠ DLY_STAT) (h2 : f.addr ≠ DLY_DROP) :
    (d.log b c s l).rf f = d.rf f := by
  simp [Dev.rf, Dev.log_rd d b c s l f.addr h1 h2]

/-! ## What the log leaves of the device -/

@[simp] theorem Dev.log_slate (d : Dev) (b c : Nat) (v : Sev) (l : List Nat) : (d.log b c v l).slate = d.slate := by
  obtain ⟨r, w, m, h⟩ := d.log_rest b c v l
  rw [h]
@[simp] theorem Dev.log_hold (d : Dev) (b c : Nat) (v : Sev) (l : List Nat) : (d.log b c v l).hold = d.hold := by
  obtain ⟨r, w, m, h⟩ := d.log_rest b c v l
  rw [h]
@[simp] theorem Dev.log_resp (d : Dev) (b c : Nat) (v : Sev) (l : List Nat) : (d.log b c v l).resp = d.resp := by
  obtain ⟨r, w, m, h⟩ := d.log_rest b c v l
  rw [h]
@[simp] theorem Dev.log_free (d : Dev) (b c : Nat) (v : Sev) (l : List Nat) : (d.log b c v l).free = d.free := by
  obtain ⟨r, w, m, h⟩ := d.log_rest b c v l
  rw [h]
@[simp] theorem Dev.log_marks (d : Dev) (b c : Nat) (v : Sev) (l : List Nat) : (d.log b c v l).marks = d.marks := by
  obtain ⟨r, w, m, h⟩ := d.log_rest b c v l
  rw [h]
@[simp] theorem Dev.log_outs (d : Dev) (b c : Nat) (v : Sev) (l : List Nat) : (d.log b c v l).outs = d.outs := by
  obtain ⟨r, w, m, h⟩ := d.log_rest b c v l
  rw [h]
@[simp] theorem Dev.log_cty (d : Dev) (b c : Nat) (v : Sev) (l : List Nat) : (d.log b c v l).cty = d.cty := by
  obtain ⟨r, w, m, h⟩ := d.log_rest b c v l
  rw [h]
@[simp] theorem Dev.log_fab (d : Dev) (b c : Nat) (v : Sev) (l : List Nat) : (d.log b c v l).fab = d.fab := by
  obtain ⟨r, w, m, h⟩ := d.log_rest b c v l
  rw [h]
@[simp] theorem Dev.log_se (d : Dev) (b c : Nat) (v : Sev) (l : List Nat) : (d.log b c v l).se = d.se := by
  obtain ⟨r, w, m, h⟩ := d.log_rest b c v l
  rw [h]
@[simp] theorem Dev.log_csh (d : Dev) (b c : Nat) (v : Sev) (l : List Nat) : (d.log b c v l).csh = d.csh := by
  obtain ⟨r, w, m, h⟩ := d.log_rest b c v l
  rw [h]
@[simp] theorem Dev.log_lanes (d : Dev) (b c : Nat) (v : Sev) (l : List Nat) : (d.log b c v l).lanes = d.lanes := by
  obtain ⟨r, w, m, h⟩ := d.log_rest b c v l
  rw [h]
@[simp] theorem Dev.log_eth (d : Dev) (b c : Nat) (v : Sev) (l : List Nat) : (d.log b c v l).eth = d.eth := by
  obtain ⟨r, w, m, h⟩ := d.log_rest b c v l
  rw [h]
@[simp] theorem Dev.log_mesh (d : Dev) (b c : Nat) (v : Sev) (l : List Nat) : (d.log b c v l).mesh = d.mesh := by
  obtain ⟨r, w, m, h⟩ := d.log_rest b c v l
  rw [h]
@[simp] theorem Dev.log_mem (d : Dev) (b c : Nat) (v : Sev) (l : List Nat) : (d.log b c v l).mem = d.mem := by
  obtain ⟨r, w, m, h⟩ := d.log_rest b c v l
  rw [h]
@[simp] theorem Dev.log_nvs (d : Dev) (b c : Nat) (v : Sev) (l : List Nat) : (d.log b c v l).nvs = d.nvs := by
  obtain ⟨r, w, m, h⟩ := d.log_rest b c v l
  rw [h]
@[simp] theorem Dev.log_cfg (d : Dev) (b c : Nat) (v : Sev) (l : List Nat) : (d.log b c v l).cfg = d.cfg := by
  obtain ⟨r, w, m, h⟩ := d.log_rest b c v l
  rw [h]
@[simp] theorem Dev.log_sup (d : Dev) (b c : Nat) (v : Sev) (l : List Nat) : (d.log b c v l).sup = d.sup := by
  obtain ⟨r, w, m, h⟩ := d.log_rest b c v l
  rw [h]
@[simp] theorem Dev.log_gaf (d : Dev) (b c : Nat) (v : Sev) (l : List Nat) : (d.log b c v l).gaf = d.gaf := by
  obtain ⟨r, w, m, h⟩ := d.log_rest b c v l
  rw [h]
@[simp] theorem Dev.log_hub_cuts (d : Dev) (b c : Nat) (v : Sev) (l : List Nat) : (d.log b c v l).hub.cuts = d.hub.cuts := by
  obtain ⟨r, w, m, h⟩ := d.log_rest b c v l
  rw [h]
@[simp] theorem Dev.log_hub_siteAck (d : Dev) (b c : Nat) (v : Sev) (l : List Nat) : (d.log b c v l).hub.siteAck = d.hub.siteAck := by
  obtain ⟨r, w, m, h⟩ := d.log_rest b c v l
  rw [h]
@[simp] theorem Dev.log_hub_outstanding (d : Dev) (b c : Nat) (v : Sev) (l : List Nat) : (d.log b c v l).hub.outstanding = d.hub.outstanding := by
  obtain ⟨r, w, m, h⟩ := d.log_rest b c v l
  rw [h]
@[simp] theorem Dev.log_hub_agentCopy (d : Dev) (b c : Nat) (v : Sev) (l : List Nat) : (d.log b c v l).hub.agentCopy = d.hub.agentCopy := by
  obtain ⟨r, w, m, h⟩ := d.log_rest b c v l
  rw [h]
@[simp] theorem Dev.log_hub_userWin (d : Dev) (b c : Nat) (v : Sev) (l : List Nat) : (d.log b c v l).hub.userWin = d.hub.userWin := by
  obtain ⟨r, w, m, h⟩ := d.log_rest b c v l
  rw [h]
@[simp] theorem Dev.log_hub_timeWire (d : Dev) (b c : Nat) (v : Sev) (l : List Nat) : (d.log b c v l).hub.timeWire = d.hub.timeWire := by
  obtain ⟨r, w, m, h⟩ := d.log_rest b c v l
  rw [h]
@[simp] theorem Dev.log_hub_pulses (d : Dev) (b c : Nat) (v : Sev) (l : List Nat) : (d.log b c v l).hub.pulses = d.hub.pulses := by
  obtain ⟨r, w, m, h⟩ := d.log_rest b c v l
  rw [h]

/-! ## The gate of the control bus -/

/-- An access to a listed register that nothing bars reaches its block. -/
theorem Dev.access_open (d : Dev) (a : Nat) (f : Dev → Dev) (h : (rowAt a).isSome = true) (hb : d.barred a = none) :
    d.access a f = f d.ok := by
  unfold Dev.access
  cases hr : rowAt a with
  | none => simp [hr] at h
  | some r => simp [hb]

/-- An address where no register is listed is answered with an error (R23). -/
theorem Dev.access_unlisted (d : Dev) (a : Nat) (f : Dev → Dev) (h : rowAt a = none) : d.access a f = d.err := by
  simp [Dev.access, h]

/-! ## Answers -/

theorem State.apply_next (s : State) (f : Dev → Dev) : s.apply f = .next { s with dev := f s.dev } := rfl

/-- A command on a device that runs. -/
theorem State.act_live (s : State) (f : Dev → Dev) (h : s.dev.live = true) : s.act f = .next { s with dev := f s.dev } := by
  simp [State.act, State.apply, h]

/-- A device that does not run ignores a command. -/
theorem State.act_dead (s : State) (f : Dev → Dev) (h : s.dev.live = false) : s.act f = .next s := by
  simp [State.act, State.apply, h]

theorem State.busAct_live (s : State) (f : Dev → Dev) (h : s.dev.live = true) : s.busAct f = .next { s with dev := f s.dev } := by
  simp [State.busAct, State.apply, h]

theorem State.busAct_dead (s : State) (f : Dev → Dev) (h : s.dev.live = false) : s.busAct f = .next { s with dev := s.dev.err } := by
  simp [State.busAct, State.apply, h]

theorem State.timed_held (s : State) (f : Dev → Dev) (h : s.dev.slate = slateMax) : s.timed f = .fault .slateHeld := by
  simp [State.timed, h]

theorem State.timed_runs (s : State) (f : Dev → Dev) (h : s.dev.slate ≠ slateMax) : s.timed f = s.act f := by
  simp [State.timed, h]

theorem State.busTimed_held (s : State) (f : Dev → Dev) (h : s.dev.slate = slateMax) : s.busTimed f = .fault .slateHeld := by
  simp [State.busTimed, h]

theorem State.busTimed_runs (s : State) (f : Dev → Dev) (h : s.dev.slate ≠ slateMax) : s.busTimed f = s.busAct f := by
  simp [State.busTimed, h]

/-- A write that reaches its register. -/
theorem State.busWrite_open (s : State) (a : Nat) (f : Dev → Dev) (hl : s.dev.live = true) (h : (rowAt a).isSome = true)
    (hb : s.dev.barred a = none) : s.busWrite a f = .next { s with dev := f s.dev.ok } := by
  rw [State.busWrite, State.busAct_live _ _ hl, Dev.access_open _ _ _ h hb]

theorem State.timedWrite_open (s : State) (a : Nat) (f : Dev → Dev) (hl : s.dev.live = true) (ht : s.dev.slate ≠ slateMax)
    (h : (rowAt a).isSome = true) (hb : s.dev.barred a = none) : s.timedWrite a f = .next { s with dev := f s.dev.ok } := by
  rw [State.timedWrite, State.busTimed_runs _ _ ht, State.busAct_live _ _ hl, Dev.access_open _ _ _ h hb]

end Sys2Proof.Machine
end

