-- ==== Sys2Proof/Laws/Does.lean ====
section
/-! SUPPORT. From what a command's meaning is to what it does: one lemma for each way a command answers, and what the log
leaves behind. -/
namespace Sys2Proof.Safety
open Sys2Proof.Machine Sys2Proof.Machine.Reg

theorem Does.of_apply {i : Instr} {s : State} {f : Dev → Dev} {P : Dev → Prop} (h : exec i s = s.apply f) (hp : P (f s.dev)) :
    Does i s P := ⟨_, h, rfl, hp⟩

theorem Does.of_act {i : Instr} {s : State} {f : Dev → Dev} {P : Dev → Prop} (h : exec i s = s.act f)
    (hl : s.dev.live = true) (hp : P (f s.dev)) : Does i s P :=
  ⟨_, h.trans (State.act_live s f hl), rfl, hp⟩

theorem Does.of_bus {i : Instr} {s : State} {f : Dev → Dev} {P : Dev → Prop} (h : exec i s = s.busAct f)
    (hl : s.dev.live = true) (hp : P (f s.dev)) : Does i s P :=
  ⟨_, h.trans (State.busAct_live s f hl), rfl, hp⟩

theorem Does.of_timed {i : Instr} {s : State} {f : Dev → Dev} {P : Dev → Prop} (h : exec i s = s.timed f)
    (hl : s.dev.live = true) (ht : Counting s.dev) (hp : P (f s.dev)) : Does i s P :=
  ⟨_, h.trans ((State.timed_runs s f ht).trans (State.act_live s f hl)), rfl, hp⟩

theorem Does.of_busTimed {i : Instr} {s : State} {f : Dev → Dev} {P : Dev → Prop} (h : exec i s = s.busTimed f)
    (hl : s.dev.live = true) (ht : Counting s.dev) (hp : P (f s.dev)) : Does i s P :=
  ⟨_, h.trans ((State.busTimed_runs s f ht).trans (State.busAct_live s f hl)), rfl, hp⟩

theorem Does.of_write {i : Instr} {s : State} {a : Nat} {f : Dev → Dev} {P : Dev → Prop} (h : exec i s = s.busWrite a f)
    (hr : Reaches s.dev a) (hp : P (f s.dev.ok)) : Does i s P :=
  ⟨_, h.trans (State.busWrite_open s a f hr.1 hr.2.1 hr.2.2), rfl, hp⟩

theorem Does.of_timedWrite {i : Instr} {s : State} {a : Nat} {f : Dev → Dev} {P : Dev → Prop} (h : exec i s = s.timedWrite a f)
    (hr : Reaches s.dev a) (ht : Counting s.dev) (hp : P (f s.dev.ok)) : Does i s P :=
  ⟨_, h.trans (State.timedWrite_open s a f hr.1 ht hr.2.1 hr.2.2), rfl, hp⟩

theorem Does.mono {i : Instr} {s : State} {P Q : Dev → Prop} (h : Does i s P) (hpq : ∀ e, P e → Q e) : Does i s Q := by
  obtain ⟨t, h1, h2, h3⟩ := h
  exact ⟨t, h1, h2, hpq _ h3⟩

/-! ## What the log leaves -/

/-- A record's place is at most as far behind the next place as there are records not yet freed. -/
theorem recPlace_back (ring : SMap (BitVec 128)) (r : BitVec 128) : ∀ n p, n < 2048 → p < 2048 →
    ∃ j, j ≤ n ∧ recPlace ring r n p = (p + 2048 - j) % 2048
  | 0, p, _, hp => ⟨0, Nat.le_refl 0, by simp only [recPlace]; omega⟩
  | n + 1, p, hn, hp => by
    unfold recPlace
    split
    · obtain ⟨j, hj, he⟩ := recPlace_back ring r n ((p + 2047) % 2048) (by omega) (by omega)
      exact ⟨j + 1, by omega, by rw [he]; omega⟩
    · exact ⟨0, by omega, by omega⟩

theorem lookup_le (l : List (Nat × Nat)) (c : Nat) (h : ∀ x ∈ l, x.2 ≤ 8) : (l.lookup c).getD 8 ≤ 8 := by
  induction l with
  | nil => simp
  | cons x l ih =>
    unfold List.lookup
    split
    · exact h x (by simp)
    · exact ih (fun y hy => h y (by simp [hy]))

/-- No class comes after that of a data event. -/
theorem codeClass_le (b c : Nat) (det : Nat → Nat) : codeClass b c det ≤ 8 := by
  refine lookup_le _ _ ?_
  unfold codeClasses
  split <;> simp only [List.map, List.cons_append, List.nil_append, List.forall_mem_cons, List.not_mem_nil, false_implies, implies_true, and_true]
  all_goals try decide
  all_goals (repeat' apply And.intro)
  all_goals first | omega | (split <;> decide)

theorem byteOf (x : Nat) (k : Nat) (h : k ≤ 120) : ((BitVec.ofNat 128 x).extractLsb' k 8).toNat = x / 2 ^ k % 2 ^ 8 := by
  simp only [BitVec.extractLsb'_toNat, BitVec.toNat_ofNat, Nat.shiftRight_eq_div_pow]
  have : 2 ^ 128 = 2 ^ k * 2 ^ (128 - k) := by rw [← Nat.pow_add]; congr 1; omega
  rw [this, Nat.mod_mul_right_div_self]
  exact Nat.mod_mod_of_dvd _ (Nat.pow_dvd_pow 2 (by omega))

theorem record_blk (t b c s : Nat) (l : List Nat) : ((record t b c s l).extractLsb' 64 8).toNat = b % 256 := by
  unfold record
  rw [byteOf _ _ (by decide)]
  have ht : t % 2 ^ 64 < 2 ^ 64 := Nat.mod_lt _ (by decide)
  dsimp only
  generalize t % 2 ^ 64 = t' at *
  generalize (l.getD 0 0 % 256) = d0, (l.getD 1 0 % 256) = d1, (l.getD 2 0 % 256) = d2, (l.getD 3 0 % 256) = d3,
    (l.getD 4 0 % 256) = d4, c % 256 = c', s % 256 = s'
  have e : t' + b % 256 * 2 ^ 64 + c' * 2 ^ 72 + s' * 2 ^ 80 + d0 * 2 ^ 88 + d1 * 2 ^ 96 + d2 * 2 ^ 104 + d3 * 2 ^ 112
      + d4 * 2 ^ 120 = t' + 2 ^ 64 * (b % 256 + 2 ^ 8 * (c' + 2 ^ 8 * s' + 2 ^ 16 * d0 + 2 ^ 24 * d1 + 2 ^ 32 * d2 + 2 ^ 40 * d3 + 2 ^ 48 * d4)) := by
    ring
  rw [e, Nat.add_mul_div_left _ _ (by decide), Nat.div_eq_of_lt ht, Nat.zero_add, Nat.add_mul_mod_self_left]
  exact Nat.mod_mod _ _

theorem record_code (t b c s : Nat) (l : List Nat) : ((record t b c s l).extractLsb' 72 8).toNat = c % 256 := by
  unfold record
  rw [byteOf _ _ (by decide)]
  have ht : t % 2 ^ 64 < 2 ^ 64 := Nat.mod_lt _ (by decide)
  have hb : b % 256 ≤ 2 ^ 8 - 1 := by omega
  have hs : t % 2 ^ 64 + 2 ^ 64 * (b % 256) < 2 ^ 72 := by
    have := Nat.mul_le_mul_left (2 ^ 64) hb
    omega
  dsimp only
  generalize t % 2 ^ 64 = t' at *
  generalize b % 256 = b' at *
  generalize (l.getD 0 0 % 256) = d0, (l.getD 1 0 % 256) = d1, (l.getD 2 0 % 256) = d2, (l.getD 3 0 % 256) = d3,
    (l.getD 4 0 % 256) = d4, s % 256 = s'
  have e : t' + b' * 2 ^ 64 + c % 256 * 2 ^ 72 + s' * 2 ^ 80 + d0 * 2 ^ 88 + d1 * 2 ^ 96 + d2 * 2 ^ 104 + d3 * 2 ^ 112
      + d4 * 2 ^ 120 = (t' + 2 ^ 64 * b') + 2 ^ 72 * (c % 256 + 2 ^ 8 * (s' + 2 ^ 8 * d0 + 2 ^ 16 * d1 + 2 ^ 24 * d2 + 2 ^ 32 * d3 + 2 ^ 40 * d4)) := by
    ring
  rw [e, Nat.add_mul_div_left _ _ (by decide), Nat.div_eq_of_lt hs, Nat.zero_add, Nat.add_mul_mod_self_left]
  exact Nat.mod_mod _ _

/-- The watermark record is a data event: it goes behind every record. -/
theorem recLater_wm (x : BitVec 128) (t s : Nat) (l : List Nat) : recLater x (record t 0x0D 0x01 s l) = false := by
  have h : recClass (record t 0x0D 0x01 s l) = 8 := by
    unfold recClass
    rw [record_blk, record_code]
    rfl
  have := codeClass_le (x.extractLsb' 64 8).toNat (x.extractLsb' 72 8).toNat (fun i => (x.extractLsb' (88 + 8 * i) 8).toNat)
  unfold recLater
  rw [h]
  simp only [Bool.and_eq_false_imp, decide_eq_false_iff_not]
  intro _
  unfold recClass
  omega

theorem recPlace_wm (ring : SMap (BitVec 128)) (t s : Nat) (l : List Nat) (n p : Nat) :
    recPlace ring (record t 0x0D 0x01 s l) n p = p := by
  cases n with
  | zero => rfl
  | succ n => simp [recPlace, recLater_wm]

theorem recShift_wm (ring : SMap (BitVec 128)) (t s : Nat) (l : List Nat) (n p : Nat) :
    recShift ring (record t 0x0D 0x01 s l) n p = ring := by
  cases n with
  | zero => rfl
  | succ n => simp [recShift, recLater_wm]

/-- A record that is stored stands at its place, and HEAD moves on by one. -/
theorem storeRec_stored (d : Dev) (b c : Nat) (v : Sev) (l : List Nat) (h1 : min (d.rf DLY_CTL_MIN_SEV) 4 ≤ v.code)
    (h2 : d.rf DLY_STAT_COUNT < 2048) :
    SMap.at 0 (d.storeRec b c v l).hub.dailies (d.recPlace (record d.slate b c v.code l)) = record d.slate b c v.code l ∧
    (d.storeRec b c v l).rf DLY_STAT_HEAD = (d.rf DLY_STAT_HEAD + 1) % 2048 := by
  have h3 : ¬ v.code < min (d.rf DLY_CTL_MIN_SEV) 4 := by omega
  have h4 : ¬ d.rf DLY_STAT_COUNT ≥ 2048 := by omega
  unfold Dev.storeRec
  rw [if_neg h3, if_neg h4]
  constructor
  · exact SMap.at_set_same 0 _ _ _
  · rw [Dev.rf_wf_bits _ _ _ _ (by decide), Dev.rf_wf_same _ _ _ (by decide)]
    exact Nat.mod_mod _ _

/-- The watermark record leaves every record that does not stand at HEAD, and is not stored in a full ring. -/
theorem storeRec_wm (d : Dev) (v : Sev) (l : List Nat) (k : Nat) (h : d.rf DLY_STAT_COUNT < 2048 → k ≠ d.rf DLY_STAT_HEAD) :
    SMap.at 0 (d.storeRec 0x0D 0x01 v l).hub.dailies k = SMap.at 0 d.hub.dailies k := by
  unfold Dev.storeRec
  split
  · rfl
  · split
    · split <;> rfl
    · rename_i hc
      show SMap.at 0 (SMap.set 0 (recShift d.hub.dailies _ _ _) (recPlace d.hub.dailies _ _ _) _) k = _
      rw [recPlace_wm, recShift_wm]
      exact SMap.at_set_ne 0 d.hub.dailies _ _ _ (h (by omega))

/-- COUNT rises by one where the record is stored. -/
theorem storeRec_count (d : Dev) (b c : Nat) (v : Sev) (l : List Nat) : (d.storeRec b c v l).rf DLY_STAT_COUNT ≤ d.rf DLY_STAT_COUNT ∨
    (d.storeRec b c v l).rf DLY_STAT_COUNT = d.rf DLY_STAT_COUNT + 1 := by
  unfold Dev.storeRec
  split
  · exact .inl (Nat.le_refl _)
  · split
    · split
      · exact .inl (Nat.le_of_eq (by unfold Dev.rf; rw [Dev.rd_inc_ne _ _ _ (by decide)]))
      · exact .inl (Nat.le_of_eq (by unfold Dev.rf; rw [Dev.rd_inc_ne _ _ _ (by decide)]))
    · rename_i hc
      have hw : 2 ^ DLY_STAT_COUNT.w = 4096 := by decide
      have hlt : d.rf DLY_STAT_COUNT + 1 < 2 ^ DLY_STAT_COUNT.w := by omega
      have hd : ∀ m, ({ d with hub := { d.hub with dailies := m } } : Dev).rf DLY_STAT_COUNT = d.rf DLY_STAT_COUNT := fun _ => rfl
      refine .inr ?_
      dsimp only
      rw [Dev.rf_wf_same _ _ _ (by decide), hd, Nat.mod_eq_of_lt hlt]

theorem Logs.of_log (d : Dev) (b c : Nat) (v : Sev) (l : List Nat) : Logs d (d.log b c v l) b c v l := by
  intro h1 h2
  obtain ⟨h3, h4⟩ := storeRec_stored d b c v l h1 h2
  have hlt : d.rf DLY_STAT_HEAD < 2 ^ 11 := Dev.rf_lt d DLY_STAT_HEAD
  obtain ⟨j, hj, he⟩ := recPlace_back d.hub.dailies (record d.slate b c v.code l) (d.rf DLY_STAT_COUNT) (d.rf DLY_STAT_HEAD) h2 hlt
  have h5 : (d.storeRec b c v l).rf DLY_STAT_COUNT ≤ d.rf DLY_STAT_COUNT ∨
      (d.storeRec b c v l).rf DLY_STAT_COUNT = d.rf DLY_STAT_COUNT + 1 := storeRec_count d b c v l
  unfold Dev.log
  dsimp only
  split
  · rename_i hw
    refine Eq.trans (storeRec_wm _ _ _ _ ?_) h3
    rw [Dev.rf_on, Dev.rf_on, Dev.rf_wf_bits _ _ _ _ (by decide), Dev.rf_wf_bits _ _ _ _ (by decide), h4]
    intro hc
    show recPlace _ _ _ _ ≠ _
    rw [he]
    omega
  · exact h3

/-- A record logged after other registers were written, and before other parts changed. -/
theorem Logs.of_log' {d e f : Dev} {b c : Nat} {v : Sev} {l : List Nat} (hs : e.slate = d.slate)
    (h1 : e.rd DLY_CTL = d.rd DLY_CTL) (h2 : e.rd DLY_STAT = d.rd DLY_STAT) (h3 : e.hub.dailies = d.hub.dailies)
    (hf : f.hub.dailies = (e.log b c v l).hub.dailies) : Logs d f b c v l := by
  have g1 : e.rf DLY_CTL_MIN_SEV = d.rf DLY_CTL_MIN_SEV := by unfold Dev.rf; exact congrArg _ h1
  have g2 : e.rf DLY_STAT_COUNT = d.rf DLY_STAT_COUNT := by unfold Dev.rf; exact congrArg _ h2
  have g3 : e.rf DLY_STAT_HEAD = d.rf DLY_STAT_HEAD := by unfold Dev.rf; exact congrArg _ h2
  have := Logs.of_log e b c v l
  unfold Logs Dev.recPlace at *
  rw [g1, g2, g3, h3, hs] at this
  rw [hf]
  exact this

end Sys2Proof.Safety
end

