-- ==== Sys2Proof/Tests/Slice0.lean ====
section
/-! SUPPORT. Tests on small states: each states the hypotheses of a clause of the obligations and its effect at one instance. -/
namespace Sys2Proof.Tests
open Sys2Proof Sys2Proof.Machine Sys2Proof.Machine.Reg Sys2Proof.Safety

-- One test at a time: each is evaluated by the kernel, and many at once cost more memory than time saved.
set_option Elab.async false

/-! ## Helpers -/

/-- Every domain ON and out of isolation, and every clock enabled. -/
def onRegs : SMap Word :=
  [(0x02010010, 0x1FFF), (0x02010020, 0xFFFFFFFF), (0x02010024, 0xFFFFFFFF), (0x02010028, 0xFFFFFFFF), (0x0201002C, 0xFFFFFFFF),
   (0x02010030, 0xFFFFFFFF), (0x02010034, 0xFFFFFFFF), (0x02010038, 0xFFFFFFFF), (0x0201003C, 0xFFFFFFFF)] ++
  (List.range 30).map (fun p => (0x02020000 + 4 * p, 0x200)) ++ [(0x02700004, 0x10001)]

/-- A device that runs, at tick 100,000. -/
def on : Dev := { Dev.reset with regs := onRegs, slate := 100000, gaf := Gaf.reset }

def st (d : Dev) : State := { dev := d, pending := [] }

/-- The command completes on the device with the queue as it was, and what follows has `p`. -/
def after (i : Instr) (d : Dev) (p : Dev → Bool) : Bool :=
  match exec i (st d) with
  | .next t => t.pending.isEmpty && p t.dev
  | _ => false

/-- The access reaches the register at `a`. -/
def reach (d : Dev) (a : Nat) : Bool := d.live && (rowAt a).isSome && (d.barred a).isNone

/-- The record stands where the ring of `d` took it. -/
def logged (d e : Dev) (blk code : Nat) (sev : Sev) (det : List Nat) : Bool :=
  min (d.rf DLY_CTL_MIN_SEV) 4 ≤ sev.code && d.rf DLY_STAT_COUNT < 2048 &&
  SMap.at 0 e.hub.dailies (d.recPlace (record d.slate blk code sev.code det)) == record d.slate blk code sev.code det

/-- Write fields one after the other. -/
def wfs (d : Dev) (l : List (RF × Nat)) : Dev := l.foldl (fun d x => d.wf x.1 x.2) d

/-- Region 0 holds host tile (57, 0) of both dies' column: here it lies on die 0, region 1 on die 1, both out of isolation. -/
def sited (d : Dev) : Dev := wfs d [(SPL_REGr_DEF_VALID 0, 1), (SPL_REGr_DEF_X1 0, 119), (SPL_REGr_DEF_Y1 0, 63), (SPL_REGr_STAT_ISOLATED 0, 0),
  (SPL_REGr_DEF_VALID 1, 1), (SPL_REGr_DEF_DIE 1, 1), (SPL_REGr_DEF_X1 1, 119), (SPL_REGr_DEF_Y1 1, 63), (SPL_REGr_STAT_ISOLATED 1, 0)]

/-- The caches write nothing back. -/
def noBack : CacheBack := { sectors := [], nodes := [] }

/-! ## The queue -/

theorem test_step_front : step { dev := on, pending := [.cutPrepare, .todStep] } = exec .cutPrepare { dev := on, pending := [.todStep] } := rfl
theorem test_idle : step (st on) = .next (st on) := rfl
theorem test_counting : on.slate ≠ slateMax ∧ on.live = true := by decide +kernel
theorem test_held : (match exec .cutPrepare (st { on with slate := slateMax }) with | .fault .slateHeld => true | _ => false) = true := by decide +kernel

/-! ## Well-formedness: an ill-formed term for each check -/

theorem test_wf_items : wellFormed (.hubCommand ⟨.config, 64⟩) = false ∧ wellFormed (.commandAck ⟨.power, 30⟩) = false ∧
    wellFormed (.agentReport ⟨.halt, 64⟩ (some 0)) = false ∧ wellFormed (.bridgeRequestTimeout 0 .control (.item ⟨.halt, 65⟩)) = false ∧
    wellFormed (.hubCommand ⟨.lane, 511⟩) = true := by decide
theorem test_wf_tap : wellFormed (.bypass 0x10) = false ∧ wellFormed (.bypass 0x11) = true ∧ wellFormed (.extest [true] []) = false ∧
    wellFormed (.samplePreload [] [true]) = false := by decide
theorem test_wf_lengths : wellFormed (.loadPortPacket 2 [(0, true)]) = false ∧
    wellFormed (.data 0 { typ := 12, vc := false, dst := 0, src := 0, seq := 0, resv := 0, len := 0, crcOk := true } 0 (List.replicate 257 0)) = false ∧
    wellFormed (.txBlock 0 none [67]) = false ∧ wellFormed (.twiControllerEnd (.acked (List.replicate 9 0))) = false := by decide +kernel
theorem test_wf_rails : wellFormed (.powerFailWarning 0 1000) = false ∧ wellFormed (.brownOut 10) = false ∧ wellFormed (.brownOut 9) = true := by decide

/-! ## No word spells a command -/

theorem test_no_words (n w : Nat) : decodeTableWord n w = none ∧ State.reset.withFetchWord n w = State.reset := ⟨rfl, rfl⟩

/-! ## Registers and the Dailies -/

def rowDlyCtl : Word := rowWrite ((rowAt DLY_CTL).getD { base := 0, dims := [], fields := [] }) 0 0x00050003
theorem test_byte_write : after (.registerWrite .supervisor (BitVec.ofNat 32 DLY_CTL) 3 .byte BusEnv.clean) on (fun e => e == on.err) = true ∧
    after (.holdingLowWordRead .host (BitVec.ofNat 32 DLY_CTL) .half) on (fun e => e == on.err) = true := by decide +kernel
theorem test_unaligned : after (.registerWrite .host 0x02700002 3 .word BusEnv.clean) on (fun e => e == on.err) = true ∧
    after (.holdingLowWordRead .host 0x02700002 .word) on (fun e => e == on.err) = true ∧
    after (.readClear .host 0x02700002 3 .word) on (fun e => e == on.err) = true := by decide +kernel
theorem test_plain_write : reach on DLY_CTL = true ∧ blockOf DLY_CTL = 0x0D ∧ addrPlace DLY_CTL = .reg ∧
    after (.registerWrite .supervisor (BitVec.ofNat 32 DLY_CTL) 0x00050003 .word BusEnv.clean) on
      (fun e => e.rd DLY_CTL == rowDlyCtl && e.resp == .done) = true := by decide +kernel
theorem test_unlisted : rowAt (regKey 0x02700F00) = none ∧ addrPlace 0x02700F00 = .reg ∧
    after (.registerWrite .supervisor 0x02700F00 1 .word BusEnv.clean) on (fun e => e == on.err) = true := by decide +kernel
theorem test_holding : reach on SLT_NOW_LO = true ∧ reach on SLT_NOW_HI = true ∧
    after (.holdingLowWordRead .supervisor (BitVec.ofNat 32 SLT_NOW_LO) .word) { on with slate := 2 ^ 32 * 7 + 9 }
      (fun e => e.resp == .data 9 && SMap.at 0 e.hold SLT_NOW_HI == 7) = true := by decide +kernel
theorem test_read_clear : reach on DLY_DROP = true ∧
    after (.readClear .supervisor (BitVec.ofNat 32 DLY_DROP) 1 .word) (wfs on [(DLY_DROP_LOW, 5), (DLY_DROP_HIGH, 6)])
      (fun e => e.rf DLY_DROP_LOW == 1 && e.rf DLY_DROP_HIGH == 0 && e.resp == .data 0x00060005) = true := by decide +kernel
def busHeld : Dev := { wfs on [(CKC_STAT_ON_RC, 0)] with hub := { on.hub with busWaits := [{ rq := .debug, addr := 0x02100010, write := true, since := 98000 }] } }
theorem test_bus_timeout : busHeld.busExpired 2000 = true ∧ busHeld.busExpired 1000 = false ∧ after (.controlBusTimeout .debug 0x02100010 true) busHeld
    (fun e => e.resp == .error && e.hub.busWaits.isEmpty && logged busHeld e 0x0D 0x04 .error [0x10, 0, 0x10, 2, 1]) = true ∧
    after (.controlBusTimeout .debug 0x02100010 false) busHeld (fun e => e == busHeld) = true := by decide +kernel
theorem test_prompt : on.accessLost .supervisor SLT_NOW_LO false = false ∧ on.dieBusy SLT_NOW_LO = false ∧
    (hubLocal SLT_NOW_LO && BusEnv.clean.silent) = false ∧ on.busWaiting .supervisor SLT_NOW_LO false = false := by decide +kernel
theorem test_set_wins : after (.registerWrite .supervisor (BitVec.ofNat 32 DLY_STAT) 0xFFFFFFFF .word BusEnv.clean) (on.on DLY_STAT_WM)
    (fun e => e.bit DLY_STAT_WM) = true := by decide +kernel
theorem test_dly_tail : reach on DLY_TAIL = true ∧
    after (.dlyTailWrite .supervisor 4) (wfs on [(DLY_STAT_COUNT, 9), (DLY_TAIL_TAIL, 1)])
      (fun e => e.rf DLY_TAIL_TAIL == 4 && e.rf DLY_STAT_COUNT == 6) = true ∧
    after (.dlyTailWrite .supervisor 5) (wfs on [(DLY_STAT_COUNT, 2048), (DLY_TAIL_TAIL, 5)])
      (fun e => e.rf DLY_STAT_COUNT == 0) = true ∧
    after (.dlyTailWrite .supervisor 4) (wfs on [(DLY_STAT_COUNT, 2), (DLY_TAIL_TAIL, 1)])
      (fun e => e.rf DLY_TAIL_TAIL == 1 && e.rf DLY_STAT_COUNT == 2) = true := by decide +kernel
theorem test_dly_order : (let d := (on.log 0x0B 9 .info [0]).log 0x01 3 .warn [1, 2, 3, 4, 5]
    let e := d.log 0x0B 7 .warn [0, 4]
    recLater (SMap.at 0 d.hub.dailies ((d.rf DLY_STAT_HEAD + 2047) % 2048)) (record d.slate 0x0B 7 2 [0, 4]) = true ∧ d.rf DLY_STAT_COUNT = on.rf DLY_STAT_COUNT + 2 ∧
    [0, 1, 2].map (fun k => (recClass (SMap.at 0 e.hub.dailies (on.rf DLY_STAT_HEAD + k)))) = [6, 7, 8]) := by decide +kernel

/-! ## Items, bridges and ports -/

def itemHalt : Item := { kind := .halt, num := 3 }
theorem test_hub_command : itemValid itemHalt = true ∧ after (.hubCommand itemHalt) on
    (fun e => e.outstandingOf itemHalt == some { sent := 100000, value := 0 }) = true := by decide +kernel
def withOut : Dev := { on with hub := { on.hub with outstanding := [(2051, some { sent := 99000, value := 1 })], told := [(2051, some 1)] } }
theorem test_command_ack : withOut.outstandingOf itemHalt = some { sent := 99000, value := 1 } ∧ after (.commandAck itemHalt) withOut
    (fun e => e.outstandingOf itemHalt == none && e.agentCopy itemHalt == 1) = true := by decide +kernel
theorem test_agent_mismatch : on.outstandingOf itemHalt = none ∧ on.told itemHalt = 0 ∧ on.hubRecord itemHalt = 0 ∧ after (.agentReport itemHalt (some 1)) on
    (fun e => e.bit (FAB_BRG_STAT_MISMATCH 0) && SMap.at false e.gaf.isoEngine 3 && logged on e 0x1A 4 .error [0, 4, 3, 0, 0]) = true := by decide +kernel
theorem test_agent_mismatch_lane : after (.agentReport { kind := .lane, num := 300 } (some 1)) on
    (fun e => e.bit (FAB_BRG_STAT_MISMATCH 1) && SMap.at false e.gaf.isoQuad 75) = true ∧
    after (.agentReport { kind := .power, num := 11 } (some 0)) (wfs on [(GAF_DOMd_STAT_STATE 11, 1)]) (fun e => SMap.at false e.gaf.isoDomain 11) = true := by decide +kernel
theorem test_agent_agrees : after (.agentReport itemHalt (some 0)) on (fun e => e.regs == on.regs) = true ∧
    after (.agentReport itemHalt none) on (fun e => e == on) = true := by decide +kernel
theorem test_bridge_config : after (.bridgeTransfer 1 .config 5 true .uncorrectable .loadFrame [7]) on (fun e => e.outs == [] && e.bit (FAB_BRG_STAT_UE 1) &&
      e.lostAt 1 .loadFrame == some 100000) = true ∧
    after (.bridgeTransfer 1 .control 5 true .corrected .loadFrame [7]) on (fun e => e.bit (FAB_BRG_STAT_CE 1) &&
      e.rf (FAB_BRG_STAT_CE_COUNT 1) == 1 && logged on e 0x1A 1 .info [1, 2, 0, 0, 0]) = true ∧
    on.channelEnd 1 5 = none ∧ after (.bridgeTransfer 1 .data 5 true .uncorrectable .loadFrame [7]) on (fun e => e == on) = true := by decide +kernel
def lostReq (t : Nat) : Dev := { on with hub := { on.hub with lost := [{ die := 0, chan := .control, load := .access .debug 0x10000000 false, since := t }] } }
theorem test_bridge_timeout : elapsed (withOut.slate - 99000) 2000 = true ∧ after (.bridgeRequestTimeout 0 .control (.item itemHalt)) withOut
    (fun e => e.outstandingOf itemHalt == none && e.bit (FAB_BRG_STAT_TIMEOUT 0)) = true ∧
    after (.bridgeRequestTimeout 0 .control (.access .debug 0x10000000 false)) (lostReq 99000)
      (fun e => e.resp == .error && e.hub.lost.isEmpty && logged on e 0x1A 3 .error [0, 2, 0, 0, 0]) = true ∧
    after (.bridgeRequestTimeout 0 .control (.access .debug 0x10000000 false)) (lostReq 99990) (fun e => e == lostReq 99990) = true := by decide +kernel
def wired (u l : Int) : Dev := { on with slate := 300000000, hub := { on.hub with timeWire := [(0, some { inUse := u, last := l, at_ := 9 })] } }
def wireTo (d : Dev) (ps : Int) (u : Int) : Bool :=
  after (.timeWireMeasurement 0 ps) d (fun e => SMap.at none e.hub.timeWire 0 == some { inUse := u, last := ps, at_ := d.slate })
theorem test_time_wire : wireTo (wired 100 100) 120 120 = true ∧ wireTo (wired 100 100) 121 105 = true ∧ wireTo (wired 100 100) 79 95 = true ∧
    wireTo on 79 79 = true ∧ after (.timeWireMeasurement 0 120) { wired 100 100 with slate := 245760008 }
      (fun e => e.hub.timeWire == (wired 100 100).hub.timeWire) = true := by decide +kernel
def portOn : Dev := sited on
theorem test_user_window : portOn.bit (SPL_REGr_STAT_ISOLATED 1) = false ∧ portOn.domainUp (portOn.regionDomain 1) = true ∧
    after (.userWindowAccess .host 1 8 false 0 none none) on (fun e => e == on.err) = true ∧
    after (.userWindowAccess .host 1 9 false 0 (some 1) none) portOn (fun e => e == portOn.err) = true ∧
    after (.userWindowAccess .host 1 8 false 0 (some 2) (some 5)) (wfs on [(SPL_REGr_STAT_ISOLATED 2, 1)]) (fun e => e.resp == .error) = true ∧
    after (.userWindowAccess .host 1 8 false 0 (some 1) (some 5)) portOn (fun e => e.resp == .data 5 && e.outs == [.userPort 1 8 false false 0]) = true ∧
    after (.userWindowAccess .host 1 8 true 3 (some 1) none) portOn (fun e => e.resp == .none &&
      SMap.at none e.hub.userWin 1 == some { rq := .host, ofs := 8, write := true, since := 100000 }) = true := by decide +kernel
def waiting : Dev := { on with hub := { on.hub with userWin := [(1, some { rq := .debug, ofs := 8, write := true, since := 90000 })] } }
theorem test_port_timeout : elapsed (waiting.slate - 90000) 10000 = true ∧ waiting.sup.dbg.busy = none ∧ after (.fabricPortTimeout 1) waiting
    (fun e => SMap.at none e.hub.userWin 1 == none && e.resp == .error && logged waiting e 0x1A 5 .error [1, 2, 0, 0, 129]) = true := by decide +kernel
def quiet : TickEnv := { ins := [], issues := [], takes := [] }
theorem test_tick : on.live = true ∧ (on.nextEdge quiet).slate = 100001 ∧ (on.nextEdge quiet).outs = [] ∧ on.tickBlocks.slate = 100000 := by decide +kernel

/-! ## Cuts -/

def slots (l : SMap CutSlot) : Dev := { on with hub := { on.hub with cuts := l } }
def free0 (t : Nat) : CutSlot := { CutSlot.free with tick := t }
theorem test_reserve : reach on SLT_CUT_TICK_LO = true ∧ reach on SLT_CUT_TICK_HI = true ∧ reach on SLT_CUT_CTL = true ∧
    after (.cutSlotReserve .supervisor .tickLo 9) on (fun e => e.cut 0 == { CutSlot.free with tick := 9, reserved := true }) = true ∧
    after (.cutSlotReserve .supervisor .tickHi 1) on (fun e => e.cut 0 == { CutSlot.free with tick := 2 ^ 32, reserved := true }) = true ∧
    after (.cutSlotReserve .supervisor .target 0x30000) on (fun e => e.cut 0 == { CutSlot.free with target := 3, reserved := true }) = true ∧
    after (.cutSlotReserve .supervisor .tickLo 9) (slots [(0, armedSlot 5 1 7)]) (fun e => e.cut 0 == armedSlot 5 1 7) = true := by decide +kernel
theorem test_user_arm : after (.userCutArm .supervisor 0xF0001) (slots [(0, free0 104096)])
      (fun e => e.cut 0 == { armedSlot 5 15 104096 with confirmed := true }) = true ∧
    after (.userCutArm .supervisor 0xF0001) (slots [(0, free0 104095)])
      (fun e => (e.cut 0).status == 6 && e.bit SLT_STAT_CUT_FAIL && logged on e 1 3 .warn [5, 15, 0, 6, 0]) = true ∧
    after (.userCutArm .supervisor 0x100001) (slots [(0, free0 104096)]) (fun e => (e.cut 0).status == 4) = true := by decide +kernel
theorem test_user_cancel : after (.cutCancel .supervisor 2) (slots [(0, armedSlot 5 1 100065)])
      (fun e => (e.cut 0).state == .failed && (e.cut 0).status == 5 && e.bit SLT_STAT_CUT_FAIL) = true ∧
    after (.cutCancel .supervisor 2) (slots [(0, { armedSlot 5 1 9 with state := .done })]) (fun e => (e.cut 0).state == .free) = true ∧
    after (.cutCancel .supervisor 2) (slots [(0, { armedSlot 5 1 100010 with state := .prepared })]) (fun e => (e.cut 0).state == .prepared) = true := by decide +kernel
theorem test_site : (sited on).cutSiteDead 0 = false ∧ (sited on).cutSiteDead 1 = false ∧ (sited on).pickSlot = some 0 := by decide +kernel
theorem test_site_arm : after (.cutSiteArm 0 3 104096) (sited on) (fun e => e.cut 0 == { armedSlot 5 3 104096 with confirmed := true } &&
      SMap.at none e.hub.siteAck 0 == some (100001, 0, 0)) = true ∧
    after (.cutSiteArm 0 3 104095) (sited on) (fun e => SMap.at none e.hub.siteAck 0 == some (100001, 6, 0)) = true := by decide +kernel
def acked : Dev := { sited on with hub := { on.hub with siteAck := [(0, some (100000, 0, 4))] } }
theorem test_site_ack : after (.cutSiteAck 0) acked (fun e => e.outs == [.cutAck 0 0 4] && SMap.at none e.hub.siteAck 0 == none) = true ∧
    after (.cutSiteArm 0 3 104096) acked (fun e => e == acked) = true := by decide +kernel
theorem test_confirm : (slots [(2, armedSlot 5 1 100064)]).cutStaged 2 = true ∧ after (.cutConfirm 2) (slots [(2, armedSlot 5 1 100064)])
    (fun e => (e.cut 2).confirmed) = true := by decide +kernel
theorem test_prepare : after .cutPrepare (slots [(2, { armedSlot 5 1 100064 with confirmed := true }), (3, armedSlot 5 1 100065)])
    (fun e => (e.cut 2).state == .prepared && (e.cut 3).state == .armed) = true ∧
    after .cutPrepare (slots [(2, armedSlot 5 1 100064)]) (fun e => (e.cut 2).state == .failed && (e.cut 2).status == 2 &&
      logged on e 1 2 .error [2, 5, 1, 0, 2]) = true := by decide +kernel
def cutDue : Dev := let d := sited on; { d with hub := { d.hub with cuts := [(2, { armedSlot 5 1 100000 with state := .prepared })] } }
theorem test_execute : cutDue.cutsDue = [2] ∧ cutDue.cutSiteDead 0 = false ∧ after .cutExecute cutDue
    (fun e => (e.cut 2).state == .done && e.bit SLT_STAT_CUT_DONE && e.outs == [.cutPulse 1 1, .cutPulse 0 1] &&
      logged on e 1 1 .info [2, 5, 1, 0, 0]) = true := by decide +kernel
def stepping (t : Nat) (k : Int) : Dev := { on with mesh := { on.mesh with step := some (t, k) } }
theorem test_slate_step : (stepping 100000 50).mstate ≠ mSTEPPING ∧ after .slateStep (stepping 100000 50)
    (fun e => e.slate == 100050 && e.mesh.step == none && e.bit SLT_STAT_STEPPED && e.bit MSH_EVT_STEP) = true ∧
    after .slateStep (stepping 100001 50) (fun e => e == stepping 100001 50) = true := by decide +kernel

/-! ## Continuity -/

theorem test_ref_refused : reach on (CTY_REFn_CFG 2) = true ∧ (wfs on [(CTY_REFn_CFG_EN 1, 1), (CTY_REFn_CFG_KIND 1, 1)]).sourceHeld 2 (sourceOf 1 0) = true ∧
    after (.refSlotEnable .supervisor 2 0x11) (wfs on [(CTY_REFn_CFG_EN 1, 1), (CTY_REFn_CFG_KIND 1, 1)])
      (fun e => !e.bit (CTY_REFn_CFG_EN 2) && logged on e 2 0xF .warn [2, 1, 0, 0, 0]) = true := by decide +kernel
theorem test_ref_enable : on.sourceHeld 2 (sourceOf 1 0) = false ∧ after (.refSlotEnable .supervisor 2 0x11) on
    (fun e => e.bit (CTY_REFn_CFG_EN 2) && e.rf (CTY_REFn_STAT_QSTATE 2) == 0) = true := by decide +kernel
def slotted (q : Nat) : Dev := wfs on [(CTY_REFn_CFG_EN 1, 1), (CTY_REFn_CFG_KIND 1, 3), (CTY_REFn_QUAL_FREQ_LIM 1, 4), (CTY_REFn_STAT_QSTATE 1, q)]
def offset (d : Dev) (x : Option Nat) : Dev := { d with cty := { d.cty with slots := [(1, { RefSlot.idle with offSince := x })] } }
theorem test_slot_los : (slotted 2).laneDown 0 = true ∧ after (.slotLos 1 .laneLock) (slotted 2) (fun e => e.rf (CTY_REFn_STAT_QSTATE 1) == 0 && e.bit CTY_STAT_LOS &&
      logged on e 2 3 .warn [1, 3, 1, 0, 0]) = true ∧
    after (.slotLos 1 .freqLimit) { offset (wfs (slotted 2) [(CTY_REFn_STAT_FOFS 1, 5)]) (some 4) with slate := 245760004 }
      (fun e => e.rf (CTY_REFn_STAT_QSTATE 1) == 0 && e.rf DLY_STAT_COUNT == 2) = true ∧
    after (.slotLos 1 .freqLimit) (slotted 2) (fun e => e == slotted 2) = true := by decide +kernel
def laneBack : Dev := wfs (slotted 0) [(LNQ_Li_PWR_RX_STATE 0, 2), (LNQ_Li_STAT_CDR_LOCK 0, 1), (LNQ_Li_CFG_MODE 0, 1)]
theorem test_slot_clear : (slotted 0).lossCleared 1 = false ∧ laneBack.lossCleared 1 = true ∧ after (.slotLossClear 1) laneBack (fun e => e.rf (CTY_REFn_STAT_QSTATE 1) == 1 && (e.slot 1).qualSince == 100000) = true := by decide +kernel
theorem test_qualified : after (.slotQualified 1) (wfs (slotted 1) [(CTY_REFn_QUAL_QUAL_TIME 1, 0)])
    (fun e => e.rf (CTY_REFn_STAT_QSTATE 1) == 2) = true := by decide +kernel
theorem test_wait_restore : after (.waitToRestore 0 0) { wfs (slotted 3) [(CTY_CTL_REVERTIVE, 1), (CTY_WTR_WTR, 0)] with slate := 245760 }
    (fun e => e.rf (CTY_REFn_STAT_QSTATE 1) == 2 && e.rf CTY_STAT_TIME_SLOT == 1) = true := by decide +kernel
theorem test_lo_failure : after (.loFailure 1001 1000000) (wfs on [(CKC_STAT_XTAL_OK, 1)]) (fun e => e.bit CTY_STAT_LO_FAIL && e.cty.loXtal &&
    logged on e 2 10 .error [0xE9, 3, 0, 0, 0]) = true ∧
    after (.loFailure 1001 999999) (wfs on [(CKC_STAT_XTAL_OK, 1)]) (fun e => !e.bit CTY_STAT_LO_FAIL) = true := by decide +kernel
def inp0 : LoopInput := { phase := none, temp := some 0, diffT := 0, diffF := 0, offset := 0, fofs := [] }
theorem test_loop_run : after (.loopRun inp0) on (fun e => e == on) = true ∧
    after (.loopRun inp0) { wfs on [(CTY_CTL_MODE, 1), (CTY_MDL_CTL_SENSOR, 1)] with slate := 245760 }
      (fun e => e.rf CTY_STAT_STATE == 0 && e.fcw == 0 && e.rf CTY_TE_BOUND_BOUND == 0xFFFFFFFF) = true ∧
    on.bit CTY_STAT_MDL_VALID = false ∧ on.fcw = 0 ∧ on.cty.fcwHist = [] ∧ on.cty.lastRun = none := by decide +kernel
def ptp : Dev := wfs on [(CTY_PTP_META_SLOT, 1), (CTY_PTP_META_FRAC, 3), (CTY_REFn_CFG_EN 1, 1), (CTY_REFn_CFG_KIND 1, 2)]
theorem test_ptp_offset : reach ptp CTY_PTP_OFS = true ∧ after (.ptpOffsetWrite .supervisor 2) ptp (fun e => (e.slot 1).offsets == [131075]) = true ∧
    after (.ptpOffsetWrite .supervisor 2) on (fun e => logged on e 2 11 .note [0, 0, 0, 0, 0]) = true := by decide +kernel
theorem test_ptp_sample : after (.ptpPhaseSample 1) { ptp with slate := 0, cty := { ptp.cty with slots := [(1, { RefSlot.idle with offsets := [5, 1, 9, 2] })] } }
    (fun e => (e.slot 1).sample == some 2 && (e.slot 1).offsets == []) = true := by decide +kernel
def ppsSlot : Dev := wfs on [(CTY_REFn_CFG_EN 1, 1), (CTY_REFn_CFG_KIND 1, 1)]
theorem test_pps_edge : after (.ppsInEdge 1 99 0) ppsSlot (fun e => (e.slot 1).sample == none && e.rf DLY_STAT_COUNT == 2) = true ∧
    after (.ppsInEdge 1 100 0) ppsSlot (fun e => (e.slot 1).sample.isSome && (e.slot 1).lastSec == some 0) = true ∧
    after (.ppsInEdge 1 100 0) { ppsSlot with cty := { ppsSlot.cty with mapped := true, slots := [(1, { RefSlot.idle with lastSec := some 0 })] } }
      (fun e => (e.slot 1).sample == none && e.rf DLY_STAT_COUNT == 2) = true ∧
    after (.ppsInEdge 1 100 0) { ppsSlot with cty := { ppsSlot.cty with mapped := true } } (fun e => (e.slot 1).sample == none) = true := by decide +kernel
theorem test_tod_set : reach on CTY_TOD_SET = true ∧ after (.todSetWrite .supervisor 0xFFFFFFFF) on (fun e => e.cty.todPend == -1) = true := by decide +kernel
theorem test_tod_step : after .todStep { on with slate := 0, cty := { on.cty with todPend := -1 } } (fun e =>
    e.rd CTY_MAP_SEC_LO == 0xFFFFFFFF && e.rd CTY_MAP_SEC_HI == 0xFFFF && e.cty.todPend == 0 && e.bit CTY_STAT_TOD_STEP) = true := by decide +kernel
def learned : Dev := { wfs on [(CTY_MDL_CTL_FREEZE, 1), (CTY_STAT_MDL_VALID, 1), (CTY_MDL_SEL_INDEX, 12)] with
  cty := { on.cty with params := [(1, 5)], mdlRestored := true } }
theorem test_model_writes : reach on CTY_MDL_CTL = true ∧ reach on CTY_MDL_VAL_LO = true ∧ reach on CTY_MDL_VAL_HI = true ∧
    after (.modelClear .supervisor 0) learned (fun e => e.cty.params == [] && !e.bit CTY_STAT_MDL_VALID) = true ∧
    after (.modelFreeze .supervisor 0) on (fun e => e.bit CTY_MDL_CTL_FREEZE) = true ∧
    after (.modelUnfreeze .supervisor 0) learned (fun e => !e.bit CTY_MDL_CTL_FREEZE && e.bit CTY_STAT_MDL_VALID) = true ∧
    after (.modelParamWrite .supervisor 1 0x80000000) learned (fun e => e.param 12 == 1 - 2 ^ 63) = true ∧
    after (.modelParamWrite .supervisor 1 2) on (fun e => e == on.ok) = true := by decide +kernel
def locked : Dev := { wfs on [(CTY_STAT_STATE, 2)] with
  slate := 2 * 245760000
  cty := { on.cty with lockedSince := some 5, fcwHist := [3], tempHist := [0] } }
theorem test_model_sample : after .modelSample locked (fun e => e.cty.pendSamples.map (fun m => m.tick) == [2 * 245760000]) = true := by decide +kernel
def steady : List ModelSample := [{ tick := 100 * 245760000, y := 7, t := 0 }, { tick := 50 * 245760000, y := 7, t := 0 }]
theorem test_model_refit : after .modelRefit on (fun e => e == on) = true ∧
    after .modelRefit { locked with slate := 60 * 245760000 } (fun e => e.cty.lastRefit == 60 * 245760000 && !e.cty.refitDone) = true ∧
    after .modelRefit { locked with slate := 200 * 245760000, cty := { locked.cty with samples := steady } } (fun e =>
      e.cty.refitDone && e.param 0 == 7 && e.param 1 == 0 && e.param 12 == 2 && e.param 11 == 200 * 245760000) = true := by decide +kernel
theorem test_pps_out : after .ppsOutEdge { wfs on [(CTY_PPS_CTL_EN, 1), (CTY_PPS_CTL_WIDTH, 0)] with slate := 0 } (fun e => e.outs == [.ppsOut 0 0 1]) = true := by decide +kernel
def sys1 (ofs : Nat) : Dev := wfs on [(CTY_SYSs_CTL_MODE 1, 1), (CTY_SYSs_PER_PER 1, 1000), (CTY_SYSs_OFS_OFS 1, ofs)]
theorem test_sysref : after (.sysrefPulse 1) (sys1 0) (fun e => e.outs == [.sysref 1 (max 1 (on.rf (CTY_SYSs_CTL_WIDTH 1))) 0 0]) = true ∧
    after (.sysrefPulse 1) (sys1 1) (fun e => e.outs == []) = true := by decide +kernel
theorem test_sysref_gapped : reach on (CTY_SYSs_CTL 1) = true ∧ after (.sysrefGappedStart .supervisor 1 0x302) on
    (fun e => SMap.at none e.cty.bursts 1 == some { start := 104096, left := 3 }) = true := by decide +kernel
def temmed : Dev := { wfs on [(CTY_TEM_CTL_A, 0), (CTY_TEM_CTL_B, 1), (CTY_REFn_CFG_EN 0, 1), (CTY_REFn_CFG_KIND 0, 1), (CTY_REFn_STAT_QSTATE 0, 2),
    (CTY_REFn_CFG_EN 1, 1), (CTY_REFn_CFG_KIND 1, 1), (CTY_REFn_STAT_QSTATE 1, 2)] with
  cty := { on.cty with slots := [(0, { RefSlot.idle with sample := some 9 }), (1, { RefSlot.idle with sample := some 2 })],
                       tem := some { next := 100000, left := 1, used := 2, sum := 4, lo := 1, hi := 3 } } }
theorem test_tem : reach on CTY_TEM_CTL = true ∧ after (.temStart .supervisor 0) (wfs on [(CTY_TEM_WIN_WINDOW, 0)]) (fun e => e.bit CTY_TEM_CTL_DONE && e.cty.tem == none) = true ∧
    after (.temStart .supervisor 0) (wfs on [(CTY_TEM_WIN_WINDOW, 4)]) (fun e => e.cty.tem == some { next := 245860000, left := 4, used := 0, sum := 0, lo := 0, hi := 0 }) = true ∧
    temmed.temDiff [] = some (-7) ∧
    after (.temSample []) temmed (fun e => e.cty.tem == none && e.bit CTY_TEM_CTL_DONE && e.rfs CTY_TEM_MIN_VALUE == -7 &&
      e.rfs CTY_TEM_MAX_VALUE == 3 && e.rf CTY_TEM_CTL_USED == 3) = true := by decide +kernel
theorem test_ext_sensor : after (.extSensorPoll none) (wfs on [(CTY_MDL_CTL_SENSOR, 1)]) (fun e => e.cty.tempFail) = true ∧
    after (.extSensorPoll (some 0x1900)) (wfs on [(CTY_MDL_CTL_SENSOR, 1)]) (fun e => e.cty.extTemp == 25 * 256) = true := by decide +kernel
theorem test_todrx : reach on CTY_TODRX = true ∧ after (.todRxByte 7 false) on (fun e => e.cty.todFifo == [7] && e.bit CTY_TODRX_VALID) = true ∧
    after (.todRxByte 7 true) on (fun e => e.bit CTY_TODRX_FERR && e.cty.todFifo == []) = true ∧
    after (.todRxByte 7 false) { on with cty := { on.cty with todFifo := List.replicate 256 0 } } (fun e => e.bit CTY_TODRX_OVR) = true ∧
    after (.todrxRead .host) { on with cty := { on.cty with todFifo := [1, 2] } } (fun e => e.cty.todFifo == [2]) = true := by decide +kernel

/-! ## Fabric -/

theorem test_probe : reach on (FAB_PRB_SELn 1 5) = true ∧ after (.probeSelectWrite .supervisor 1 5 7199) on (fun e => e.rf (FAB_PRB_SELn_TILE 1 5) == 7199) = true ∧
    after (.probeSelectWrite .supervisor 1 5 7200) on (fun e => logged on e 0x1A 6 .warn [1, 5, 0, 0, 0]) = true ∧
    after (.probeSelectWrite .supervisor 1 5 3) (wfs on [(FAB_CAP_STAT_STATE 1, 1)]) (fun e => logged on e 0x1A 6 .warn [1, 5, 1, 0, 0]) = true := by decide +kernel
def capW (post : Nat) : Word := fieldSet (FAB_CAP_CTL_POST 0).lo (FAB_CAP_CTL_POST 0).w post 0
theorem test_cap_arm : reach on (FAB_CAP_CTL 0) = true ∧ on.capActive 0 = false ∧ on.capOnClock 0 = true ∧
    after (.captureArm .supervisor 0 (capW 0)) on (fun e => e.rf (FAB_CAP_STAT_STATE 0) == 3) = true ∧
    after (.captureArm .supervisor 0 (capW 16385)) on (fun e => e.rf (FAB_CAP_STAT_STATE 0) == 4 && e.rf (FAB_CAP_STAT_STATUS 0) == 1) = true ∧
    after (.captureArm .supervisor 0 (fieldSet (FAB_CAP_CTL_TRIG_SRC 0).lo 2 2 (capW 9))) on (fun e => e.rf (FAB_CAP_STAT_STATUS 0) == 8) = true ∧
    after (.captureArm .supervisor 0 (capW 16384)) on (fun e => e.rf (FAB_CAP_STAT_STATE 0) == 1) = true := by decide +kernel
def cap0 (state left : Nat) (sw : Bool) : Dev :=
  let d := wfs on [(FAB_CAP_STAT_STATE 0, state), (FAB_CAP_CTL_POST 0, 2), (⟨CKC_STAT, 8, 1⟩, 1)]
  { d.wr (CKC_SYNf_CFG 0) 0x80020001 with fab := { on.fab with cap := [(0, { Capture.idle with left := left, sw := sw })] } }
theorem test_cap_cycle : after (.captureTrigger 0 0 []) (cap0 2 1 false) (fun e => e == cap0 2 1 false) = true ∧
    after (.captureDone 0 0 []) (cap0 1 1 false) (fun e => e == cap0 1 1 false) = true ∧
    after (.captureSwtrig .supervisor 0 0) (cap0 1 0 false) (fun e => (e.capOf 0).sw) = true ∧
    after (.captureAbort .supervisor 0 0) (cap0 1 0 false) (fun e => e.rf (FAB_CAP_STAT_STATE 0) == 4 && logged on e 0x1A 8 .warn [0, 5, 0, 0, 0]) = true := by decide +kernel
theorem test_cap_next : SMap.at 0 (cap0 1 0 true).fab.ran 0 = 0 ∧ 0 < (cap0 1 0 true).synthCycles 0 ∧
    after (.captureTrigger 0 0 []) (cap0 1 0 true) (fun e => e.rf (FAB_CAP_STAT_STATE 0) == 2 && e.rf (FAB_CAP_CNT_PHASE 0) == 0 &&
      e.rd (FAB_CAP_TRIG_TICK_LO 0) == 100000) = true ∧
    after (.captureDone 0 0 []) (cap0 2 1 false) (fun e => e.rf (FAB_CAP_STAT_STATE 0) == 3) = true := by decide +kernel
def acc1 (w : Option (BitVec 40)) (c : Ecc) : PortAccess := { addr := 5, write := w, psn := false, ecc := c, flip := 0, oreg := true }
theorem test_tile : (sited on).ramLive .tile 0 3 = true ∧
    after (.tileRamAccess 0 3 .w20 (some (acc1 (some 0xFFFFF1) .clean)) none) (sited on)
      (fun e => e.tileGet 0 3 .w20 5 == 0xFFFF1 && e.tileWord 0 3 2 == 0xFFFF100000) = true ∧
    after (.tileRamAccess 0 3 .w20 (some (acc1 none .clean)) (some (acc1 (some 9) .clean))) (sited on)
      (fun e => e.tileGet 0 3 .w20 5 == 9 && e.outs == [.ramRead 0 .tile 3 0 0 true false 3]) = true ∧
    after (.tileRamAccess 0 3 .w20 (some (acc1 (some 8) .clean)) (some (acc1 (some 9) .clean))) (sited on)
      (fun e => e.tileGet 0 3 .w20 5 == 8 && e.rf (FAB_MEM_CNT_COLL_COUNT 0) == 1) = true ∧
    after (.tileRamAccess 0 3 .e32 (some (acc1 none .corrected)) none) (sited on) (fun e => e.rf (FAB_MEM_CNT_CE_COUNT 0) == 1) = true ∧
    after (.tileRamAccess 0 3 .e32 (some (acc1 none .uncorrectable)) none) (sited on)
      (fun e => e.bit (FAB_MEM_STAT_UE 0) && logged on e 0x1A 11 .error [0, 0, 3, 0, 0]) = true := by decide +kernel
def queued (q : List (BitVec 40)) : Dev := { sited on with fab := { on.fab with queue := [(3, q)] } }
theorem test_queue : after (.queuePush 0 3 .w40 7 []) (queued [1]) (fun e => e.queueOf 0 3 == [1, 7]) = true ∧
    after (.queuePush 0 3 .w40 7 [2]) (queued (List.replicate 1023 1)) (fun e => e.bit (FAB_MEM_STAT_QERR 0)) = true ∧
    after (.queuePop 0 3 .w40 true [2, 4]) (queued [1, 2]) (fun e => e.queueOf 0 3 == [2] && e.outs == [.ramRead 0 .tile 3 1 1 true false 3]) = true ∧
    after (.queuePop 0 3 .w40 false [1, 2]) (queued [1, 2]) (fun e => e.queueOf 0 3 == [1, 2] && e.bit (FAB_MEM_STAT_QERR 0)) = true := by decide +kernel
theorem test_deep : (sited on).ramLive .deep 1 3 = true ∧
    after (.deepRamAccess 1 3 (acc1 (some 0x1200000034) .clean)) (sited on) (fun e => e.deepWord 1 3 5 == 0x34) = true ∧
    after (.deepRamAccess 1 3 (acc1 none .clean)) (sited on) (fun e => e.outs == [.ramRead 1 .deep 3 0 0 true false 5]) = true := by decide +kernel
def cfg1 : SliceConfig := { mode := .single, preAdd := false, cEn := false, casc := false, accSat := false, shift := 1, width := 47, outSat := false, host := 0 }
def inp1 : SliceInput := { a := 3, d := 0, b := 5, c := 0, load := true, sub := false, preSub := false, conj := false, psn := false }
def cyc1 (m : SliceMode) : SliceCycle := { cfg := { cfg1 with mode := m }, inp := inp1, pcin := 0, pcinPsn := false }
def slice3 : Dev := { sited on with fab := { on.fab with slices := [(6144, { Slice.idle with acc := 100, s2 := some (inp1, 3), s3 := some { p := 15, pHi := 0, c := 0, load := false, sub := true, psn := false } }),
  (6145, { Slice.idle with s2 := some ({ inp1 with a := 7, b := 2 }, 7) })] } }
theorem test_slice : slice3.tileDead 1 0 0 = none ∧ after (.sliceOperation 1 0 (cyc1 .single) (cyc1 .single)) slice3 (fun e => let y := e.slice 1 0
    y.acc == 85 && y.out == 43 && !y.ovf && y.s3 == some { p := 15, pHi := 0, c := 0, load := true, sub := false, psn := false }) = true ∧
    after (.sliceOperation 1 0 (cyc1 .complex) (cyc1 .complex)) slice3 (fun e => (e.slice 1 0).s3.map (·.p) == some 11 &&
      (e.slice 1 1).s3.map (·.p) == some 41) = true ∧
    (on.tileDead 1 0 0 != none) = true := by decide +kernel
def kindsW (k : Nat) : Word := fieldSet (FAB_MT_CTL_KINDS 2).lo (FAB_MT_CTL_KINDS 2).w k 0
theorem test_march_start : reach on (FAB_MT_CTL 2) = true ∧ after (.marchStart .supervisor 2 0) on (fun e => e.rf (FAB_MT_STAT_STATE 2) == 2) = true ∧
    after (.marchStart .supervisor 2 (kindsW 1)) on (fun e => e.rf (FAB_MT_STAT_STATE 2) == 1 && (e.marchOf 2).isSome) = true ∧
    after (.marchStart .supervisor 2 (kindsW 1)) (wfs on [(FAB_MT_STAT_STATE 2, 1)]) (fun e => (e.marchOf 2).isNone) = true := by decide +kernel
def marching (p a : Bool) : Dev := { wfs on [(FAB_MT_STAT_STATE 2, 1)] with fab := { on.fab with march := [(2, some { preserve := p, kinds := 1, regions := 0, engines := 0, since := 0, window := 4, abort := a, failed := [], held := [] })] } }
theorem test_march_window : after (.marchWindowEnd 2 [] []) (marching true false) (fun e => (e.marchOf 2).map (fun m => m.window) == some 5) = true ∧
    after (.marchWindowEnd 2 [] []) (marching true true) (fun e => e.marchOf 2 == none && e.rf (FAB_MT_STAT_STATUS 2) == 5) = true := by decide +kernel
def badRead : MarchRead := { kind := .callSheet, index := 0, addr := 5, bg := false, elem := 1, got := 4 }
theorem test_march_done : (marching false false).marchOver 2 { preserve := false, kinds := 1, regions := 0, engines := 0, since := 0, window := 4, abort := false, failed := [], held := [] } = false ∧
    marchBad badRead = true ∧ after (.marchDone 2 [] [badRead]) { marching false false with slate := 1000000 }
      (fun e => e.rf (FAB_MT_STAT_STATE 2) == 2 && e.rf (FAB_MT_STAT_FAILS 2) == 1 && e.marchOf 2 == none) = true ∧
    after (.marchAbort .supervisor 2 0 []) (marching false false) (fun e => e.rf (FAB_MT_STAT_STATUS 2) == 5 && e.rf (FAB_MT_STAT_STATE 2) == 3) = true ∧
    after (.marchAbort .supervisor 2 0 []) (marching true false) (fun e => (e.marchOf 2).map (fun m => m.abort) == some true) = true := by decide +kernel

/-! ## Signal engines -/

/-- Engine 1 runs, at bundle 5, with operands. -/
def eng1 : Engine := { Engine.idle with
  s := [(1, { v := 7, p := false }), (2, { v := 0xFFFFFFFB, p := true }), (3, { v := 0x12340000, p := false })]
  v := [(1, { x := 0x00030002, p := 0 }), (2, { x := 0x00050004, p := 1 })]
  acc := [(1, { re := 100, im := 7, p := 0 })]
  accM := [(1, { re := 100, im := 7, p := 0 })]
  z := true
  inSyms := [[{ x := 9, p := 0 }]]
  inOp := true }
def running : Dev := { wfs on [(SE_STAT_STATE 1, 1), (SE_PC_PC 1, 5), (SE_AGk_BASE_BASE 1 1, 64), (SE_AGk_MOD_STEP 1 1, 2), (SE_AGk_BASE_BASE 1 2, 3)] with
  se := { on.se with
    eng := [(1, eng1)]
    spad := [(65536 + 64, { v := 0x77, p := false })]
    coef := [(16384 + 64, { v := 0x55, p := true })] } }
def ready (d : Dev) (n : Nat) : Bool := d.live && d.seState n == seRUN && d.seUp n && (d.engine n).inflight.isEmpty && (d.engine n).loops.isEmpty &&
  !(d.engine n).pastEnd && (d.engine n).start ≤ d.slate && d.rf (SE_PC_PC n) < 2047 && SMap.at none d.fab.march (n / 32) == none
/-- The operation leaves `x` in scalar register 4 and goes on. -/
def sets4 (i : Instr) (x : SVal) : Bool := after i running (fun e => (e.engine 1).sreg 4 == x && (e.engine 1).sreg 1 == { v := 7, p := false } && e.rf (SE_PC_PC 1) == 6)
theorem test_ready : ready running 1 = true := by decide +kernel
theorem test_scalar1 : sets4 (.seAdd 1 4 1 2) { v := 2, p := true } = true ∧ sets4 (.seSub 1 4 1 2) { v := 12, p := true } = true ∧
    sets4 (.seAnd 1 4 1 2) { v := 3, p := true } = true ∧ sets4 (.seOr 1 4 1 2) { v := 0xFFFFFFFF, p := true } = true ∧
    sets4 (.seXor 1 4 1 2) { v := 0xFFFFFFFC, p := true } = true ∧ sets4 (.seMul 1 4 1 2) { v := 0xFFFFFFDD, p := true } = true := by decide +kernel
theorem test_scalar2 : sets4 (.seShl 1 4 2 1) { v := 0xFFFFFD80, p := true } = true ∧ sets4 (.seShr 1 4 2 1) { v := 0x1FFFFFF, p := true } = true ∧
    sets4 (.seSar 1 4 2 1) { v := 0xFFFFFFFF, p := true } = true ∧ sets4 (.seAddi 1 4 1 0x7FFF) { v := 6, p := false } = true ∧
    sets4 (.seMovl 1 4 0x8001) { v := 0x8001, p := false } = true ∧ sets4 (.seRdt 1 4 0) { v := 100000, p := false } = true ∧
    sets4 (.seMfag 1 4 1 .ofs) { v := 0, p := false } = true := by decide +kernel
theorem test_scalar3 : after (.seMovh 1 3 0xABCD) running (fun e => (e.engine 1).sreg 3 == { v := 0xABCD0000, p := false }) = true ∧
    after (.seCmp 1 1 2) running (fun e => !(e.engine 1).z && !(e.engine 1).n && (e.engine 1).fp) = true ∧
    after (.seCmpi 1 1 8) running (fun e => (e.engine 1).n && !(e.engine 1).fp) = true ∧
    after (.seMtag 1 1 .ofs 1) running (fun e => e.rf (SE_AGk_OFS_OFS 1 1) == 7) = true ∧
    after (.seNop 1) running (fun e => e.rf (SE_PC_PC 1) == 6) = true := by decide +kernel
def flight (i : Instr) (p : List InFlight → Bool) : Bool := after i running (fun e => p (e.engine 1).inflight && e.rf (SE_PC_PC 1) == 6)
theorem test_loads : running.agMisaligned 1 1 = false ∧ running.agMisaligned 1 2 = true ∧
    flight (.seLdv 1 1 3 true LaneErrs.none) (fun l => l == [{ left := 3, w := .v 3 { x := 0x77, p := 0 } }]) = true ∧
    flight (.seLdx 1 1 3 true LaneErrs.none) (fun l => l == [{ left := 3, w := .s 3 { v := 0x77, p := false } }]) = true ∧
    flight (.seLdyb 1 1 3 true LaneErrs.none) (fun l => l == [{ left := 3, w := .v 3 { x := vecBits (fun _ => 0x55), p := 0xFFFFFFFF } }]) = true ∧
    flight (.seLdy 1 1 3 true LaneErrs.none) (fun l => l == [{ left := 3, w := .v 3 { x := 0x55, p := 1 } }]) = true ∧
    flight (.seLdb 1 1 3 true LaneErrs.none) (fun l => l == [{ left := 3, w := .v 3 { x := vecBits (fun _ => 0x77), p := 0 } }]) = true := by decide +kernel
theorem test_stores : after (.seStv 1 1 2 true) running (fun e => e.spadElem 1 64 == { v := 0x00050004, p := true } && e.rf (SE_AGk_OFS_OFS 1 1) == 2) = true ∧
    after (.seStv 1 2 2 true) running (fun e => e.seState 1 == seTRAPPED && e.rf (SE_TRAP_CAUSE 1) == 4 && e.rf (SE_TRAP_SLOT 1) == 1) = true ∧
    after (.seStx 1 1 1 false) running (fun e => e.spadElem 1 64 == { v := 7, p := false } && e.rf (SE_AGk_OFS_OFS 1 1) == 0) = true := by decide +kernel
def vec0 (l : List InFlight) : List (Int × Int) := l.filterMap (fun w => match w.w with | .v _ x => some (x.lane 0) | _ => none)
theorem test_vectors : flight (.seVadd 1 4 1 2 false false) (fun l => vec0 l == [(6, 8)]) = true ∧ flight (.seVsub 1 4 1 2 false true) (fun l => vec0 l == [(-1, -1)]) = true ∧
    flight (.seVmov 1 4 2) (fun l => vec0 l == [(4, 5)]) = true ∧ flight (.seVcmul 1 4 1 2 false false false) (fun l => vec0 l == [(0, 0)]) = true ∧
    flight (.seVbfly 1 4 1 2 3 0 false false false) (fun l => vec0 l == [(2, 3), (2, 3)]) = true := by decide +kernel
def accLane (i : Instr) (x : Int × Int) : Bool := after i running (fun e => ((e.engine 1).accOf 1).lane 0 == x)
theorem test_accs : accLane (.seVmul 1 1 1 2 false) (-7, 22) = true ∧ accLane (.seVmac 1 1 1 2 false) (93, 29) = true ∧ accLane (.seVmsb 1 1 1 2 true) (77, 5) = true := by decide +kernel
theorem test_stream : flight (.seSldLo 1 4) (fun l => l == [{ left := 2, w := .half 4 false { x := 9, p := 0 } }]) = true ∧
    flight (.seSldHi 1 4) (fun l => l == [{ left := 2, w := .half 4 true { x := 9, p := 0 } }]) = true ∧
    after (.seSldLo 1 4) { running with se := { running.se with eng := [(1, { eng1 with inSyms := [] })] } } (fun e => e.rf (SE_TRAP_CAUSE 1) == 6) = true ∧
    after (.seSstLo 1 1) running (fun e => (e.engine 1).outOpen == [{ x := 0x00030002, p := 0 }]) = true ∧
    after (.seSstHi 1 1) running (fun e => (e.engine 1).outOpen == [{ x := 0, p := 0 }]) = true := by decide +kernel
theorem test_special : flight (.seVnar 1 4 1 3) (fun l => vec0 l == [(13, 1)]) = true ∧ flight (.seVnars 1 4 1 1) (fun l => vec0 l == [(1, 0)]) = true ∧
    flight (.seVexpl 1 4 1) (fun l => vec0 l == [(40, 0)]) = true ∧ flight (.seVexpb 1 4 1) (fun l => l == [{ left := 2, w := .s 4 { v := 40, p := false } }]) = true ∧
    flight (.seVnorm 1 4 1 5) (fun l => vec0 l == [(2 ^ 14, 3 * 2 ^ 13)] || vec0 l == [(2 ^ 14, 24576)]) = true ∧
    flight (.seVsat 1 4 1 1) (fun l => vec0 l == [(1, 1)]) = true ∧ after (.seVsat 1 4 1 16) running (fun e => e.rf (SE_TRAP_CAUSE 1) == 2 && e.rf (SE_TRAP_SLOT 1) == 4) = true := by decide +kernel
def atPc (i : Instr) (x : Nat) : Bool := after i running (fun e => e.rf (SE_PC_PC 1) == x && e.seState 1 == seRUN)
theorem test_control : atPc (.seRep 1 3 5) 10 = true ∧ after (.seRep 1 3 1) running (fun e => (e.engine 1).loops == [{ start := 6, len := 4, left := 7 }]) = true ∧
    atPc (.seBr 1 0xFD) 2 = true ∧ atPc (.seBrz 1 3) 8 = true ∧ atPc (.seBrnz 1 3) 6 = true ∧ atPc (.seJmps 1 1) 7 = true := by decide +kernel
theorem test_branch_back : after (.seBrnz 1 3) { running with se := { running.se with eng := [(1, { eng1 with z := false })] } } (fun e => e.rf (SE_PC_PC 1) == 8) = true ∧
    after (.seBrz 1 3) { running with se := { running.se with eng := [(1, { eng1 with z := false })] } } (fun e => e.rf (SE_PC_PC 1) == 6) = true := by decide +kernel
theorem test_control_ends : after (.seKick 1) running (fun e => e.rf (DLM_TAIL_TAIL 1) == 1) = true ∧
    after (.seKick 1) (wfs running [(DLM_TAIL_TAIL 1, 15)]) (fun e => e.rf (DLM_TAIL_TAIL 1) == 15 && e.bit (DLM_STAT_FULL 1)) = true ∧
    after (.seSend 1) { running with se := { running.se with eng := [(1, { eng1 with outOpen := [{ x := 3, p := 0 }] })] } } (fun e => (e.engine 1).outClosed == [[{ x := 3, p := 0 }]]) = true ∧
    after (.seEvt 1 9) running (fun e => e.rf (SE_EVT_CODE 1) == 9 && e.bit (SE_STAT_EVT 1)) = true ∧
    after (.seBrk 1) running (fun e => e.seState 1 == seHALTED) = true ∧ after (.seDone 1) running (fun e => e.seState 1 == seIDLE && !(e.engine 1).inOp) = true := by decide +kernel
theorem test_engine_controls : reach running (SE_CTL 1) = true ∧ after (.engineHalt .supervisor 1 0) running (fun e => e.seState 1 == seHALTED) = true ∧
    after (.engineHaltRelease .supervisor 1 0) (wfs running [(SE_STAT_STATE 1, 2)]) (fun e => e.seState 1 == seRUN) = true ∧
    after (.engineStep .supervisor 1 0 IssueEnv.clean) running (fun e => e.seState 1 == seRUN && e.se == running.se) = true ∧
    after (.engineResume .supervisor 1 0) (wfs running [(SE_STAT_STATE 1, 3)]) (fun e => e.seState 1 == seIDLE) = true := by decide +kernel
def halted : Dev := { wfs running [(SE_STAT_STATE 1, 2), (SE_CTL_HALT 1, 1)] with se := { running.se with eng := [(1, { eng1 with inflight := [] })] } }
theorem test_engine_step : reach halted (SE_CTL 1) = true ∧ halted.seUp 1 = true ∧ (decodeBundle (halted.progBundle 1 5) matches .inl _) = true ∧
    after (.engineStep .supervisor 1 3 IssueEnv.clean) halted (fun e => e.seState 1 == seHALTED && e.rf (SE_PC_PC 1) == 6 && (e.engine 1).s == eng1.s) = true ∧
    after (.engineStep .supervisor 1 3 IssueEnv.clean) { halted with se := { halted.se with prog := [(2048 + 5, 0xFFFFFFFFFFFFFFFF)] } } (fun e =>
      e.seState 1 == seTRAPPED && e.rf (SE_TRAP_CAUSE 1) == 2 && e.rf (SE_TRAP_PC 1) == 5) = true := by decide +kernel
theorem test_symbol : running.seUp 1 = true ∧ running.fromNeighbour 1 = false ∧ after (.streamSymbolIn 1 [{ x := 1, p := 0 }]) running (fun e => (e.engine 1).inSyms.length == 2) = true ∧
    after (.streamSymbolIn 1 (List.replicate 513 { x := 1, p := 0 })) running (fun e => logged running e 0x18 5 .warn [1, 1, 2, 0, 0]) = true := by decide +kernel
def spadHeld : Dev := { running with hub := { on.hub with busWaits := [{ rq := .debug, addr := spadAddr 1 64, write := false, since := 99000 }] } }
theorem test_spad : running.barred (spadAddr 1 64) = none ∧ after (.scratchpadAccess .host 1 64 true 3 true .clean) running (fun e => e.spadElem 1 64 == { v := 3, p := false }) = true ∧
    after (.scratchpadAccess .host 1 64 false 3 true .clean) running (fun e => e.resp == .data 0x77) = true ∧
    after (.scratchpadAccess .host 1 64 false 3 false .clean) running (fun e => e.resp == .none) = true ∧
    after (.scratchpadAccessTimeout .debug 1 64 false) spadHeld (fun e => e.resp == .error && logged running e 0x18 7 .error [1, 64, 0, 0, 0]) = true ∧
    after (.scratchpadAccess .debug 1 64 false 3 true .clean) spadHeld (fun e => e.resp == .data 0x77 && e.hub.busWaits.isEmpty) = true := by decide +kernel
theorem test_ext_write : running.barred (engineBase 1 + 0x10000 + 12) = none ∧ after (.engineRamExtWrite .host 1 .coefficient 3 8) running (fun e => e.coefElem 1 3 == { v := 8, p := false }) = true ∧
    after (.engineRamExtWrite .host 1 .program 5 8) running (fun e => e.progBundle 1 1 == 8 <<< 32) = true := by decide +kernel
theorem test_ag_write : reach running (agWord 1 1 1) = true ∧ after (.addressGeneratorWrite .host 1 1 .ofs 8) running (fun e => logged running e 0x18 8 .warn [1, 1, 1, 0, 0]) = true ∧
    after (.addressGeneratorWrite .host 1 1 .ofs 8) on (fun e => e.rf (SE_AGk_OFS_OFS 1 1) == 8) = true := by decide +kernel

/-! ## Movers and the Call Sheet -/

/-- Engine 2's mover: descriptor 0 copies 128 bytes of the scratchpad from 256 to 512; LEN, spaces and addresses as Table SE-13 lays them out. -/
def mover (len : Word) : Dev := { wfs on [(DLM_CTL_EN 2, 1), (DLM_TAIL_TAIL 2, 1)] with
  se := { on.se with
    ring := [(256, 0x110000 + len), (257, 256), (258, 512 * 256)]
    spad := [(2 * 65536 + 64, { v := 7, p := false })] } }
theorem test_mover_start : (mover 128).moverLive 2 = true ∧ descCheck ((mover 128).descriptor 2 0) true = none ∧
    after (.descriptorStart 2 true [] [] noBack) (mover 128) (fun e => e.rf (DLM_STAT_STATE 2) == vBUSY &&
      ((SMap.at none e.se.move 2).map (fun b => (b.length, b.take 1))) == some (128, [7])) = true ∧
    after (.descriptorStart 2 true [] [] noBack) (mover 0) (fun e => e.rf (DLM_STAT_HEAD 2) == 1 && e.rf (DLM_STAT_LAST 2) == 0) = true ∧
    after (.descriptorStart 2 true [] [] noBack) (mover 4) (fun e => e.rf (DLM_STAT_LAST 2) == 8 && e.bit (DLM_STAT_ERR 2)) = true := by decide +kernel
theorem test_mover_poison : after (.descriptorStart 2 true [] [] noBack) { mover 128 with se := { (mover 128).se with spad := [(2 * 65536 + 70, { v := 7, p := true })] } }
    (fun e => e.rf (DLM_STAT_STATE 2) == vHALTED && logged on e 0x19 2 .error [2, 0, 1, 0, 0]) = true := by decide +kernel
theorem test_mover_complete : after (.descriptorComplete 2 [] noBack) { mover 128 with se := { (mover 128).se with move := [(2, some [1, 2, 3, 4])] } }
    (fun e => e.spadElem 2 128 == { v := 0x04030201, p := false } && e.rf (DLM_STAT_LAST 2) == 0 && e.rf (DLM_STAT_HEAD 2) == 1 &&
      e.rf (DLM_CNT_DONE_COUNT 2) == 1) = true := by decide +kernel
theorem test_mover_regs : reach on (DLM_TAIL 2) = true ∧ reach on (DLM_CTL 2) = true ∧
    after (.dlmTailWrite .host 2 0x2F) on (fun e => e.rf (DLM_TAIL_TAIL 2) == 15) = true ∧
    after (.moverResume .host 2 3) (wfs on [(DLM_STAT_STATE 2, 2)]) (fun e => e.rf (DLM_STAT_STATE 2) == 0) = true := by decide +kernel

/-- Bank 1 holds one OP for engine 3, program 16, flow 9, earliest tick 20. -/
def op3 : BitVec 128 := 1 + 3 * 4 + 16 * 2 ^ 8 + 9 * 2 ^ 19 + 20 * 2 ^ 35
def sheet : Dev := { wfs on [(CSH_BANKb_LEN_LEN 1, 1), (CSH_BANKb_PER_PER 1, 1000), (CSH_CUT_TICK_LO_TICK, 200000)] with
  csh := { on.csh with entries := [(262144, op3)] } }
theorem test_entry : sheet.barred 0x04000000 = none ∧ sheet.bankFree 0 = true ∧
    after (.callSheetEntryWrite .host 3 2 5) sheet (fun e => e.entry 0 3 == 5 <<< 64) = true ∧
    after (.callSheetEntryWrite .host 0 2 5) (wfs sheet [(CSH_STAT_STATE, 1)]) (fun e => e.resp == .error && logged sheet e 6 9 .warn [0, 0, 0, 2, 0]) = true := by decide +kernel
theorem test_schedule : reach sheet CSH_CUT_CTL = true ∧ sheet.scheduleBar 1 = none ∧
    after (.scheduleCutArm .host 5) sheet (fun e => e.cut 0 == armedSlot 4 1 200000 && e.csh.staged == some (1, 0) && e.rf CSH_CUT_CTL_STATUS == 0) = true ∧
    after (.scheduleCutArm .host 5) (wfs sheet [(CSH_CUT_TICK_LO_TICK, 104095)]) (fun e => e.rf CSH_CUT_CTL_STATUS == 6 && logged sheet e 1 3 .warn [4, 1, 0, 6, 0]) = true ∧
    after (.scheduleCutArm .host 1) (wfs sheet [(CSH_STAT_STATE, 1)]) (fun e => e.rf CSH_CUT_CTL_STATUS == 4) = true := by decide +kernel
def staged (l : SMap (BitVec 128)) : Dev := { sheet with
  hub := { on.hub with cuts := [(0, armedSlot 4 1 200000)] }
  csh := { on.csh with
    entries := l
    staged := some (1, 0)
    checkAt := some 99999 } }
theorem test_check : after (.bankStagingCheckEnd none) (staged [(262144, op3)]) (fun e => (e.cut 0).confirmed && e.csh.checkAt == none) = true ∧
    after (.bankStagingCheckEnd none) (staged [(262144, 3)]) (fun e => e.bit CSH_STAT_INVALID && logged sheet e 6 7 .error [0, 0, 128, 1, 0]) = true ∧
    after (.scheduleCutCancel .host 2) (staged []) (fun e => (e.cut 0).status == 5 && e.csh.staged == none) = true ∧
    after (.schedulerStop .host 1) (wfs sheet [(CSH_STAT_STATE, 1)]) (fun e => e.rf CSH_STAT_STATE == 0 && logged sheet e 6 10 .info [0, 0, 0, 0, 0]) = true := by decide +kernel
def item3 : CshItem := { bank := 1, index := 0, period := 0, early := 99020, entry := op3 }
def sched (c : Csh → Csh) : Dev := { wfs sheet [(CSH_STAT_STATE, 1), (CSH_STAT_ACTIVE, 1)] with csh := c { sheet.csh with origin := 99000 } }
theorem test_period : after .periodBoundary (sched id) (fun e => e.csh.period == 1 && e.rd CSH_PSTART_LO == 100000 && e.rf CSH_PCOUNT_COUNT == 1) = true ∧
    after .periodBoundary sheet (fun e => e == sheet) = true ∧
    after (.entryFetch []) (sched id) (fun e => e.readyList 3 == [item3] && e.csh.fetchK == 1 && e.csh.fetchIdx == 0) = true := by decide +kernel
def mid (c : Csh → Csh) : Dev := let d := sched c; { d with csh := { d.csh with origin := 99500 } }
def ready3 (m : BitVec 128) : Dev := mid (fun c => { c with lists := [(3, [{ item3 with entry := op3 + m }])] })
def served (st : Nat) : Dev := mid (fun c => { c with ops := [(3, some { item := { item3 with entry := op3 + 2 ^ 125 + 5 * 2 ^ 107 }, issue := 99500, since := 99500, rep := some (100000, st), old := false })] })
theorem test_issue : (ready3 0).listsReady = true ∧ (served 0).switchDue = false ∧ (served 0).boundaryDue = false ∧ (ready3 0).skipMode 3 item3 = none ∧ (ready3 0).waitCode 3 item3 = 0 ∧
    after (.operationIssue 3) (ready3 0) (fun e => e.readyList 3 == [] && e.rf (CSH_ENGn_ISSUE_COUNT 3) == 1 && e.seState 3 == seRUN && e.rf (SE_PC_PC 3) == 16) = true ∧
    after (.entrySkip 3) (ready3 (2 ^ 73)) (fun e => e.readyList 3 == [] && e.rf (CSH_ENGn_LATE_SKIP 3) == 1 && logged sheet e 6 2 .warn [3, 0, 0, 128, 1]) = true := by decide +kernel
theorem test_completion : after (.operationCompletion 3) (served 0) (fun e => SMap.at none e.csh.ops 3 == none &&
      e.csh.rels == [{ due := 100001, period := 0, link := false, index := 5 }]) = true ∧
    after (.operationCompletion 3) (served 5) (fun e => e.rf (CSH_ENGn_EXP_ABORTED 3) == 1) = true := by decide +kernel
theorem test_release : after (.successorRelease []) (mid (fun c => { c with rels := [{ due := 100000, period := 0, link := false, index := 5 }] }))
      (fun e => e.csh.rels == [] && SMap.at 0 e.csh.released 5 == 1) = true ∧
    after (.successorRelease []) (mid (fun c => { c with
      entries := [(262154, 2 + 2 * 4 + 7 * 2 ^ 8 + 8 * 2 ^ 26)]
      rels := [{ due := 100000, period := 0, link := true, index := 10 }] })) (fun e => SMap.at 0 e.csh.released 7 == 1 && SMap.at 0 e.csh.released 8 == 1) = true := by decide +kernel

/-! ## Serial lanes: lane 5 of quad 1, from PLL 0 -/

def lanes (x : Lane) (l : List (RF × Nat)) : Dev := { wfs on l with lanes := [(5, x)] }
theorem test_pll_regs : reach on (LNQ_PLLp_RATE 1 0) = true ∧ reach on (LNQ_PLLp_CFG 1 0) = true ∧ reach on (LNQ_Li_CFG 5) = true ∧
    after (.pllRateWrite .host 1 0 20000000) on (fun e => e.rf (LNQ_PLLp_RATE_RATE 1 0) == 20000000) = true ∧
    after (.pllRateWrite .host 1 0 15999999) on (fun e => logged on e 0x15 10 .warn [1, 255, 0x14, 0, 0]) = true ∧
    after (.pllRateWrite .host 1 0 20000000) (wfs on [(LNQ_PLLp_CFG_EN 1 0, 1)]) (fun e => logged on e 0x15 10 .warn [1, 255, 0x14, 0, 0]) = true ∧
    after (.pllEnable .host 1 0 1) on (fun e => e.bit (LNQ_PLLp_CFG_EN 1 0)) = true := by decide +kernel
theorem test_pll_disable : after (.pllDisable .host 1 0 0) (wfs on [(LNQ_PLLp_CFG_EN 1 0, 1), (LNQ_PLLp_STAT_LOCK 1 0, 1)])
      (fun e => !e.bit (LNQ_PLLp_CFG_EN 1 0) && !e.bit (LNQ_PLLp_STAT_LOCK 1 0)) = true ∧
    after (.pllDisable .host 1 0 0) (wfs on [(LNQ_PLLp_CFG_EN 1 0, 1), (LNQ_Li_PWR_TX_STATE 5, 2)])
      (fun e => e.bit (LNQ_PLLp_CFG_EN 1 0) && logged on e 0x15 10 .warn [1, 255, 0x10, 0, 0]) = true := by decide +kernel
theorem test_lane_config : after (.laneConfigWrite .host 5 0x21) on (fun e => e.laneOwner 5 == 1 && e.laneMode 5 == 2) = true ∧
    after (.laneConfigWrite .host 5 0x21) (wfs on [(LNQ_Li_PWR_TX_STATE 5, 2)]) (fun e => e.laneOwner 5 == 0 && logged on e 0x15 10 .warn [1, 1, 0, 0, 0]) = true := by decide +kernel
theorem test_lane_power : reach on (LNQ_Li_PWR 5) = true ∧
    after (.lanePowerRequest .host 5 0x15) (wfs on [(LNQ_Li_AT_LO_AT 5, 100001)]) (fun e => e.bit (LNQ_Li_PWR_PENDING 5) && e.txState 5 == lOFF) = true ∧
    after (.lanePowerRequest .host 5 0x15) (wfs on [(LNQ_Li_AT_LO_AT 5, 100000)]) (fun e => !e.bit (LNQ_Li_PWR_PENDING 5) && e.txState 5 == lWAKING && e.rxState 5 == lWAKING) = true ∧
    after (.laneRequestEffect 5) (wfs on [(LNQ_Li_AT_LO_AT 5, 100000), (LNQ_Li_PWR_PENDING 5, 1), (LNQ_Li_PWR_TX_REQ 5, 1)]) (fun e => e.txState 5 == lWAKING) = true := by decide +kernel
theorem test_pll_lock : after (.pllLock 1 0) (lanes Lane.idle [(LNQ_PLLp_CFG_EN 1 0, 1), (LNQ_Li_PWR_TX_STATE 5, 1)])
      (fun e => e.bit (LNQ_PLLp_STAT_LOCK 1 0) && (e.lane 5).txDue == some 102458) = true ∧
    after (.pllUnlock 1 0) (wfs on [(LNQ_PLLp_STAT_LOCK 1 0, 1), (LNQ_Li_PWR_TX_STATE 5, 2)]) (fun e => e.outs == [.laneIdle 5] && logged on e 0x15 7 .error [1, 0, 15, 0, 0]) = true := by decide +kernel
theorem test_transition : after (.laneTransitionDone 5 true) (lanes { Lane.idle with rxTo := 3 } [(LNQ_Li_PWR_RX_STATE 5, 5)])
      (fun e => e.rxState 5 == 3 && e.bit (LNQ_Li_STAT_SLEEP_DONE 5) && logged on e 0x15 6 .info [5, 0, 1, 3, 0]) = true ∧
    after (.laneTransitionDone 5 false) (lanes { Lane.idle with txDue := some 100000 } [(LNQ_Li_PWR_TX_STATE 5, 1)])
      (fun e => e.txState 5 == 2 && e.bit (LNQ_Li_STAT_WAKE_DONE 5)) = true := by decide +kernel
def rxOn : List (RF × Nat) := [(LNQ_Li_PWR_RX_STATE 5, 2), (LNQ_Li_STAT_CDR_LOCK 5, 1), (LNQ_PLLp_STAT_LOCK 1 0, 1), (LNQ_Li_PWR_TX_STATE 5, 2)]
theorem test_cdr : after (.cdrLock 5) (wfs on [(LNQ_Li_PWR_RX_STATE 5, 1), (LNQ_PLLp_STAT_LOCK 1 0, 1)]) (fun e => e.bit (LNQ_Li_STAT_CDR_LOCK 5) && e.rxState 5 == 2) = true ∧
    after (.cdrLockLoss 5 true) (wfs on rxOn) (fun e => !e.bit (LNQ_Li_STAT_CDR_LOCK 5) && e.bit (LNQ_Li_STAT_SIG_DET 5) && logged on e 0x15 1 .warn [5, 0, 1, 0, 0]) = true := by decide +kernel
theorem test_adapt : after (.eyeSweepEnd 5 { threshold := List.replicate 64 0, phase := List.replicate 32 0 ++ List.replicate 32 9999 } none) (wfs on (rxOn ++ [(LNQ_Li_STAT_PHASE 5, 1)])) (fun e => e.rf (LNQ_Li_EYE_SCORE 5) == 255 && (e.lane 5).acqBest == some (255, 0)) = true ∧
    after (.acquireEnd 5) (lanes { Lane.idle with
      acqCode := 16
      acqBest := some (9, 4) } [(LNQ_Li_STAT_PHASE 5, 1), (LNQ_Li_ADAPT_MIN_SCORE 5, 10)])
      (fun e => e.rf (LNQ_Li_EYE_CTLE 5) == 4 && e.rf (LNQ_Li_STAT_PHASE 5) == 2 && logged on e 0x15 5 .warn [5, 0, 9, 4, 0]) = true := by decide +kernel
theorem test_block_lock : after (.blockLock 5) (lanes { Lane.idle with hdrGood := 64 } rxOn) (fun e => e.bit (LNQ_Li_STAT_BLK_LOCK 5)) = true ∧
    after (.blockLock 5) (lanes { Lane.idle with hdrGood := 63 } rxOn) (fun e => !e.bit (LNQ_Li_STAT_BLK_LOCK 5)) = true ∧
    after (.blockLockLoss 5) (lanes { Lane.idle with hdrBad := List.replicate 16 true } [(LNQ_Li_STAT_BLK_LOCK 5, 1)]) (fun e => e.bit (LNQ_Li_STAT_BLK_LOSS 5) && logged on e 0x15 2 .warn [5, 0, 0, 0, 0]) = true ∧
    after (.hberWindowEnd 5) (lanes { Lane.idle with hber := 300 } [(LNQ_Li_STAT_BLK_LOCK 5, 1)]) (fun e => e.bit (LNQ_Li_STAT_HI_BER 5) && logged on e 0x15 3 .warn [5, 0, 44, 1, 0]) = true ∧
    after (.hberWindowEnd 5) (wfs on [(LNQ_Li_STAT_BLK_LOCK 5, 1), (LNQ_Li_STAT_HI_BER 5, 1)]) (fun e => !e.bit (LNQ_Li_STAT_HI_BER 5)) = true ∧
    after (.hberWindowEnd 5) (lanes { Lane.idle with hberAt := 90000 } [(LNQ_Li_STAT_BLK_LOCK 5, 1), (LNQ_Li_STAT_HI_BER 5, 1)]) (fun e => e.bit (LNQ_Li_STAT_HI_BER 5)) = true := by decide +kernel
theorem test_slip : after (.slip 5) (lanes { Lane.idle with bound := 65 } [(LNQ_Li_CFG_MODE 5, 2)]) (fun e => (e.lane 5).bound == 0) = true ∧
    after (.slip 5) on (fun e => e == on) = true := by decide +kernel
def blk7 : LaneBlock := { hdr := 1, data := 7 }
def noScr : List (RF × Nat) := [(LNQ_Li_CFG_SCR_EN 5, 0)]
theorem test_lane_tx : (wfs on (rxOn ++ noScr)).quadLive 5 = true ∧ (wfs on (rxOn ++ noScr)).txPllLock 5 = true ∧
    on.siteLive 5 = true ∧ after (.txBlock 5 (some blk7) []) (wfs on (rxOn ++ noScr ++ [(LNQ_Li_CFG_OWNER 5, 2)])) (fun e => e.outs == [.laneTx 5 1 7] && (e.lane 5).sentData) = true ∧
    after (.txBlock 5 none []) (lanes { Lane.idle with sentData := true } (rxOn ++ noScr)) (fun e => logged on e 0x15 11 .note [5, 0, 0, 0, 0]) = true := by decide +kernel
theorem test_lane_rx : after (.rxBlock 5 blk7 none [9]) (wfs on (rxOn ++ [(LNQ_Li_CFG_MODE 5, 1), (LNQ_Li_CFG_OWNER 5, 2)])) (fun e => e.outs == [.laneRx 5 1 7 false 9] && e.rf (LNQ_Li_RXLAT_WAIT 5) == 9) = true ∧
    after (.rxBlock 5 blk7 none []) (lanes { Lane.idle with bound := 1 } (rxOn ++ [(LNQ_Li_CFG_MODE 5, 2)])) (fun e => (e.lane 5).eb == [({ hdr := 2, data := 14 }, false)]) = true ∧
    after (.rxBlock 5 blk7 none []) (lanes { Lane.idle with eb := List.replicate 32 (blk7, false) } (rxOn ++ [(LNQ_Li_CFG_MODE 5, 1)])) (fun e => e.rf (LNQ_Li_CNT_EB_DROP 5) == 1 && logged on e 0x15 8 .warn [5, 0, 0, 0, 0]) = true := by decide +kernel
theorem test_lane_slot : after (.cdrLockLoss 5 true) (wfs on (rxOn ++ [(CTY_REFn_CFG_KIND 2, 3), (CTY_REFn_CFG_NUM 2, 5), (CTY_REFn_CFG_EN 2, 1), (CTY_REFn_STAT_QSTATE 2, 2)])) (fun e => e.rf (CTY_REFn_STAT_QSTATE 2) == 0 && e.bit (CTY_REFn_STAT_LOS 2)) = true ∧
    after (.eyeSweepEnd 5 { threshold := [], phase := [] } none) (lanes { Lane.idle with trialDue := true, trialUp := some true } (rxOn ++ [(LNQ_Li_STAT_PHASE 5, 2)])) (fun e => !(e.lane 5).trialDue && (e.lane 5).trialUp == some false) = true := by decide +kernel
theorem test_lane_settings : reach on (LNQ_Li_TXEQ 5) = true ∧ reach on (LNQ_Li_TEST 5) = true ∧
    after (.txeqWrite .host 5 (4 + 24 * 32 + 20 * 2048)) on (fun e => e.rf (LNQ_Li_TXEQ_POST 5) == 20) = true ∧
    after (.txeqWrite .host 5 (5 + 24 * 32 + 20 * 2048)) on (fun e => logged on e 0x15 10 .warn [1, 1, 16, 0, 0]) = true ∧
    after (.inj .host 5 0) on (fun e => (e.lane 5).inject) = true ∧
    after (.loopbackWrite .host 5 0x801) on (fun e => e.rf (LNQ_Li_TEST_LOOP 5) == 1 && e.bit (LNQ_Li_TEST_CHK_EN 5)) = true := by decide +kernel
theorem test_checker : after (.patternCheckerSync 5) (lanes { Lane.idle with chk := { Checker.idle with seen := 64, hist := 0xAAAAAAAAAAAAAAAA } } [(LNQ_Li_TEST_CHK_EN 5, 1), (LNQ_Li_TEST_CHK 5, 6), (LNQ_Li_UPAT_LO_UPAT 5, 0x55555555), (LNQ_Li_UPAT_HI_UPAT 5, 0x55555555)]) (fun e => e.bit (LNQ_Li_TEST_CHK_SYNC 5)) = true ∧
    after (.patternCheckerSync 5) (lanes { Lane.idle with chk := { Checker.idle with lost := true } } [(LNQ_Li_TEST_CHK_EN 5, 1), (LNQ_Li_TEST_CHK_SYNC 5, 1)])
      (fun e => !e.bit (LNQ_Li_TEST_CHK_SYNC 5) && logged on e 0x15 9 .note [5, 0, 0, 0, 0]) = true := by decide +kernel

/-! ## MACs and converter links -/

/-- MAC 1 of die 0, enabled at 10GBASE-R on lane 16, whose lane is set up for it. -/
def macOn : List (RF × Nat) := [(ETH_CFG_EN 1, 1), (LNQ_Li_CFG_OWNER 16, 2), (ETH_CFG_MAX_LEN 1, 1518), (LNQ_Li_STAT_BLK_LOCK 16, 1)]
def lane16 : List (RF × Nat) := [(LNQ_Li_CFG_OWNER 16, 2), (LNQ_PLLp_RATE_RATE 4 0, 20625000), (LNQ_Li_CFG_TX_DIV 16, 1), (LNQ_Li_CFG_RX_DIV 16, 1)]
theorem test_mac_enable : reach on (ETH_CFG 1) = true ∧ (wfs on lane16).macLanesFit 1 1 = true ∧
    after (.macEnable .host 1 1) (wfs on lane16) (fun e => e.bit (ETH_CFG_EN 1) && e.bit (ETH_STAT_LF 1) && !e.bit (ETH_STAT_LINK 1)) = true ∧
    after (.macEnable .host 1 1) on (fun e => logged on e 0x16 10 .warn [1, 0, 0, 0, 0]) = true ∧
    after (.macEnable .host 1 0) (wfs on (macOn ++ [(ETH_STAT_LINK 1, 1)])) (fun e => !e.bit (ETH_CFG_EN 1) && !e.bit (ETH_STAT_LINK 1)) = true := by decide +kernel
def noFec : FecCount := { corr := 0, uncorr := 0 }
theorem test_mac_faults : (wfs on macOn).macLive 1 = true ∧
    after (.linkFaultChange 1 false true false false noFec) (wfs on macOn) (fun e => e.bit (ETH_STAT_RF 1) && !e.bit (ETH_STAT_LF 1) && e.outs == [.ethFault 1 false true]) = true ∧
    after (.linkFaultChange 1 false false false false noFec) (wfs on macOn) (fun e => e.bit (ETH_STAT_LINK 1) && logged on e 0x16 1 .note [1, 1, 0, 0, 0]) = true ∧
    after (.alignmentLoss 4 3 noFec) (wfs on [(ETH_CFG_EN 4, 1), (ETH_CFG_SPEED 4, 2), (ETH_STAT_LINK 4, 1)]) (fun e => e.bit (ETH_STAT_LF 4) && logged on e 0x16 9 .warn [4, 3, 0, 0, 0]) = true := by decide +kernel
def body60 : List Byte := List.replicate 12 0 ++ [0x08, 0x00] ++ List.replicate 46 7
def frame64 : List Byte := body60 ++ leBytes 4 (crc32 body60).toNat
def headOf (b : List Byte) : RxHead :=
  { ts := 5, bytes := b, parsed := (wfs on macOn).ecpParse 1 b }
/-- MAC 1 with a header received, and its frame's end. -/
def rxMac (b : List Byte) (r : List (RF × Nat)) : Dev := { wfs on (macOn ++ r) with eth := { on.eth with macs := [(1, { Mac.idle with rxNow := some (headOf b) })] } }
def rxTail (b : List Byte) : Instr := .rxFrame 1 (.tail b false false noFec false [])
theorem test_mac_rx : (headOf (frame64.take 30)).parsed.bad = none ∧
    after (rxTail (frame64.drop 30)) (rxMac (frame64.take 30) []) (fun e => e.rf (ETH_RXF_COUNT 1) == 1 && e.outs.length == 1) = true ∧
    after (rxTail (List.replicate 34 7)) (rxMac (List.replicate 30 7) []) (fun e => e.rf (ETH_RXE_FCS 1) == 1) = true ∧
    after (rxTail (List.replicate 33 7)) (rxMac (List.replicate 30 7) []) (fun e => e.rf (ETH_RXE_DISC 1) == 1) = true := by decide +kernel
theorem test_mac_rx_full : after (rxTail (frame64.drop 30)) { rxMac [] [] with eth := { on.eth with macs := [(1, { Mac.idle with
      rxNow := some (headOf (frame64.take 30))
      rxHeld := [(0, 16325)] })] } } (fun e => e.rf (ETH_OVF_OVF 1) == 1 && e.outs == []) = true := by decide +kernel
/-- The start of a frame on a lane of 20,625,000 / 2 kb/s at tick 0 of a device whose time of day stands: 180 UI before. -/
def point0 : StampPoint := { sub := 0, wait := 0, deskew := 0 }
theorem test_mac_head : after (.rxFrame 1 (.head point0 body60)) (wfs on macOn) (fun e => ((e.mac 1).rxNow.map (·.bytes)) == some body60) = true := by decide +kernel
/-- The check sequence of a frame of no bytes, and of the byte 0, as IEEE 802.3 gives them. -/
theorem test_crc32 : crc32 [] = 0 ∧ crc32 [0] = 0xD202EF8D := by decide +kernel
def tx60 : EthTx := { bytes := body60, poison := false, tsReq := true, tsTag := 9, oneStep := false, tsOfs := 0, csumOfs := 0 }
theorem test_mac_tx : after (.txFrame 1 (.frame tx60) point0) (wfs on (macOn ++ [(ETH_STAT_LINK 1, 1)])) (fun e => e.outs == [.ethReady 1 true, .ethTx 1 frame64] && (e.mac 1).tsWait.map (·.1) == [9]) = true ∧
    after (.txFrame 1 (.frame { tx60 with bytes := List.replicate 1515 0 }) point0) (wfs on macOn) (fun e => e.outs == [.ethReady 1 true, .ethReject 1 1] && logged on e 0x16 6 .warn [1, 0xEB, 5, 0, 0]) = true := by decide +kernel
def stamped (x : Mac) : Dev := { on with eth := { on.eth with macs := [(1, x)] } }
theorem test_timestamps : after (.txTimestamp 1) (stamped { Mac.idle with tsWait := [(9, 77), (8, 78)] }) (fun e => (e.mac 1).tsWait == [(8, 78)] && (e.mac 1).txts == [(9, 77)]) = true ∧
    after (.txTimestamp 1) (stamped { Mac.idle with
      tsWait := [(9, 77)]
      txts := List.replicate 64 (1, 1) }) (fun e => e.bit (ETH_STAT_TS_OVF 1) && logged on e 0x16 7 .note [1, 9, 0, 0, 0]) = true ∧
    reach on (ETH_TXTS_TAG 1) = true ∧ after (.txtsTagRead .host 1) on (fun e => e.resp == .data 0) = true ∧
    after (.txtsTagRead .host 1) (stamped { Mac.idle with txts := [(9, 3 * 2 ^ 48 + 5 * 2 ^ 16)] }) (fun e => e.resp == .data 0x10009 && e.rd (ETH_TXTS_SEC 1) == 3 && e.rd (ETH_TXTS_NS 1) == 5) = true := by decide +kernel
/-- Link 0 on lane 0 at 16 times 2,027,520 kb/s with E = 1 and an RBD of 8: P_E is 16. -/
def link0 : List (RF × Nat) := [(JLK_LANES_MASK 0, 1), (LNQ_Li_CFG_OWNER 0, 3), (LNQ_PLLp_RATE_RATE 0 0, 32440320), (CTY_SYSs_PER_PER 0, 32)]
def linkOn (st : Nat) (tx : Nat) : Dev := wfs on (link0 ++ [(JLK_CFG_EN 0, 1), (JLK_CFG_DIR 0, tx), (JLK_CFG_RBD 0, 7), (JLK_STAT_STATE 0, st), (JLK_INFO_O 0, 16),
  (JLK_INFO_L 0, 1), (JLK_INFO_PE 0, 16), (LNQ_Li_STAT_BLK_LOCK 0, 1)])
theorem test_link_start : reach on (JLK_CFG 0) = true ∧ (wfs on link0).linkCheck 0 0x8041 = (0, 16, 16) ∧
    after (.linkEnable .host 0 0x8041) (wfs on link0) (fun e => e.rf (JLK_STAT_STATE 0) == jALIGN && e.rf (JLK_INFO_PE 0) == 16 && (e.jlk 0).runFrom == 100064) = true ∧
    after (.linkEnable .host 0 0x11041) (wfs on link0) (fun e => !e.bit (JLK_CFG_EN 0) && e.rf (JLK_STAT_START 0) == 8 && logged on e 0x17 2 .warn [0, 8, 0, 0, 0]) = true ∧
    after (.linkEnable .host 0 0) (linkOn 3 0) (fun e => e.rf (JLK_STAT_STATE 0) == jOFF) = true := by decide +kernel
theorem test_link_run : (linkOn 1 0).linkLive 0 = true ∧ after (.embLock 0) (linkOn 1 0) (fun e => e.rf (JLK_STAT_STATE 0) == jWAIT) = true ∧
    after (.lemcBoundary 0) (linkOn 2 0) (fun e => e.rf (JLK_STAT_STATE 0) == jRUN && logged on e 0x17 1 .info [0, 2, 3, 0, 0]) = true ∧
    after (.lemcBoundary 0) (linkOn 1 1) (fun e => e.rf (JLK_STAT_STATE 0) == jRUN) = true ∧
    after (.embLockLoss 0 3) (linkOn 3 0) (fun e => e.rf (JLK_STAT_STATE 0) == jALIGN && logged on e 0x17 5 .warn [0, 3, 0, 0, 0]) = true := by decide +kernel
def linkRx (x : Jlk) : Dev := { linkOn 3 0 with eth := { on.eth with links := [(0, x)] } }
/-- The word released at tick 100,000 began 7 ticks before: 16 octets from number 99,993 · 16 on. -/
theorem test_link_words : after (.rxLinkWord 0 []) (linkRx { Jlk.idle with rx := [(0, { LinkLane.idle with
        q := List.replicate 16 (5, false)
        pos := some 1599888 })] }) (fun e => e.outs == [.jlkRx 0 false (List.replicate 16 5) 0]) = true ∧
    after (.rxLinkWord 0 []) (linkRx { Jlk.idle with lateNow := true })
      (fun e => e.outs == [.jlkRx 0 false (List.replicate 16 0) 0xFFFF] && e.rf (JLK_CNT_LATE 0) == 1) = true ∧
    after (.txLinkWord 0 none) (linkOn 3 1) (fun e => e.outs == [.jlkTx 0 100002 false (List.replicate 16 0)]) = true ∧
    after (.txLinkWord 0 (some { octets := List.replicate 16 5, poison := 0 })) (linkOn 3 1) (fun e => e.outs == [.jlkTx 0 100002 false (List.replicate 16 5)]) = true ∧
    after (.txLinkWord 0 (some { octets := List.replicate 16 5, poison := 0 })) (linkOn 1 1) (fun e => e.outs == [.jlkTx 0 100002 false (List.replicate 16 0)]) = true := by decide +kernel

/-! ## Mesh -/

/-- Port 2 up, its neighbour expecting nothing; the device in mesh state `st`. -/
def meshDev (st pst : Nat) (m : Mesh) (l : List (RF × Nat)) : Dev :=
  { wfs on ([(MSH_STAT_STATE, st), (MSH_CFG_EN, 1), (MSH_PORTp_STAT_STATE 2, pst), (MSH_STAT_NUM, 5)] ++ l) with mesh := m }
def noMesh : Mesh := Mesh.reset
/-- Port 2 has granted its neighbour 64 units of VC 0. -/
def granted : Mesh := { Mesh.reset with ports := [(2, { MeshPort.idle with grant := [(0, 64)] })] }
def hdr (typ : BitVec 4) (seq : BitVec 12) : MeshHdr := { typ := typ, vc := false, dst := 0x3FF, src := 9, seq := seq, len := 0, resv := 0, crcOk := true }
theorem test_mesh_check : (meshDev 3 2 noMesh []).meshLive = true ∧
    after (.credit 2 { hdr 5 0 with crcOk := false } false 3) (meshDev 3 2 noMesh []) (fun e => e.rf (MSH_PORTp_CNT_CRC 2) == 1 && e.outs == [.meshTx 2 false 0x3FF 5 0 (.nak 0)]) = true ∧
    after (.credit 2 (hdr 5 1) false 3) (meshDev 3 2 noMesh []) (fun e => e.mport 2 == MeshPort.idle && e.outs.length == 1) = true ∧
    after (.credit 2 (hdr 5 0) false 3) (meshDev 3 2 noMesh []) (fun e => SMap.at 0 (e.mport 2).credit 0 == 3 && SMap.at 0 (e.mport 2).rxSeq 0 == 1 && e.outs == [.meshTx 2 false 0x3FF 5 0 (.ack 0)]) = true := by decide +kernel
def kept2 (n : Nat) : Mesh := { noMesh with ports := [(2, { MeshPort.idle with kept := [
  { pkt := { vc := false, dst := 0, src := 0, body := .delay }, seq := 4, sent := 90000, resends := n },
  { pkt := { vc := false, dst := 0, src := 0, body := .delay }, seq := 5, sent := 95000, resends := 0 }] })] }
theorem test_mesh_replay : after (.ack 2 (hdr 3 4)) (meshDev 3 2 (kept2 0) []) (fun e => (e.mport 2).kept.map (·.seq) == [5]) = true ∧
    after (.nak 2 (hdr 4 5)) (meshDev 3 2 (kept2 0) []) (fun e => e.rf (MSH_PORTp_CNT_RETRY 2) == 1 && e.outs.length == 1) = true ∧
    after (.nak 2 (hdr 4 4)) (meshDev 3 2 (kept2 16) []) (fun e => e.pstate 2 == mDOWN) = true ∧
    after (.replayTimeout 2) (meshDev 3 2 (kept2 0) []) (fun e => e.rf (MSH_PORTp_CNT_RETRY 2) == 2 && (e.mport 2).kept.length == 2) = true ∧
    after (.replayTimeout 2) (meshDev 3 2 (kept2 16) []) (fun e => e.pstate 2 == mDOWN && e.rf (MSH_PORTp_STAT_CAUSE 2) == cRETRY) = true := by decide +kernel
/-- Lane 8 of quad 2 fits a port of one lane on quad 2. -/
def lane8 : List (RF × Nat) := [(LNQ_Li_CFG_OWNER 8, 4), (LNQ_PLLp_RATE_RATE 2 0, 25781250), (LNQ_Li_STAT_BLK_LOCK 8, 1), (MSH_PORTp_CFG_QUAD 2, 2), (MSH_PORTp_CFG_EN 2, 1)]
theorem test_mesh_port : reach on (MSH_PORTp_CFG 2) = true ∧ ((wfs on lane8).ok.plainWrite (MSH_PORTp_CFG 2) 0x21).portFits 2 = true ∧
    after (.meshPortEnable .host 2 0x21) (wfs on lane8) (fun e => e.pstate 2 == mTRAINING && e.bit MSH_EVT_LINK && e.txState 8 == lWAKING) = true ∧
    after (.meshPortEnable .host 2 0x31) (wfs on lane8) (fun e => e.pstate 2 == mDOWN && !e.bit (MSH_PORTp_CFG_EN 2) && logged on e 12 13 .warn [2, 0, 7, 0, 0]) = true := by decide +kernel
def trained (n : Nat) : Mesh := { noMesh with ports := [(2, { MeshPort.idle with
  helloAt := some 97952
  delays := n })] }
theorem test_mesh_train : ((meshDev 1 1 (trained 3) lane8).meshTake 2 (hdr 1 0) 1).1 = true ∧
    after (.hello 2 (hdr 1 0) (.hello 77 3 0xABC)) (meshDev 1 1 noMesh lane8) (fun e => e.rf (MSH_PORTp_STAT_PEER 2) == 77 && e.rf (MSH_PORTp_STAT_PEER_PORT 2) == 3 && (e.mport 2).helloAt == some 100000) = true ∧
    after (.delayExchangeStart 2) (meshDev 1 1 (trained 3) lane8) (fun e => e.outs == [.meshTx 2 false 0x3FF 5 0 .delay]) = true ∧
    after (.delay 2 (hdr 2 0) 90000 5 120000) (meshDev 1 1 (trained 3) lane8) (fun e => (e.mport 2).delays == 4 && e.rd (MSH_PORTp_DLY 2) == 120000) = true ∧
    after (.delay 2 (hdr 2 0) 90000 5 120001) (meshDev 1 1 (trained 3) lane8) (fun e => e.pstate 2 == mHELD && e.rf (MSH_PORTp_STAT_CAUSE 2) == cLONG) = true := by decide +kernel
theorem test_mesh_up : after (.linkUp 2 none) (meshDev 1 1 (trained 16) ((MSH_CFG_ROOT_ELIG, 0) :: lane8)) (fun e => e.pstate 2 == mUP && e.mstate == mSEEK && logged on e 12 1 .info [2, 0, 0, 0, 0]) = true ∧
    after (.linkUp 2 none) (meshDev 3 1 (trained 16) lane8) (fun e => e.pstate 2 == mUP && e.mstate == mMEMBER) = true ∧
    after (.holdEnd 2) { meshDev 1 3 noMesh [(MSH_PORTp_STAT_CAUSE 2, 6)] with slate := 300000000 } (fun e => e.pstate 2 == mDOWN) = true := by decide +kernel
theorem test_mesh_enable : reach on MSH_CFG = true ∧ after (.meshEnable .host 1) (wfs on [(MSH_CFG_EN, 0), (MSH_ID_STRAP, 12)]) (fun e => e.mstate == mALONE && e.rf MSH_STAT_NUM == 12) = true ∧
    after (.meshEnable .host 0) (meshDev 3 2 noMesh []) (fun e => e.mstate == mOFF) = true := by decide +kernel
def keyB (prio : BitVec 4) : RootKey := { num := 7, prio := prio, strap := 1, serial := 1 }
def later (d : Dev) : Dev := { d with slate := 245760 * 1000 }
theorem test_settle : after .settleExpiry (later (meshDev 2 2 { noMesh with best := some (keyB 9) } [(MSH_CFG_ROOT_ELIG, 1), (MSH_CFG_NUM_MODE, 1)])) (fun e => e.mstate == mROOT && e.rf MSH_STAT_NUM == 0) = true ∧
    after .settleExpiry (later (meshDev 2 2 { noMesh with best := some (keyB 0) } [(MSH_CFG_ROOT_ELIG, 1), (MSH_CFG_PRIO, 1)])) (fun e => e.mstate == mMEMBER && e.rf MSH_STAT_ROOT == 7) = true := by decide +kernel
/-- A MAP of two devices: the root, serial 1, whose port 4 meets this device's port 2 (serial 0). -/
def map2 (root : Word) : MeshMap := { root := { keyB 0 with serial := root }, fresh := false, count := 100000, devs := [
  { serial := 1, strap := 7, num := none, links := [{ port := 4, peer := 0, peerPort := 2 }] },
  { serial := 0, strap := 3, num := none, links := [{ port := 2, peer := 1, peerPort := 4 }] }] }
theorem test_map : after (.map (some (2, hdr 7 0)) (map2 1) 0) (meshDev 2 2 granted []) (fun e => e.mstate == mMEMBER && e.rf MSH_STAT_NUM == 3 && e.rf MSH_STAT_ROOT == 7 &&
      e.rf MSH_TOPO_UP == 2 && e.bit (MSH_RTd_VALID 7) && e.rf (MSH_RTd_PORT 7) == 2 && e.rf (MSH_RTd_HOPS 7) == 1) = true ∧
    after (.map none (map2 0) 0) (meshDev 4 1 noMesh []) (fun e => e.mstate == mROOT && e.mesh.kids == [2]) = true := by decide +kernel
theorem test_beats : after .beatSend (later (meshDev 4 2 { noMesh with root := some (keyB 0) } [])) (fun e => e.outs == []) = true ∧
    after .beatSend (meshDev 4 2 { noMesh with root := some (keyB 0) } []) (fun e => e.outs == []) = true ∧
    after (.beat 2 (hdr 6 0) (keyB 0) 245760) (meshDev 3 2 granted []) (fun e => e.mesh.beat == 245760) = true ∧
    after .rootLost (later (meshDev 3 2 noMesh [(MSH_CFG_ROOT_ELIG, 0)])) (fun e => e.mstate == mSEEK && logged (later on) e 12 5 .error [0, 0, 0, 0, 0]) = true := by decide +kernel
def clp (l : List (RF × Nat)) (m : Mesh) (st : Nat) : Dev := meshDev st 2 m ([(MSH_CLP_TICK_LO_TICK, 200000), (MSH_CLP_ARG_ID, 8), (MSH_TOPO_DEPTH, 2)] ++ l)
def clap8 (kind : BitVec 3) (tick : BitVec 64) : Clap := { kind := kind, id := 8, origin := 5, tick := tick, argKind := 0, target := 0, data := 0 }
theorem test_clap_go : reach on MSH_CLP_CTL = true ∧
    after (.broadcastClapper .host 1) (clp [] noMesh 4) (fun e => e.mesh.pend == [{ c := clap8 1 200000, slot := none, timeout := false }] && e.rf MSH_CLP_CTL_STATE == 1) = true ∧
    after (.snapshotClapper .host 1) (clp [] noMesh 4) (fun e => e.mesh.pend == [{ c := clap8 3 200000, slot := none, timeout := false }]) = true ∧
    after (.resetClapper .host 1) (clp [] noMesh 4) (fun e => e.mesh.pend == [{ c := clap8 4 200000, slot := none, timeout := false }]) = true ∧
    after (.broadcastClapper .host 1) (clp [(MSH_CLP_TICK_LO_TICK, 100075)] noMesh 4) (fun e => e.mesh.pend == [] && e.rf MSH_CLP_CTL_STATUS == 6) = true ∧
    after (.cutClapper .host 1) (clp [(MSH_CLP_ARG_KIND, 5), (MSH_CLP_ARG_TARGET, 3)] noMesh 4) (fun e => e.cut 0 == { armedSlot 5 3 200000 with confirmed := true } && e.mesh.pend.length == 1) = true := by decide +kernel
theorem test_clap_go2 : after (.barrierClapper .host 1) (clp [(MSH_CLP_ARG_KIND, 6)] noMesh 4) (fun e => (e.bar 6).map (·.id) == some (some 8) && e.mesh.pend == []) = true ∧
    after (.broadcastClapper .host 1) (clp [] noMesh 3) (fun e => e.rf MSH_CLP_CTL_STATE == 1 && e.mesh.pend == [] && e.mesh.orig == some (clap8 1 200000)) = true ∧
    after (.snapshotClapper .host 1) (clp [] noMesh 1) (fun e => e.rf MSH_CLP_CTL_STATUS == 4 && e.mesh.orig == none) = true ∧
    after (.clapperCancel .host 2) (clp [(MSH_CLP_CTL_STATE, 1)] { noMesh with
      orig := some (clap8 1 200000)
      pend := [{ c := clap8 1 200000, slot := none, timeout := false }] } 4) (fun e => e.mesh.pend == []) = true := by decide +kernel
theorem test_clap_packets : (clp [] granted 3).inSystem = true ∧ ((clp [] granted 3).meshTake 2 (hdr 8 0) 8).1 = true ∧
    after (.clapper 2 (hdr 8 0) (.clapper (clap8 1 200000))) (clp [] granted 3) (fun e => e.mesh.pend.length == 1) = true ∧
    after (.clapper 2 (hdr 8 0) (.clapper (clap8 1 100001))) (clp [] granted 3) (fun e => e.mesh.pend == [] && logged on e 12 9 .error [1, 8, 6, 5, 0]) = true ∧
    after (.report 2 (hdr 9 0) { origin := 5, kind := 1, id := 8, status := 6 }) (clp [(MSH_CLP_CTL_STATE, 1)] { granted with orig := some (clap8 1 200000) } 4)
      (fun e => e.rf MSH_CLP_CTL_FAILS == 1 && e.rf MSH_CLP_CTL_STATUS == 6) = true := by decide +kernel
def due1 (k : BitVec 3) : Mesh := { noMesh with pend := [{ c := clap8 k 100000, slot := none, timeout := true }] }
theorem test_clap_run : after .clapperExecute (clp [] (due1 1) 3) (fun e => e.bit MSH_EVT_RXB && e.rf MSH_RXB_STAT_SRC == 5 && e.outs == [.clpExec 1 1 8, .clpExec 0 1 8] && logged on e 12 10 .info [1, 8, 5, 0, 0]) = true ∧
    after .clapperExecute (clp [(CTY_TE_BOUND_BOUND, 44)] (due1 3) 3) (fun e => e.bit MSH_EVT_SNAP && e.rd MSH_SNAP_BOUND == 44) = true ∧
    after .clapperExecute (clp [] (due1 2) 3) (fun e => e.bit MSH_EVT_BAR_REL && e.rf MSH_BAR_STATUS == 2) = true ∧
    after .clapperOriginEnd (clp [(MSH_CLP_CTL_STATE, 1)] { noMesh with orig := some (clap8 1 99860) } 4) (fun e => e.rf MSH_CLP_CTL_STATE == 2 && e.bit MSH_EVT_CLP_DONE) = true ∧
    after .clapperOriginEnd (clp [(MSH_CLP_CTL_STATE, 1), (MSH_CLP_CTL_FAILS, 1)] { noMesh with orig := some (clap8 1 99860) } 4) (fun e => e.rf MSH_CLP_CTL_STATE == 3) = true := by decide +kernel
theorem test_barriers : reach on MSH_BAR = true ∧ after (.barrierArrive (.write .host 6)) (clp [] { noMesh with kids := [3] } 4) (fun e => (e.bar 6).map (·.self) == some true && e.mesh.pend == []) = true ∧
    (sited on).tileDead 0 57 0 = none ∧ after (.barrierArrive (.write .host 6)) (clp [] noMesh 3) (fun e => (e.bar 6).map (·.passed) == some true) = true ∧
    after (.barrierArrive (.write .host 6)) (clp [] noMesh 4) (fun e => e.mesh.pend.map (fun q => (q.c.argKind, q.c.tick, q.timeout)) == [(6, 100076, false)]) = true ∧
    after (.barrierTimeout 6) (later (clp [] { noMesh with
      kids := [3]
      bars := [(6, some { self := true, kids := [], passed := false, firstAt := 0, id := some 8 })] } 4)) (fun e => e.mesh.pend.map (fun q => (q.c.tick, q.timeout)) == [(245760076, true)]) = true := by decide +kernel
theorem test_data : after (.data 2 { hdr 10 0 with dst := 5 } 99990 [1, 2]) (clp [(MSH_RTd_HOPS 9, 1)] granted 3) (fun e => e.mesh.dataIn == [{ due := 100044, src := 9, bytes := [1, 2] }]) = true ∧
    after (.data 2 { hdr 10 0 with dst := 5 } 99900 [1, 2]) (clp [(MSH_RTd_HOPS 9, 1)] granted 3) (fun e => e.rf MSH_CNT_LATE == 1 && e.outs.contains (.meshData 9 [1, 2] true)) = true ∧
    after .dataDelivery (clp [] { noMesh with dataIn := [{ due := 100000, src := 9, bytes := [1] }, { due := 100001, src := 9, bytes := [2] }] } 3)
      (fun e => e.outs == [.meshData 9 [1] false] && e.mesh.dataIn.length == 1) = true := by decide +kernel

/-! ## DRAM and its protection -/

/-- Channel 0 in state `q`, the only member, with controller state `x`. -/
def dramDev (q : Nat) (x : Dmc) (l : List (RF × Nat)) : Dev :=
  let d := wfs on ([(DMC_STAT_STATE 0, q), (DMC_CFG_EN 0, 1), (DMC_STAT_TRAINED 0, 3), (MPE_CFG_CHMASK, 1)] ++ l)
  { d with mem := { d.mem with dmc := [(0, x)] } }
def rdm : Dmc := Dmc.idle
/-- A read of the burst at 64 × k, accepted at tick 90,000. -/
def burst (k : Nat) : DramBurst := { port := 3, addr := 64 * k, write := false, at_ := 90000, urgent := false, served := false }
theorem test_bursts : (dramDev 3 rdm []).live = true ∧ (dramDev 3 rdm []).dmcLive 0 = true ∧
    after (.burstRequest 0 5 0x400000000 true false) (dramDev 3 rdm []) (fun e => e.outs == [.burst 0 5 0x400000000 true 4] && e.rf (DMC_CNT_ADDR_ERR 0) == 1 && logged on e 7 10 .warn [5, 0, 16, 0, 0]) = true ∧
    after (.burstRequest 0 5 0x40 true false) (dramDev 1 rdm []) (fun e => e.outs == [.burst 0 5 0x40 true 4]) = true ∧
    after (.burstRequest 0 5 0x40 true false) (dramDev 3 rdm []) (fun e => e.outs == [] && (e.dmc 0).queue == [{ port := 5, addr := 64, write := true, at_ := 100000, urgent := false, served := false }]) = true := by decide +kernel
theorem test_dram_commands : after (.dramCommandSelect 0 true (BitVec.allOnes 64)) (dramDev 3 { rdm with
      queue := [burst 1]
      rows := [(64, some 0)] } []) (fun e => e.outs == [.burst 0 3 64 false 0] && (e.dmc 0).queue == []) = true ∧
    after (.dramCommandSelect 0 true (BitVec.allOnes 64)) (dramDev 3 { rdm with queue := [burst 1] } []) (fun e => e.outs == [] && SMap.at none (e.dmc 0).rows 64 == some 0) = true ∧
    after (.refresh 0 false) (dramDev 3 { rdm with rows := [(3, some 7), (70, some 2)] } []) (fun e => (e.dmc 0).rows == [] && (e.dmc 0).windows == 1) = true ∧
    after (.refresh 0 false) (dramDev 3 { rdm with queue := [{ burst 1 with urgent := true }] } []) (fun e => SMap.at 0 (e.dmc 0).postpone 0 == 1) = true ∧
    after (.refresh 0 false) (dramDev 3 { rdm with refAt := [(0, 100000001)] } []) (fun e => (e.dmc 0).windows == 0) = true ∧
    after (.refreshRateRead 0 true) { dramDev 3 rdm [] with slate := 245760 } (fun e => e.bit (DMC_STAT_HOT 0) && logged { on with slate := 245760 } e 7 12 .note [1, 0, 0, 0, 0]) = true ∧
    after (.refreshWindowEnd 0) (dramDev 3 { rdm with
      windows := 8192
      acts := [(5, some 9)] } []) (fun e => (e.dmc 0).acts == [] && (e.dmc 0).windows == 0) = true ∧
    after (.dqsDriftRead 0 [{ sub := true, rank := false, lane := 2, need := -16 }]) (dramDev 3 { rdm with driftIv := 256 } []) (fun e => SMap.at 0 (e.dmc 0).drift 10 == -1) = true := by decide +kernel
theorem test_dram_training : reach on (DMC_TRAIN 0) = true ∧ reach on (DMC_FCHG 0) = true ∧ reach on (setRegAddr 0 1 .ta) = true ∧ reach on (setRegAddr 0 0 .tb) = true ∧
    after (.trainingStart .host 0 5) (dramDev 1 rdm []) (fun e => e.qstate 0 == qTRAINING && (e.dmc 0).training == 2) = true ∧
    after (.trainingStart .host 0 5) (dramDev 3 rdm []) (fun e => e.qstate 0 == qRUN && e.rf (DMC_TRAIN_STATUS 0) == 4 && logged on e 7 8 .warn [8, 0, 4, 0, 0]) = true ∧
    after (.trainingStart .host 0 5) (dramDev 1 rdm []) (fun e => (e.dmc 0).noLock == !on.bit CKC_STAT_XTAL_OK) = true ∧
    after (.trainingEnd 0 none) (dramDev 2 { rdm with noLock := true } []) (fun e => e.qstate 0 == qTRAINING) = true ∧
    after (.trainingEnd 0 none) (dramDev 2 { rdm with training := 2 } []) (fun e => e.qstate 0 == qSTANDBY && e.isTrained 0 2 && e.rf (DMC_STAT_SET 0) == 2) = true ∧
    after (.trainingEnd 0 (some { step := 7, sub := true, rank := false })) (dramDev 2 { rdm with training := 1 } []) (fun e => e.qstate 0 == qFAILED && !e.isTrained 0 1 && e.rf (DMC_TRAIN_STEP 0) == 7 && logged on e 7 2 .error [1, 7, 1, 0, 0]) = true ∧
    after (.shadowSetWrite .host 0 0 .tb 9) (dramDev 3 rdm []) (fun e => e.rd (setRegAddr 0 0 .tb) == on.rd (setRegAddr 0 0 .tb) && e.bit (DMC_STAT_REFUSED 0)) = true ∧
    after (.shadowSetWrite .host 0 1 .ta 9) (dramDev 3 rdm []) (fun e => !e.isTrained 0 1) = true := by decide +kernel
theorem test_frequency : after (.frequencyChangeRequest .host 0 3) (dramDev 3 rdm []) (fun e => e.qstate 0 == qCHANGING && (e.dmc 0).fchgSet == 1) = true ∧
    after (.frequencyChangeRequest .host 0 11) (dramDev 3 rdm [(DMC_FCHG_AT_LO_AT 0, 100001)]) (fun e => e.qstate 0 == qRUN && e.bit (DMC_FCHG_PENDING 0) && (e.dmc 0).fchgAt == 100001) = true ∧
    after (.frequencyChangeRequest .host 0 5) (dramDev 3 rdm []) (fun e => e.rf (DMC_FCHG_STATUS 0) == 4 && logged on e 7 8 .warn [12, 0, 4, 0, 0]) = true ∧
    after (.frequencyChangeStart 0) (dramDev 3 { rdm with fchgAt := 100000 } [(DMC_FCHG_PENDING 0, 1)]) (fun e => e.qstate 0 == qCHANGING) = true ∧
    after (.frequencyChangeDone 0) (dramDev 4 { rdm with fchgSet := 1 } []) (fun e => e.qstate 0 == qRUN && e.rf (DMC_STAT_SET 0) == 1 && logged on e 7 7 .info [0, 1, e.rateOf 0 1, 0, 0]) = true ∧
    after (.dramClockLoss 0) (dramDev 3 rdm []) (fun e => e.qstate 0 == qFAILED && e.bit (DMC_STAT_CLK_FAIL 0)) = true ∧
    after (.dramRequestTimeout 0) (dramDev 3 { rdm with queue := [{ burst 1 with at_ := 87712 }] } []) (fun e => e.outs == [.burst 0 3 64 false 2] && logged on e 7 3 .error [3, 0, 1, 0, 0]) = true ∧
    elapsed 12287 50000 = false := by decide +kernel
/-- The lone channel serving, in engine state `x`, with sector 0 in the cache. -/
def mpeDev (x : Nat) (l : List (RF × Nat)) : Dev :=
  let d := wfs on ([(DMC_STAT_STATE 0, 3), (DMC_CFG_EN 0, 1), (MPE_CFG_CHMASK, 1), (MPE_CHn_STAT_STATE 0, x)] ++ l)
  { d with mem := { d.mem with cache := [{ n := 0, c := 0, data := 0x0403, poison := false, dirty := false, sat := false }] } }
def anyEnv : SectorEnv := SectorEnv.clean
theorem test_mpe_ports : reach on (DMC_CFG 0) = true ∧ reach on MPE_CFG = true ∧
    after (.portsOpen .host 0 1) (dramDev 1 rdm [(DMC_CFG_EN 0, 0)]) (fun e => e.qstate 0 == qRUN && e.estate 0 == eINIT && (e.mch 0).key == on.mem.start) = true ∧
    after (.portsOpen .host 0 1) (dramDev 0 rdm [(DMC_CFG_EN 0, 0)]) (fun e => e.qstate 0 == 0 && !e.bit (DMC_CFG_EN 0) && e.bit (DMC_STAT_REFUSED 0)) = true ∧
    after (.portsClose .host 0 0) (dramDev 3 rdm []) (fun e => e.qstate 0 == qSTANDBY) = true ∧
    after (.portsClose .host 0 0) (dramDev 3 { rdm with queue := [burst 1] } []) (fun e => e.qstate 0 == qRUN && (e.dmc 0).closing) = true ∧
    after (.chmaskWrite .host 15) on (fun e => e.rf MPE_CFG_CHMASK == 15 && e.rf MPE_CAP_MIB == e.mpeCapacity / 2 ^ 20) = true ∧
    after (.chmaskWrite .host 7) (wfs on [(MPE_CFG_CHMASK, 1)]) (fun e => e.rf MPE_CFG_CHMASK == 1 && e.bit MPE_STAT_REFUSED) = true ∧
    after (.channelInitDone 0) (mpeDev 1 []) (fun e => e.estate 0 == eREADY && logged on e 11 9 .info [0, 0, 0, 0, 0]) = true := by decide +kernel
theorem test_mpe_access : ((mpeDev 2 []).requestBar 7 0 512).isNone = true ∧
    after (.sectorRead 7 false 0x8000000000 512 [anyEnv] noBack) (mpeDev 2 []) (fun e => e.outs == [.mpeRead 7 0 (sectorBytes 0x0403 0 512) (List.replicate 512 false)]) = true ∧
    after (.sectorWrite 7 0x8000000000 (List.replicate 512 1) false [anyEnv] noBack) (mpeDev 2 []) (fun e => e.outs == [.mpeWrite 7 0] && (e.line 0 0).map (·.dirty) == some true) = true ∧
    after (.sectorRead 7 false 0xFFFFFFFE00 512 [anyEnv] noBack) (mpeDev 2 []) (fun e => e.outs == [.mpeRead 7 4 [] []] && logged on e 11 12 .warn [7, 127, 255, 255, 0]) = true ∧
    ((mpeDev 2 []).barred 0x80000000).isNone = true ∧
    after (.dramWindowAccess .host 0 none false anyEnv noBack) (mpeDev 2 []) (fun e => e.resp == .data 0x0403) = true := by decide +kernel
theorem test_mpe_keys : reach on (MPE_CHn_KEY_CTL 0) = true ∧
    after (.keyCutArm .host 0 1) (mpeDev 2 [(⟨MPE_CHn_KEY_TICK_LO 0, 0, 32⟩, 104096)]) (fun e => e.cut 0 == { armedSlot kKEY 0 104096 with confirmed := true } && (e.mch 0).newKey == 1) = true ∧
    after (.keyCutArm .host 0 1) (mpeDev 0 []) (fun e => e.rf (MPE_CHn_KEY_CTL_STATUS 0) == 4 && logged on e 0x0B 7 .warn [0, 4, 0, 0, 0] && logged ((on.on MPE_STAT_REFUSED).mpeLog 0x07 .warn [0, 4, 0, 0, 0]) e 1 3 .warn [kKEY, 0, 0, 4, 0]) = true ∧
    (let c := (mpeDev 2 []).setCut 5 (armedSlot kKEY 0 200000)
     let c := { c with mem := { c.mem with chan := [(0, { MpeChan.off with cutSlot := some 5 })] } }
     c.cancellable 5 = true ∧ after (.keyCutCancel .host 0 2) c (fun e => (e.cut 5).state == .failed && (e.cut 5).status == 5) = true) := by decide +kernel
theorem test_mpe_rotation : after (.rotationRewrite 0 anyEnv noBack) (mpeDev 3 []) (fun e => e.rf (MPE_CHn_BND_BOUND 0) == 8) = true ∧
    (let c := mpeDev 3 []
     let c := { c with mem := { c.mem with chan := [(0, { MpeChan.off with newKey := 3, sectors := [(0, { Sector.zero with ver := 1 })] })] } }
     after (.rotationRewrite 0 anyEnv noBack) c (fun e => e.rf (MPE_CHn_BND_BOUND 0) == 1 && (e.sector 0 0).key == 3 && (e.sector 0 0).ver == 2) = true) ∧
    reach on (MPE_RETn_e 0 0xFF) = true ∧ after (.retireEntryWrite .host 0 0xFF 0xA) on (fun e => e.rf (MPE_RETn_e_KIND 0 255) == 2 && e.rf (MPE_RETn_e_INDEX 0 255) == 2) = true := by decide +kernel

/-! ## Store -/

def nvsDev (l : List (RF × Nat)) (op : Option StoreOp) : Dev := { wfs on l with nvs := { on.nvs with op := op } }
def prog1 (k : Nat) : StoreOp := { op := 0, count := 1, page := 128, data := [0xABCD], pulses := k, since := 0, ran := 0, swSusp := false, holds := [], brown := false }
theorem test_nvs_window : on.live = true ∧ (on.barred NVS_CFG).isNone = true ∧ on.bankBusy 0 = false ∧
    after (.nvsWindowRead .host 4 false .clean) on (fun e => e.resp == .data 0 && e.regs == on.regs) = true ∧
    (let c := { on with nvs := { on.nvs with pages := [(0, { data := 0x44332211, commit := true, torn := false, t := 8 })] } }
     after (.nvsWindowRead .host 0 false .clean) c (fun e => e.resp == .data 0x44332211) = true ∧
     after (.nvsWindowRead .host 0 false .uncorrectable) c (fun e => e.resp == .error && e.bit NVS_STAT_UE && logged on e 4 6 .error [0, 0, 0, 8, 0]) = true) ∧
    after (.nvsWindowRead .host 4 false .clean) (wfs on [(NVS_STAT_STATE, 1)]) (fun e => e.resp == .error && logged on e 4 3 .error [0, 4, 0, 0, 0]) = true := by decide +kernel
theorem test_nvs_go : reach on NVS_CMD = true ∧
    after (.nvsProgram .host 0x10001) (wfs on [(NVS_ADDR_OFFSET, 0x40000), (NVS_SRC_ADDR, 0x100000)]) (fun e => e.nstate == nRUNNING &&
      (e.nvs.op.map (fun o => (o.op, o.count, o.page, o.data)) == some (0, 1, 128, [0]))) = true ∧
    after (.nvsProgram .host 0x410001) on (fun e => e.rf NVS_STAT_STATUS == stLENGTH && e.nvs.op == none) = true ∧
    after (.nvsClear .host 1) (wfs on [(NVS_ADDR_OFFSET, 0x40000)]) (fun e => e.nvs.op.map (fun o => (o.op, o.page)) == some (1, 128)) = true ∧
    after (.bootRecordWrite .host 1) on (fun e => e.rf NVS_STAT_BANK == 24 && e.nvs.op.map (·.page) == some 0x60001) = true ∧
    after (.nvsClear .host 1) (wfs on [(NVS_STAT_STATE, 1)]) (fun e => e.rf NVS_STAT_STATUS == stFULL && logged on e 4 2 .warn [1, 7, 0, 0, 0]) = true := by decide +kernel
theorem test_nvs_suspend : after (.nvsSuspend .host 2) (nvsDev [(NVS_STAT_STATE, 1)] (some (prog1 1))) (fun e => e.nstate == nSUSPENDING) = true ∧
    after (.nvsResume .host 4) (nvsDev [(NVS_STAT_STATE, 3)] (some (prog1 1))) (fun e => e.nstate == nRUNNING && e.nvs.op == some { prog1 1 with since := 100000 }) = true ∧
    after .nvsPulseEnd (nvsDev [(NVS_STAT_STATE, 2)] (some { prog1 1 with ran := 48720 })) (fun e => e.nstate == nSUSPENDED && e.nvs.op == some { prog1 2 with ran := 50000 }) = true ∧
    after .nvsPulseEnd (nvsDev [(NVS_STAT_STATE, 2)] (some { prog1 1 with ran := 48719 })) (fun e => e.nstate == nSUSPENDING) = true := by decide +kernel
theorem test_nvs_pulses : after .nvsPulseEnd (nvsDev [(NVS_STAT_STATE, 1)] (some (prog1 1))) (fun e => e.nstate == nRUNNING && e.nvs.op == some { prog1 2 with ran := 1280 }) = true ∧
    after .nvsPulseEnd (nvsDev [(NVS_STAT_STATE, 1)] (some { prog1 1 with since := 100000 })) (fun e => e.nvs.op == some { prog1 1 with since := 100000 }) = true ∧
    after .nvsPulseEnd (nvsDev [(NVS_STAT_STATE, 1)] (some (prog1 4))) (fun e => e.nstate == nIDLE && e.nvs.op == none && e.page 128 == { data := 0xABCD, commit := true, torn := false, t := max 8 (min 48 (on.rf NVS_CFG_ECC_T)) } && logged on e 4 1 .info [0, 1, 0, 0, 0]) = true ∧
    after .nvsPulseEnd (nvsDev [(NVS_STAT_STATE, 1)] (some { prog1 0 with op := 1 })) (fun e => e.interrupted 1) = true ∧
    after .nvsPulseEnd (nvsDev [(NVS_STAT_STATE, 1)] (some { prog1 32 with op := 1 })) (fun e => e.page 255 == StorePage.blank && e.nvs.op == some { prog1 33 with op := 1, ran := 12500 }) = true ∧
    after .nvsPulseEnd (nvsDev [(NVS_STAT_STATE, 1)] (some { prog1 33 with op := 1 })) (fun e => !e.interrupted 1 && e.nstate == nIDLE && logged on e 4 1 .info [1, 1, 0, 0, 0]) = true := by decide +kernel
theorem test_nvs_brown : after .nvsBrownout (nvsDev [(NVS_STAT_STATE, 1)] (some (prog1 1))) (fun e => e.nvs.op == some { prog1 1 with brown := true }) = true ∧
    after .nvsPulseEnd (nvsDev [(NVS_STAT_STATE, 1)] (some { prog1 1 with brown := true })) (fun e => e.nstate == nIDLE && e.rf NVS_STAT_STATUS == stBROWNOUT && (e.page 128).torn && logged on e 4 8 .error [0, 2, 0, 0, 0]) = true ∧
    after .nvsBrownout (nvsDev [(NVS_STAT_STATE, 3)] (some (prog1 1))) (fun e => e.nvs.op == none && e.rf NVS_STAT_STATUS == stBROWNOUT) = true := by decide +kernel
theorem test_header_scan : on.domainUp 2 = true ∧ on.sup.boot.scanned = false ∧ after .headerScan on (fun e => e.sup.boot.scanned && e.rf NVS_INTR_COUNT == 0 && e.rd NVS_BOOT_STAT == 0) = true ∧
    after .headerScan { on with nvs := { on.nvs with heads := [(7, (0xC1EA71A6, 0))] } } (fun e => e.rf NVS_INTR_FIRST == 7 && e.bit NVS_INTR_VALID && logged on e 4 7 .error [7, 0, 0, 0, 0]) = true := by decide +kernel

/-! ## Keys, loads and images -/

/-- A device with configuration state `c`, and fields written. -/
def cfgDev (c : Cfg) (l : List (RF × Nat)) : Dev := { wfs on l with cfg := c }
def cfg0 : Cfg := on.cfg
theorem test_fuse_key : on.live = true ∧ elapsed (4915200 - 0) 20000000 = true ∧ elapsed (4915199 - 0) 20000000 = false := by decide +kernel
theorem test_key_write : reach on CFG_KEY_CTL = true ∧ on.gaf.good = true ∧
    after (.keyWrite .host 1) (cfgDev { cfg0 with keyMask := 254 } []) (fun e => e.cfg.keyMask == 0 && logged on e 3 9 .warn [0, 0, 0, 0, 0]) = true ∧
    after (.keyWrite .host 5) (cfgDev { cfg0 with keyMask := 255 } []) (fun e => e.cfg.blowing == some (100000, 0)) = true ∧
    elapsed 4915200 20000000 = true ∧ elapsed 4915199 20000000 = false ∧
    after (.keyErase .host 2) (cfgDev { cfg0 with storeKey := some 3 } [(CFG_KEY_STAT_OPTION, 1)]) (fun e => e.cfg.storeKey == none && e.rd CFG_KEY_CHK == 0 && logged on e 3 7 .error [2, 0, 0, 0, 0]) = true ∧
    after (.tamper 100) (cfgDev { cfg0 with storeKey := some 3 } [(CFG_KEY_STAT_OPTION, 1)]) (fun e => e.cfg.storeKey == none && e.bit CFG_KEY_STAT_TAMPER && logged on e 3 7 .error [0, 0, 0, 0, 0]) = true ∧
    after (.tamper 100) { cfgDev cfg0 [(CFG_KEY_STAT_OPTION, 1)] with gaf := { on.gaf with good := false } } (fun e => e.cfg.keyRecs == [0]) = true ∧
    after (.tamper 99) (cfgDev { cfg0 with storeKey := some 3 } [(CFG_KEY_STAT_OPTION, 1)]) (fun e => e.cfg.storeKey == some 3) = true ∧
    after (.vbatLoss 10000) (cfgDev { cfg0 with storeKey := some 3 } [(CFG_KEY_STAT_OPTION, 1)]) (fun e => e.cfg.storeKey == none && logged on e 3 7 .error [1, 0, 0, 0, 0]) = true := by decide +kernel
/-- A store key write ends in the check word of an opaque cipher: its hypotheses hold here. -/
theorem test_store_key : (cfgDev { cfg0 with keyMask := 255 } [(CFG_KEY_STAT_OPTION, 1)]).bit CFG_KEY_STAT_OPTION = true ∧ cfg0.load = none ∧
    ({ cfg0 with keyMask := 255 } : Cfg).keyMask = 255 ∧ (5 : Word).getLsbD 1 = false := by decide +kernel
def stream (n : Nat) : Image := { Image.start 3 0 0 0 0 90000 with got := List.replicate n 0 }
def loading (im : Image) (st : Nat) (l : List (RF × Nat)) : Dev := cfgDev { cfg0 with load := some im } ([(CFG_STAT_STATE, st)] ++ l)
theorem test_load_start : reach on CFG_CTL = true ∧ reach on CFG_DATA = true ∧
    after (.loadStart .host 0x21) on (fun e => e.cfgState == gHEADER && e.cfg.load == some (Image.start 0 1 0 0x0A000000 0 100000) && logged on e 3 8 .info [0, 1, 0, 0, 0]) = true ∧
    after (.loadStart .host 0x1) (loading (stream 4) 1 []) (fun e => e.cfgState == gHEADER && logged on e 3 2 .error [0, 7, 0, 0, 0]) = true ∧
    after (.loadStart .host 0x319) (wfs on [(CFG_STAT_STATE, 7)]) (fun e => e.cfg.loadWait == some (3, 0, 3) && e.cfgState == gCLEARING) = true ∧
    after (.loadAbort .host 2) (loading (stream 32) 1 []) (fun e => e.cfgState == gCLEARING && logged on e 3 2 .error [3, 5, 2, 0, 0]) = true ∧
    after (.streamEnd .host 4) (loading (stream 16) 1 []) (fun e => e.rf CFG_STAT_STATUS == stLENGTH && logged on e 3 2 .error [3, 1, 1, 0, 0]) = true := by decide +kernel
theorem test_load_words : after (.cfgDataWrite .host 0x04030201 0) (loading (stream 0) 1 [(CFG_STAT_SPACE, 5)]) (fun e => e.rf CFG_STAT_SPACE == 4 && e.cfg.load.map (·.got) == some [1, 2, 3, 4]) = true ∧
    after (.cfgDataWrite .host 1 0) (loading (stream 0) 1 [(CFG_STAT_SPACE, 0)]) (fun e => e.resp == .error && e.rf CFG_STAT_STATUS == stFORMAT && e.cfgState == gCLEARING) = true ∧
    after (.loadPortPacket 0xB7000001 [(0x0201, true)]) (loading { stream 0 with
      src := 1
      target := some 0 } 1 []) (fun e => e.cfg.load.map (·.got) == some [1, 2, 0, 0]) = true ∧
    after (.loadPortPacket 0xB7000001 [(0x0201, true)]) on (fun e => e.rf CFG_PORT_CNT_COUNT == 2 && logged on e 3 5 .note [2, 0, 0, 0, 0]) = true ∧
    after (.loaderIdleTimeout false) { loading (stream 16) 1 [] with slate := 2547600 } (fun e => e.rf CFG_STAT_STATUS == stTIMEOUT && e.cfgState == gCLEARING) = true ∧
    after .loadClearingDone (cfgDev { cfg0 with
      active := [(3, 9)]
      loadClear := { frames := [3], mems := [], regions := [] } } [(CFG_STAT_STATE, 7)]) (fun e => e.cfgState == gFAILED && e.cfg.active == []) = true ∧
    after .loadClearingDone (cfgDev { cfg0 with loadWait := some (3, 0, 0) } [(CFG_STAT_STATE, 7)]) (fun e => e.cfgState == gHEADER && e.cfg.load.isSome) = true := by decide +kernel
/-- What a served image is sent in depends on how many bytes the control packets take, which the spec leaves open: the hypotheses only. -/
def serveDev : Dev := { meshDev 3 2 { noMesh with ports := [(2, { MeshPort.idle with grant := [(1, 64)] })] } [(CFG_SERVE_EN, 1)] with
  nvs := { on.nvs with pages := [(0, { data := 300 <<< 128, commit := true, torn := false, t := 8 })] } }
theorem test_load_serve : (serveDev.meshTake 2 { hdr 10 0 with vc := true } 10).1 = true ∧ serveDev.bit CFG_SERVE_EN = true ∧
    serveDev.domainUp 2 = true ∧ serveDev.clocked CFG_CTL = true ∧ (serveDev.storeBytes 0 24) = List.replicate 16 0 ++ leBytes 8 300 := by decide +kernel
/-- The first 252 bytes of the header of a full image of `n` bytes in `k` frames, in clear, naming region 0. -/
def hdrBody (flags n k : Nat) : List Byte :=
  leBytes 4 hdrMagic ++ leBytes 2 1 ++ leBytes 1 (on.rf (FAB_ID_STEPPING 0)) ++ leBytes 1 flags ++ leBytes 4 0x0E29A0D3 ++ leBytes 2 0x3FF ++ leBytes 2 0 ++
    leBytes 4 n ++ leBytes 4 k ++ leBytes 8 1 ++ List.replicate 12 0 ++ leBytes 4 0x0DA7
def hdrZero (n : Nat) : List Byte := List.replicate n 0
/-- The same with its code. -/
def hdrOf (flags n k : Nat) : List Byte := hdrBody flags n k ++ hdrZero 204 ++ leBytes 4 0x1DAEAEA3
theorem test_header_crc : crc32c (hdrBody 1 288 0 ++ hdrZero 204) = 0x1DAEAEA3 := by
  have a : (hdrBody 1 288 0).foldl (crcByte (0x82F63B78 : BitVec 32)) (BitVec.allOnes 32) = 0x4A4434BE := by decide +kernel
  have b : (hdrZero 51).foldl (crcByte (0x82F63B78 : BitVec 32)) 0x4A4434BE = 0x2915C43D := by decide +kernel
  have c : (hdrZero 51).foldl (crcByte (0x82F63B78 : BitVec 32)) 0x2915C43D = 0x09644737 := by decide +kernel
  have e : (hdrZero 51).foldl (crcByte (0x82F63B78 : BitVec 32)) 0x09644737 = 0x79E2F5B5 := by decide +kernel
  have f : (hdrZero 51).foldl (crcByte (0x82F63B78 : BitVec 32)) 0x79E2F5B5 = ~~~0x1DAEAEA3 := by decide +kernel
  have z : hdrZero 204 = hdrZero 51 ++ hdrZero 51 ++ hdrZero 51 ++ hdrZero 51 := by decide +kernel
  simp only [crc32c, crcReflected, z, List.foldl_append, a, b, c, e, f]
  decide +kernel
def withHdr (h : List Byte) (rest : List Byte) : Image := { stream 0 with
  got := h ++ rest
  pos := 256
  header := some h }
theorem test_image_header : on.headerCheck (hdrOf 1 288 0) false false false = none := by
  have t : (hdrOf 1 288 0).take 252 = hdrBody 1 288 0 ++ hdrZero 204 := by decide +kernel
  simp only [Dev.headerCheck, headerFormed, t, test_header_crc]
  decide +kernel
theorem test_image_header_fails : after (.imageHeader false []) (loading { stream 0 with got := hdrZero 256 } 1 []) (fun e => e.cfgState == gCLEARING && logged on e 3 2 .error [3, 9, 0, 0, 0]) = true := by decide +kernel
/-- A section's header. -/
def secOf (typ sub arg0 arg1 len : Nat) : List Byte := [BitVec.ofNat 8 typ, BitVec.ofNat 8 sub, 0, 0] ++ leBytes 4 arg0 ++ leBytes 4 arg1 ++ leBytes 4 len
/-- Region 0 of die 0 holds tiles (0, 0) to (14, 59). -/
def inReg (d : Dev) : Dev := wfs d [(SPL_REGr_DEF_VALID 0, 1), (SPL_REGr_DEF_X1 0, 14), (SPL_REGr_DEF_Y1 0, 59)]
def secDev (flags : Nat) (sec : List Byte) : Dev := inReg (loading (withHdr (hdrOf flags (288 + sec.length) 1) sec) 2 [])
/-- The next section has arrived, is formed, and has this kind: the hypotheses of a section's clause. -/
def secReady (d : Dev) (typ sub : Nat) : Bool :=
  match d.cfg.load with
  | some im =>
    match im.header with
    | some h =>
      let stop := hdrLength h - 32
      let sec := sectionOf (d.bodyBytes im false h im.pos 16)
      d.live && d.cfgState == gBODY && !im.keyLost && !im.stored false && decide (im.pos + 16 ≤ stop) && sec.formed (stop - im.pos - 16) &&
        im.has false im.pos (16 + sec.padded) && sec.typ == typ && sec.sub == sub
    | none => false
  | none => false
theorem test_frames_section : secReady (secDev 1 (secOf 1 0 0 1 2048 ++ hdrZero 2048)) 1 0 = true ∧ (sectionOf (secOf 1 0 0 1 2048)).frames = some [0] ∧
    (inReg on).frameRegion 0 = some 0 ∧ hdrRegions (hdrOf 1 288 0) = [0] ∧ hdrMarch (hdrOf 1 288 0) = false ∧ (inReg on).frameRegion 60 = none ∧
    secReady (secDev 1 (secOf 1 0 (15 * 2 ^ 17) 1 2048 ++ hdrZero 2048)) 1 0 = true ∧ (sectionOf (secOf 1 0 (15 * 2 ^ 17) 1 2048)).frames = some [60] := by decide +kernel
theorem test_memory_section : after (.memorySection false [] none) (secDev 1 (secOf 2 2 0 8 16 ++ (List.range 16).map (BitVec.ofNat 8))) (fun e => e.spadElem 0 2 == { v := 0x03020100, p := false }) = true ∧
    after (.memorySection false [] none) (secDev 1 (secOf 2 0 0 8 16 ++ (List.range 16).map (BitVec.ofNat 8))) (fun e => e.tileWord 0 0 1 == 0x0403020100) = true ∧
    after (.memorySection false [] none) (secDev 3 (secOf 2 2 0 8 16 ++ (List.range 16).map (BitVec.ofNat 8))) (fun e => e.cfgState == gMARCH) = true := by decide +kernel
theorem test_table_sections : secReady (secDev 1 (secOf 3 0 0 0 4096 ++ hdrZero 4096)) 3 0 = true ∧ secReady (secDev 1 (secOf 3 1 0 0 1024 ++ hdrZero 1024)) 3 1 = true ∧
    secReady (secDev 1 (secOf 3 2 0 0 256 ++ hdrZero 256)) 3 2 = true ∧ secReady (secDev 1 (secOf 3 3 0 0 1024 ++ hdrZero 1024)) 3 3 = true ∧
    entryDefines (regionEntries ([1, 0x70, 0, 0x3B] ++ hdrZero 1020)) 0 = true ∧
    after (.regsSection false []) (secDev 1 (secOf 4 0 0 0 8 ++ leBytes 4 (GPIO_OUTw 0) ++ leBytes 4 9 ++ hdrZero 8)) (fun e => e.cfg.load.map (·.pairs) == some [(BitVec.ofNat 32 (GPIO_OUTw 0), 9)]) = true ∧
    after (.tableSection false []) (secDev 1 (secOf 9 0 0 0 16 ++ hdrZero 16)) (fun e => e.rf CFG_STAT_STATUS == stFORMAT) = true := by decide +kernel
/-- With the body empty the trailer's code covers the header and the tag: a wrong one here. -/
theorem test_trailer : (withHdr (hdrOf 1 288 0) (hdrZero 32)).has false 256 32 = true ∧ hdrMarch (hdrOf 1 288 0) = false ∧ hdrLength (hdrOf 1 288 0) = 288 := by decide +kernel
/-- The whole image: an empty body, in clear, and a trailer that passes. -/
def image288 : Image := withHdr (hdrOf 1 288 0) (hdrZero 16 ++ leBytes 4 0xBCC5563E ++ hdrZero 12)
theorem test_trailer_passes : on.trailerCheck image288 false (hdrOf 1 288 0) = none := by
  have l : hdrLength (hdrOf 1 288 0) = 288 := by decide +kernel
  have t : on.imageBytes image288 false 0 272 = (hdrBody 1 288 0 ++ hdrZero 204) ++ (leBytes 4 0x1DAEAEA3 ++ hdrZero 16) := by decide +kernel
  have a : (hdrBody 1 288 0 ++ hdrZero 204).foldl (crcByte (0x82F63B78 : BitVec 32)) (BitVec.allOnes 32) = ~~~0x1DAEAEA3 := by
    have x := test_header_crc
    simp only [crc32c, crcReflected] at x
    rw [← x, BitVec.not_not]
  have b : (leBytes 4 0x1DAEAEA3 ++ hdrZero 16).foldl (crcByte (0x82F63B78 : BitVec 32)) (~~~0x1DAEAEA3) = ~~~0xBCC5563E := by decide +kernel
  have c : crc32c ((hdrBody 1 288 0 ++ hdrZero 204) ++ (leBytes 4 0x1DAEAEA3 ++ hdrZero 16)) = 0xBCC5563E := by
    rw [crc32c, crcReflected, List.foldl_append, a, b, BitVec.not_not]
  simp only [Dev.trailerCheck, l]
  rw [t, c]
  decide +kernel
theorem test_image_release : after .imageRelease (inReg (loading (withHdr (hdrOf 1 288 0) []) 4 [])) (fun e => e.cfgState == gDONE && e.cfg.ioOn && e.rf CFG_IMG_BUILD == 0xDA7 && e.rstate 0 == rLOADED && !e.bit (SPL_REGr_STAT_ISOLATED 0) && logged on e 3 1 .info [3, 0, 0xA7, 0x0D, 0]) = true ∧
    after .imageRelease (loading { withHdr (hdrOf 1 288 0) [] with pairs := [(0x02700FF0, 1)] } 4 []) (fun e => e.cfgState == gCLEARING && e.rf CFG_STAT_STATUS == stACCESS) = true := by decide +kernel

/-! ## Splices and scrubbing -/

def splicing (im : Image) (st : Nat) (l : List (RF × Nat)) : Dev := inReg (cfgDev { cfg0 with splice := some im } ([(SPL_STAT_STATE, st)] ++ l))
def icpOn : Dev := wfs (sited on) [(SPL_CTL_ICP_EN, 1)]
theorem test_splice_start : (icpOn.tileDead 0 60 0) = none ∧ icpOn.clocked SPL_CTL = true ∧ reach on SPL_CTL = true ∧
    after (.icpStart 0 200000) icpOn (fun e => e.splState == pHEADER && e.cfg.splice == some (Image.start 0 0 0 0 200000 100000)) = true ∧
    after (.icpStart 0 200000) (sited on) (fun e => e.cfg.splice == none && logged on e 5 3 .warn [0, 4, 0, 0, 0]) = true ∧
    after (.icpStart 0 200000) { icpOn with cfg := { cfg0 with splice := some (stream 0) } } (fun e => logged on e 5 3 .warn [0, 7, 0, 0, 0]) = true ∧
    after (.icpStart 0 200000) (wfs icpOn [(SPL_STAT_STATE, 6)]) (fun e => e.cfg.spliceWait == some { src := 0, tick := 200000, base := 0 }) = true ∧
    after (.spliceStart .host 1) (wfs on [(SPL_SRC_OFFSET, 0x800), (SPL_CUT_TICK_LO_TICK, 9)]) (fun e => e.cfg.splice == some (Image.start 2 0 0 0x800 9 100000)) = true ∧
    after (.spliceStart .host 1) (wfs on [(SPL_SRC_OFFSET, 4)]) (fun e => logged on e 5 3 .warn [2, 4, 0, 0, 0]) = true ∧
    after (.spliceStart .host 9) on (fun e => e.cfg.splice == some (Image.start 3 0 0 0 0 100000)) = true := by decide +kernel
theorem test_splice_ends : after (.icpAbort 0) { sited (splicing { stream 32 with src := 0 } 1 []) with slate := 100000 } (fun e => e.splState == pFAILED && e.outs == [.icpDone 0 5] && logged on e 5 4 .error [0, 5, 0, 2, 0]) = true ∧
    after (.spliceAbort .host 2) (splicing (stream 32) 1 []) (fun e => e.cfg.splice == none && logged on e 5 4 .error [3, 5, 0, 2, 0]) = true ∧
    after (.spliceStreamEnd .host 4) (splicing (stream 16) 1 []) (fun e => e.rf SPL_STAT_STATUS == stLENGTH && logged on e 5 4 .error [3, 1, 0, 1, 0]) = true ∧
    after (.loaderIdleTimeout true) { splicing (stream 16) 1 [] with slate := 2547600 } (fun e => e.rf SPL_STAT_STATUS == stTIMEOUT && e.splState == pFAILED) = true ∧
    (sited (splicing { stream 0 with src := 1 } 1 [])).tileDead 1 60 0 = none ∧ after (.icpDataWord 1 0x0201) (sited (splicing { stream 0 with src := 1 } 1 [])) (fun e => e.cfg.splice.map (fun im => im.got.take 3) == some [1, 2, 0]) = true ∧
    reach on SPL_DATA = true ∧ after (.splDataWrite .host 5 0) (splicing (stream 0) 1 [(SPL_STAT_SPACE, 9)]) (fun e => e.rf SPL_STAT_SPACE == 8 && e.cfg.splice.map (·.got) == some [5, 0, 0, 0]) = true := by decide +kernel
theorem test_splice_header : after (.imageHeader true []) (splicing (stream 256) 1 []) (fun e => e.splState == pFAILED && logged on e 5 3 .warn [3, 9, 0x11, 0, 0]) = true ∧
    (splicing { stream 256 with tick := 104096 } 1 []).manifestCheck { stream 256 with tick := 104096 } [0] = none ∧
    (splicing { stream 256 with tick := 104095 } 1 []).manifestCheck { stream 256 with tick := 104095 } [0] = some (5, 6, 0) := by decide +kernel
def splDev (sec : List Byte) : Dev := inReg (splicing (withHdr (hdrOf 0 (288 + sec.length) 1) sec) 2 [])
/-- The hypotheses of a section's clause, for a Splice. -/
def secReadyS (d : Dev) (typ sub : Nat) : Bool :=
  match d.cfg.splice with
  | some im =>
    match im.header with
    | some h =>
      let stop := hdrLength h - 32
      let sec := sectionOf (d.bodyBytes im true h im.pos 16)
      d.live && d.splState == pBODY && !im.keyLost && !im.stored true && decide (im.pos + 16 ≤ stop) && sec.formed (stop - im.pos - 16) &&
        im.has true im.pos (16 + sec.padded) && sec.typ == typ && sec.sub == sub
    | none => false
  | none => false
theorem test_splice_sections : secReadyS (splDev (secOf 1 0 0 1 2048 ++ hdrZero 2048)) 1 0 = true ∧
    secReadyS (splDev (secOf 3 0 0 0 4096 ++ hdrZero 4096)) 3 0 = true ∧
    after (.memorySection true [] none) (splDev (secOf 2 2 0 0 16 ++ hdrZero 16)) (fun e => e.cfg.splice == none && e.rf SPL_STAT_STATUS == stFORMAT) = true ∧
    after (.regsSection true []) (splDev (secOf 4 0 0 0 8 ++ hdrZero 16)) (fun e => e.cfg.splice == none && e.rf SPL_STAT_STATUS == stFORMAT) = true := by decide +kernel
theorem test_splice_clearing : after .spliceClearingDone (inReg (cfgDev { cfg0 with
      active := [(0, 9)]
      shadow := [(0, 8)]
      spliceClear := { frames := [], mems := [], regions := [0] } } [(SPL_STAT_STATE, 6)])) (fun e => e.splState == pFAILED && e.cfg.active == [] && e.cfg.shadow == []) = true := by decide +kernel
/-- Frame 0 of a loaded region 0, in a pass that started on tick 99,990. -/
def scrubbing (c : Cfg) : Dev := wfs (inReg { on with cfg := { c with passAt := some 99990 } }) [(SPL_SCRUB_CTL_EN, 1), (SPL_REGr_STAT_STATE 0, 2)]
theorem test_scrub_pass : (scrubbing cfg0).splUp = true ∧
    after .scrubPassStart { scrubbing cfg0 with slate := 3686400 } (fun e => e.cfg.passAt == some 3686400 && e.bit SPL_SCRUB_STAT_ACTIVE && e.outs == [.reportRequest]) = true ∧
    after .scrubPassStart (scrubbing cfg0) (fun e => e.cfg.passAt == some 99990) = true ∧
    (scrubbing cfg0).slotNow 0 = true ∧ (scrubbing cfg0).frameRegion 28800 = none := by decide +kernel
theorem test_repair : after (.frameRepair [] []) (scrubbing { cfg0 with
      repairs := [0]
      golden := [(0, some (5, 256))] }) (fun e => e.cfg.repairs == [] && e.bit (SPL_REGr_STAT_HARD 0) && e.bit (SPL_REGr_STAT_ISOLATED 0) && logged on e 5 7 .error [0, 0, 0, 0, 0]) = true ∧
    (scrubbing cfg0).rangeBusy 256 2048 = false := by decide +kernel
theorem crc64_zeros (n : Nat) : crc64 (List.replicate n 0) = 0 := by
  have z : crc64Byte 0 0 = 0 := by decide
  induction n with
  | zero => rfl
  | succ k ih => rw [List.replicate_succ, crc64, List.foldl_cons, z]; exact ih
theorem page_zeros (n : Nat) : pageBytes 0 0 n = List.replicate n 0 := by
  simp [pageBytes]
theorem test_frame_sig : frameSig 0 = 0 := by rw [frameSig, page_zeros, crc64_zeros]
/-- A slot of an I/O frame of region 0, whose golden signature is `g`. -/
def slotDev (g : BitVec 64) : Dev := { wfs (scrubbing { cfg0 with golden := [(28800, some (g, 256))] }) [(SPL_REGr_DEF_IO 0, 1)] with slate := 99990 + 127 * 28800 }
theorem test_scrub_slot : (slotDev 5).slotNow 28800 = true ∧ (slotDev 5).scrubRegion 28800 = some 0 ∧ (slotDev 5).cfg.active = [] ∧
    after (.scrubSlot 0 28800 [] true) (slotDev 5) (fun e => SMap.at none e.cfg.golden 28800 == none) = true := by decide +kernel
theorem test_repair_copy : (scrubbing cfg0).repairCopy { base := 0, key := 0, iv := 0 } 256 = List.replicate 2048 0 ∧
    crc64 ((scrubbing cfg0).repairCopy { base := 0, key := 0, iv := 0 } 256) = 0 := by
  have a : (scrubbing cfg0).repairCopy { base := 0, key := 0, iv := 0 } 256 = List.replicate 2048 0 := by decide +kernel
  exact ⟨a, by rw [a, crc64_zeros]⟩
theorem test_region_release : reach on (SPL_REGr_CTL 63) = true ∧
    after (.regionRelease .host 63 1) (wfs on [(SPL_REGr_STAT_STATE 63, 2), (SPL_REGr_STAT_ISOLATED 63, 1)]) (fun e => e.cfg.relNext == [63]) = true ∧
    after (.regionRelease .host 63 1) (wfs on [(SPL_REGr_STAT_STATE 63, 1), (SPL_REGr_STAT_ISOLATED 63, 1)]) (fun e => e.cfg.relNext == []) = true := by decide +kernel

/-! ## Events and the watchdog -/

/-- Source `n` enabled with a sense, and events fields written. -/
def evDev (n sense : Nat) (l : List (RF × Nat)) : Dev := wfs (sited on) ([(EVC_SRCs_CFG_EN n, 1), (EVC_SRCs_CFG_SENSE n, sense)] ++ l)
def supDev (x : Sup) (d : Dev) : Dev := { d with sup := x }
theorem test_source_fire : after (.eventSourceFire 200 true) (evDev 200 0 []) (fun e => e.pendOf 200) = true ∧
    after (.eventSourceFire 231 true) (evDev 231 1 []) (fun e => e.pendOf 231) = true ∧
    after (.eventSourceFire 200 false) (supDev { on.sup with level := [(200, true)] } (evDev 200 2 [])) (fun e => e.pendOf 200) = true ∧
    after (.eventSourceFire 200 false) (evDev 200 0 [(⟨EVC_PENDk 6, 8, 1⟩, 1)]) (fun e => !e.pendOf 200) = true ∧
    after (.eventSourceFire 200 true) on (fun e => !e.pendOf 200 && e.regs == on.regs) = true := by decide +kernel
theorem test_pin_edges : after (.eventPinEdge 31 true 5) { evDev 63 3 [] with gaf := { on.gaf with d0Stop := true } } (fun e => e.sup.latch == [63]) = true ∧
    after (.eventPinEdge 31 true 4) { evDev 63 3 [] with gaf := { on.gaf with d0Stop := true } } (fun e => e.sup.latch == []) = true ∧
    after (.eventPinEdge 0 true 21) (evDev 32 3 []) (fun e => e.pendOf 32) = true ∧ after (.eventPinEdge 0 true 20) (evDev 32 3 []) (fun e => !e.pendOf 32) = true ∧
    after .latchedEdgeDelivery (supDev { on.sup with latch := [40] } on) (fun e => e.pendOf 40 && e.sup.latch == [] && logged on e 14 5 .info [40, 0, 0, 0, 0]) = true := by decide +kernel
def inCore (c : Core) (l : List (RF × Nat)) : Dev := supDev { on.sup with core := c } (wfs on l)
theorem test_core_traps : on.coreRuns = true ∧
    after (.coreTrap .align 0x1234) (wfs on [(EVC_VEC_TRAP_ADDR, 5)]) (fun e => e.rf EVC_TRAP_CAUSE == 5 && e.rd EVC_TRAP_ADDR == 0x1234 && e.sup.core.pc == 20 && logged on e 14 1 .error [5, 0x34, 0x12, 0, 0]) = true ∧
    after (.coreTrap .illegal 8) (wfs on [(EVC_TRAP_VALID, 1)]) (fun e => e.sup.core.state == cSTOPPED && e.bit EVC_TRAP_DBL && logged on e 14 3 .fatal [4, 8, 0, 0, 0]) = true ∧
    after (.eventVectorEntry true) (evDev 64 0 [(⟨EVC_PENDk 2, 0, 1⟩, 1), (EVC_VEC_EVT_ADDR, 6)]) (fun e => e.sup.core.pc == 24 && e.sup.core.evtEn) = true ∧
    after (.eventVectorEntry true) on (fun e => e.sup.core == { on.sup.core with evtEn := true }) = true ∧
    after (.nmiEntry false) (wfs on [(EVC_NMI_NMI, 4), (EVC_VEC_NMI_ADDR, 7)]) (fun e => e.sup.core.pc == 28 && e.sup.core.inNmi) = true := by decide +kernel
theorem test_claims : reach on (EVC_CLAIMt 0) = true ∧ reach on (EVC_COMPLETEt 0) = true ∧
    after (.eventClaim 0 (.bus .supervisor)) (evDev 64 0 [(⟨EVC_PENDk 2, 0, 1⟩, 1)]) (fun e => e.resp == .data 0x80000040 && e.activeOf 0 == some 64 && !e.pendOf 64) = true ∧
    after (.eventClaim 0 (.bus .supervisor)) on (fun e => e.resp == .data 0) = true ∧
    after (.eventClaim 1 .site) (evDev 200 0 [(⟨EVC_PENDk 6, 8, 1⟩, 1), (EVC_SRCs_CFG_TARGET 200, 1)]) (fun e => e.activeOf 1 == some 200) = true ∧
    after (.eventComplete 0 64 (.bus .supervisor)) (supDev { on.sup with active := [(0, some 64)] } (evDev 64 1 [])) (fun e => e.activeOf 0 == none) = true ∧
    after (.eventComplete 0 64 (.bus .supervisor)) (supDev { on.sup with
      active := [(0, some 64)]
      level := [(64, true)] } (evDev 64 0 [])) (fun e => e.activeOf 0 == none && e.pendOf 64) = true ∧
    after (.eventComplete 0 9 (.bus .supervisor)) on (fun e => e.rf EVC_NMI_NMI == 1 && e.rf EVC_FAULT_NAMED == 9 && logged on e 14 2 .error [0, 0, 9, 0, 0]) = true := by decide +kernel
theorem test_pending_bits : reach on (EVC_SETPENDk 7) = true ∧ reach on (EVC_PENDk 7) = true ∧
    after (.eventSetPending .host 6 0xFF) on (fun e => e.pendOf 192 && e.pendOf 197 && !e.pendOf 198) = true ∧
    after (.eventClearPending .host 7 1) (wfs on [(⟨EVC_PENDk 7, 0, 2⟩, 3)]) (fun e => !e.pendOf 224 && e.pendOf 225) = true := by decide +kernel
theorem test_watchdog : reach on WDG_SVC = true ∧ reach on WDG_CTL = true ∧
    after (.watchdogService .supervisor 0xA5C3) (wfs on [(WDG_CTL_EN, 1), (WDG_LOAD_LOAD, 77)]) (fun e => e.rd WDG_COUNT == 77) = true ∧
    after (.watchdogService .supervisor 1) on (fun e => logged on e 17 3 .warn [12, 0, 0, 0, 0]) = true ∧
    after (.watchdogEnable .supervisor 1) (wfs on [(WDG_LOAD_LOAD, 0)]) (fun e => e.bit WDG_CTL_EN && e.rd WDG_COUNT == 1) = true ∧
    after (.watchdogLock .supervisor 0) on (fun e => e.bit WDG_CTL_LOCK) = true ∧
    after (.watchdogEnable .supervisor 1) (wfs on [(WDG_CTL_LOCK, 1)]) (fun e => !e.bit WDG_CTL_EN && logged on e 17 3 .warn [0, 1, 0, 0, 0]) = true ∧
    after .watchdogWarning (wfs on [(WDG_CTL_EN, 1), (WDG_WARN_WARN, 5), (WDG_COUNT_COUNT, 5)]) (fun e => e.rf EVC_NMI_NMI == 4 && logged on e 17 1 .warn [0, 0, 0, 0, 0]) = true ∧
    (wfs on [(WDG_CTL_EN, 1), (WDG_COUNT_COUNT, 0)]).wdgHeld = false ∧ (wfs on [(WDG_CTL_EN, 1), (WDG_COUNT_COUNT, 0)]).rd WDG_COUNT = 0 := by decide +kernel

/-! ## GPIO and the two-wire ports -/

theorem test_gpio : reach on (GPIO_OUTw 1) = true ∧ reach on (GPIO_OEw 0) = true ∧
    after (.gpioWrite .host false 1 0x80000001) (wfs on [(GPIO_MAPg_VALID 63, 1)]) (fun e => e.rd (GPIO_OUTw 1) == 0x80000000 && logged on e 20 1 .warn [32, 0, 0, 0, 0]) = true ∧
    after (.gpioInputChange 63 true) (wfs on [(GPIO_MAPg_VALID 63, 1)]) (fun e => e.rd (GPIO_INw 1) == 0x80000000 && e.rd (GPIO_EDGEw 1) == 0x80000000) = true ∧
    after (.gpioInputChange 63 false) (wfs on [(GPIO_MAPg_VALID 63, 1)]) (fun e => e.rd (GPIO_EDGEw 1) == 0) = true := by decide +kernel
/-- The port enabled at address 0x58. -/
def twiDev (t : Twi) (l : List (RF × Nat)) : Dev := supDev { on.sup with twi := t } (wfs on ([(TWI_CFG_EN, 1), (TWI_CFG_ADDR, 0x58)] ++ l))
def noBus : BusEnv := BusEnv.clean
theorem test_twi_target : on.asleep = false ∧ on.twiBus = true ∧ on.twiWaits = false ∧
    after (.twiAddressMatch 0x58) (twiDev on.sup.twi []) (fun e => e.outs == [.twiAck true]) = true ∧
    after (.twiAddressMatch 0x59) (twiDev on.sup.twi []) (fun e => e.outs == [.twiAck false]) = true ∧
    after (.twiAddressMatch 0x58) (twiDev on.sup.twi [(⟨CKC_EN_HUB, 0, 32⟩, 0)]) (fun e => e.sup.twi.stretch == some 100000) = true ∧
    after .twiWakeTimeout (twiDev { on.sup.twi with stretch := some 5 } []) (fun e => e.sup.twi.stretch == none && e.outs == [.twiAck true]) = true ∧
    after .twiWakeTimeout { twiDev { on.sup.twi with stretch := some 100000 } [(⟨CKC_EN_HUB, 0, 32⟩, 0)] with slate := 345760 } (fun e => e.sup.twi.nak && e.outs == [.twiRelease]) = true ∧
    after (.twiWrite [1, 2] noBus) (twiDev on.sup.twi []) (fun e => logged on e 19 2 .warn [2, 0, 0, 0, 0]) = true ∧
    after (.twiWrite (leBytes 4 0x100000 ++ leBytes 4 7) noBus) (twiDev on.sup.twi []) (fun e => SMap.at 0 e.sup.sram 0 == 7) = true ∧
    after (.twiRead 0x100000 noBus) (twiDev on.sup.twi []) (fun e => e.outs == [.twiBytes [0, 0, 0, 0, 0]]) = true ∧
    after .twiStatusRead (twiDev { on.sup.twi with last := 4 } []) (fun e => e.outs == [.twiBytes [4]]) = true ∧
    after .twiStatusRead (twiDev { on.sup.twi with nak := true } []) (fun e => e.outs == [.twiAck false]) = true ∧
    after (.twiSclTimeout 25000001) (twiDev on.sup.twi []) (fun e => e.outs == [.twiRelease] && logged on e 19 3 .warn [0, 0, 0, 0, 0]) = true ∧
    after (.twiSclTimeout 25000000) (twiDev on.sup.twi []) (fun e => e.outs == []) = true := by decide +kernel
theorem test_twi_controller : reach on TWI_MCTL = true ∧
    after (.twiControllerGo .supervisor 0x02284401) (wfs on [(TWI_MDATA_LO_DATA, 0xAA)]) (fun e => e.bit TWI_MCTL_BUSY && e.outs == [.twiSensor 0x44 2 [0xAA, 0, 0, 0, 0, 0, 0, 0] 2]) = true ∧
    after (.twiControllerGo .supervisor 0x00094401) on (fun e => e.rf TWI_MCTL_STATUS == stLENGTH && e.outs == []) = true ∧
    after (.twiControllerGo .supervisor 0x4401) on (fun e => e.rf TWI_MCTL_STATUS == stDONE && !e.bit TWI_MCTL_BUSY) = true ∧
    after (.twiControllerEnd (.acked [5])) (wfs on [(TWI_MCTL_BUSY, 1), (TWI_MCTL_RLEN, 1), (TWI_MDATA_LO_DATA, 0x0201)]) (fun e => e.rd TWI_MDATA_LO == 0x0205 && e.rf TWI_MCTL_STATUS == stDONE) = true ∧
    after (.twiControllerEnd .noAck) (wfs on [(TWI_MCTL_BUSY, 1), (TWI_MCTL_ADDR, 0x44)]) (fun e => e.rf TWI_MCTL_STATUS == stACCESS && logged on e 19 4 .warn [0x44, 0, 0, 0, 0]) = true ∧
    after (.twiControllerEnd .arbitration) (wfs on [(TWI_MCTL_BUSY, 1)]) (fun e => logged on e 19 4 .warn [0, 1, 0, 0, 0]) = true := by decide +kernel

/-! ## TAP and debugger -/

/-- The debug access current, the core in state `cs`. -/
def dbgDev (cs : Nat) (x : Dbg) : Dev := supDev { on.sup with
  dbg := { x with ir := 16 }
  core := { on.sup.core with state := cs } } on
def dbg0 : Dbg := on.sup.dbg
def coreEnv (eff : CoreEffect) : CoreEnv := { pc := 0x44, resv := false, eff := eff, bus := BusEnv.clean }
theorem test_tap : on.gaf.good = true ∧ on.coreThere = true ∧
    after .tapReset on (fun e => e.sup.dbg.ir == 1) = true ∧
    after (.extest [true] [false, true]) on (fun e => e.sup.dbg.pins && e.outs == [.boundaryPins [true], .tdo 2 2]) = true ∧
    after (.samplePreload [true] [true, true]) on (fun e => e.sup.dbg.boundary == [true] && e.outs == [.tdo 2 3]) = true ∧
    after .idcode on (fun e => e.outs == [.tdo 32 0x0E29A0D3]) = true ∧ after (.bypass 0xFF) on (fun e => e.outs == [.tdo 1 0]) = true ∧
    after (.bypass 2) on (fun e => e.outs == []) = true ∧ after .dbgAcc on (fun e => e.sup.dbg.ir == 16 && e.outs == [.tdo 67 0]) = true := by decide +kernel
theorem test_debug_ops : after .debugNop (dbgDev 0 dbg0) (fun e => e.outs == [.tdo 67 0]) = true ∧ after .debugNop on (fun e => e.outs == []) = true ∧
    after (.debugWrite 0x100000 9 BusEnv.clean) (dbgDev 0 dbg0) (fun e => SMap.at 0 e.sup.sram 0 == 9 && e.sup.dbg.status == 0) = true ∧
    after (.debugRead 0x100000 BusEnv.clean) (supDev { (dbgDev 0 dbg0).sup with sram := [(0, 6)] } on) (fun e => e.sup.dbg.data == 6) = true ∧
    after (.peek 0x100000 BusEnv.clean) (supDev { (dbgDev 0 dbg0).sup with sram := [(0, 6)] } on) (fun e => e.sup.dbg.data == 6) = true ∧
    after (.debugRead 0 BusEnv.clean) (dbgDev 0 { dbg0 with busy := some 1 }) (fun e => logged on e 18 4 .warn [1, 7, 0, 0, 0]) = true ∧
    after (.coreRd 8) (dbgDev 0 dbg0) (fun e => e.sup.dbg.status == 4) = true ∧ after (.coreRd 0) (dbgDev 0 { dbg0 with attach := true }) (fun e => e.sup.dbg.data == 8) = true ∧
    after (.coreWr 2 0x40 (coreEnv .plain)) (dbgDev 2 dbg0) (fun e => e.sup.core.pc == 0x40) = true ∧
    after (.coreWr 2 0x40 (coreEnv .plain)) (dbgDev 0 dbg0) (fun e => e.sup.dbg.status == 4 && logged on e 18 4 .warn [5, 4, 0, 0, 0]) = true ∧
    after (.coreWr 7 0xFF (coreEnv .plain)) (dbgDev 0 dbg0) (fun e => SMap.at 0 e.sup.dbg.bp 3 == 0xFD) = true := by decide +kernel
theorem test_halts : after (.coreHalt 0 (coreEnv .plain)) (dbgDev 0 dbg0) (fun e => e.sup.core.state == cHALTED && e.sup.core.pc == 0x44 && logged on e 18 2 .info [0, 0x44, 0, 0, 0]) = true ∧
    after (.coreHalt 0 { coreEnv .plain with resv := true }) (dbgDev 0 dbg0) (fun e => e.sup.core.state == cHALTING && e.sup.core.haltAt == 100000) = true ∧
    after (.reservationBreak true 8) (dbgDev 1 dbg0) (fun e => e.sup.core.state == cHALTED && e.sup.core.pc == 8) = true ∧
    after (.reservationBreak false 8) (dbgDev 1 dbg0) (fun e => e.sup.core.rsvBroken && logged on e 18 3 .warn [8, 0, 0, 0, 0]) = true ∧
    (dbgDev 0 dbg0).coreRuns = true ∧ after (.breakpointHit 0x80 false) (dbgDev 0 { dbg0 with bp := [(1, 0x81)] }) (fun e => e.sup.core.state == cHALTED && e.sup.core.reason == 1) = true ∧
    after (.breakpointHit 0x80 false) (dbgDev 0 { dbg0 with bp := [(1, 0x80)] }) (fun e => e.sup.core.state == cRUN) = true := by decide +kernel
theorem test_core_control : after (.coreResume 0 (coreEnv .plain)) (dbgDev 2 dbg0) (fun e => e.sup.core.state == cRUN) = true ∧
    after (.coreStep 0 (coreEnv .plain)) (dbgDev 2 dbg0) (fun e => e.sup.core.reason == 2 && e.sup.core.pc == 0x44) = true ∧
    after (.coreStep 0 (coreEnv (.branch 0x90))) (dbgDev 2 dbg0) (fun e => e.sup.core.pc == 0x90) = true ∧
    after (.feed 0 (coreEnv (.moveToDebug 7))) (dbgDev 2 dbg0) (fun e => e.sup.core.ddata == 7 && e.sup.dbg.status == 0) = true ∧
    after (.feed 0 (coreEnv (.trap .align 4))) (dbgDev 2 dbg0) (fun e => e.sup.core.feedErr && e.sup.core.feedCause == 5) = true ∧
    after (.feed 0 (coreEnv .plain)) (dbgDev 0 dbg0) (fun e => e.sup.dbg.status == 4 && logged on e 18 4 .warn [6, 4, 0, 0, 0]) = true ∧
    after (.debugAttach 8 (coreEnv .plain)) (dbgDev 0 dbg0) (fun e => e.sup.dbg.attach && e.rf (GAF_DOMd_STAT_VOTES 2) == 2 && logged on e 18 1 .note [1, 0, 0, 0, 0]) = true := by decide +kernel

/-! ## Serial port and Tamop -/

/-- The UART enabled, with contents `u`. -/
def monDev (u : Uart) (l : List (RF × Nat)) : Dev := supDev { on.sup with uart := u } (wfs on ((MON_CFG_EN, 1) :: l))
def mon : Uart := on.sup.uart
/-- Tamop's reply. -/
def printed (l : List Nat) (st : Nat) (e : Dev) : Bool := e.outs == [.tamop l (if st = 0 then 0 else 5) st]
theorem test_uart : reach (monDev mon []) MON_DATA = true ∧ (monDev mon []).uartUp = true ∧ (monDev mon []).tamopUp = true ∧
    after (.monDataWrite .supervisor 0x141) (monDev mon []) (fun e => e.sup.uart.tx == [0x41] && e.rf MON_STAT_TX_FREE == 63) = true ∧
    after (.monDataWrite .supervisor 0x141) (monDev { mon with tx := List.replicate 64 0 } []) (fun e => e.sup.uart.tx.length == 64) = true ∧
    after (.uartRxByte 0x41 false 0) (monDev mon []) (fun e => e.sup.uart.rx == [0x41] && e.rf MON_STAT_RX_COUNT == 1) = true ∧
    after (.uartRxByte 0x41 false 0) (monDev { mon with rx := List.replicate 64 0 } []) (fun e => e.bit MON_STAT_OVR && logged on e 18 5 .note [1, 0, 0, 0, 0]) = true ∧
    after (.uartRxByte 0x41 true 0) (monDev mon []) (fun e => e.bit MON_STAT_FERR && logged on e 18 5 .note [0, 0, 0, 0, 0]) = true ∧
    after (.uartBreak 10) (monDev { mon with line := [1], baudSet := true } [(MON_CFG_BAUD, 5)]) (fun e => e.bit MON_STAT_BRK && e.sup.uart.line == [] && e.rf MON_CFG_BAUD == 0) = true ∧
    after (.uartBreak 9) (monDev mon []) (fun e => e.bit MON_STAT_BRK == false) = true ∧
    after .tamopLineTimeout { monDev { mon with line := [1, 2], lineAt := 5 } [] with slate := 7372800005 } (fun e => e.sup.uart.line == [] && logged { on with slate := 7372800005 } e 18 7 .note [2, 0, 0, 0, 0]) = true := by decide +kernel
theorem test_tamop_words : after (.tamopPk 0x100004 BusEnv.clean) (supDev { (monDev mon []).sup with sram := [(1, 9)] } (monDev mon [])) (printed [9] 0) = true ∧
    after (.tamopRd 0x100004 BusEnv.clean) (supDev { (monDev mon []).sup with sram := [(1, 9)] } (monDev mon [])) (printed [9] 0) = true ∧
    after (.tamopRd 0x0FFFFFFC BusEnv.clean) (monDev mon []) (fun e => e.outs == [.tamop [] 4 0]) = true ∧
    after (.tamopWr 0x100004 7 BusEnv.clean) (monDev mon []) (fun e => printed [] 0 e && SMap.at 0 e.sup.sram 1 == 7) = true := by decide +kernel
theorem test_tamop_reels : (monDev mon []).barred CFG_CTL = none ∧ (monDev mon []).barred NVS_CMD = none ∧ (monDev mon []).barred NVS_BOOT_STAT = none ∧
    (monDev mon []).ok.reelRead [] = (none, (monDev mon []).ok) ∧
    after (.tamopReel []) (monDev mon [(NVS_BOOT_STAT_CUR, 2)]) (printed [2, 0, 0, 0, 0, 0, 0, 0] 0) = true ∧
    after (.tamopReelBoot 2 1) (monDev mon []) (fun e => e.nstate == nRUNNING && e.sup.uart.wait == .boot && e.rf NVS_BOOT_CUR == 2) = true ∧
    after (.tamopReelBoot 2 1) (monDev mon [(NVS_STAT_STATE, 1)]) (printed [] 7) = true ∧
    after (.tamopReelLoad 3) (monDev mon []) (fun e => e.cfgState == gHEADER && e.sup.uart.wait == .load) = true ∧
    after (.tamopReelLoad 3) { monDev mon [] with cfg := { on.cfg with loadWait := some (0, 1, 0) } } (printed [] 7) = true := by decide +kernel
theorem test_tamop_cuts : after .tamopCut (monDev mon []) (printed [] 0) = true ∧
    after (.tamopCutUser 3 104096) (monDev mon []) (fun e => printed [0] 0 e && (e.cut 0).tick == 104096 && (e.cut 0).confirmed) = true ∧
    after (.tamopCutUser 3 104096) ((monDev mon []).setCut 0 (armedSlot 5 3 200000)) (fun e => printed [1] 0 e && e.rf SLT_CUT_SEL_SLOT == 1) = true ∧
    after (.tamopCutUser 3 104095) (monDev mon []) (printed [] stLEAD) = true ∧
    after (.tamopCutUser 3 104096) { monDev mon [] with hub := { on.hub with cuts := (List.range 32).map (fun i => (i, armedSlot 5 3 200000)) } } (printed [] 7) = true ∧
    (monDev mon []).barred SPL_CTL = none ∧ (monDev mon []).spliceBusy = false ∧
    after (.tamopCutSplice 0x800 200000) (monDev mon []) (fun e => e.cfg.splice == some (Image.start 2 0 0 0x800 200000 100000) && e.sup.uart.wait == .splice) = true := by decide +kernel
theorem test_tamop_dailies : after (.tamopDl (some 1)) { monDev mon [(DLY_STAT_COUNT, 1), (DLY_TAIL_TAIL, 5)] with hub := { on.hub with dailies := [(5, record 77 1 2 3 [4, 5, 6, 7, 8])] } } (printed [77, 1, 2, 3, 4, 5, 6, 7, 8] 0) = true ∧
    after (.tamopDlFree 2) (monDev mon [(DLY_STAT_COUNT, 3), (DLY_TAIL_TAIL, 2047)]) (fun e => printed [] 0 e && e.rf DLY_STAT_COUNT == 1 && e.rf DLY_TAIL_TAIL == 1) = true ∧
    after (.tamopDlFree 2049) (monDev mon []) (fun e => e.outs == [.tamop [] 2 0] && logged on e 18 6 .note [2, 0, 0, 0, 0]) = true ∧
    after (.tamopDlFree 0) (monDev mon []) (printed [] 0) = true := by decide +kernel
theorem test_tamop_status : (monDev mon []).barred (LNQ_Li_STAT 511) = none ∧ (monDev mon []).barred CTY_STAT = none ∧
    after (.tamopLane 511) (monDev mon [(LNQ_Li_EYE_SCORE 511, 9)]) (printed [0, 0, 0, 9, 0, 0, 0, 0, 0] 0) = true ∧
    after .tamopTime (monDev mon []) (fun e => match e.outs with | [.tamop (x :: _) 0 0] => x == 100000 | _ => false) = true ∧
    after (.tamopVote 0) (monDev mon []) (fun e => match e.outs with | [.tamop l 0 0] => l.length == 9 | _ => false) = true ∧
    after (.tamopVoteOn 19) (monDev mon [(GAF_SVOTE_VOTE, 0)]) (fun e => printed [] 0 e && e.rf (GAF_DOMd_STAT_VOTES 19) == 1 && e.rd GAF_SVOTE == 0x80000) = true ∧
    after (.tamopVoteOff 19) (monDev mon [(GAF_SVOTE_VOTE, 0x80000), (GAF_DOMd_STAT_VOTES 19, 1)]) (fun e => e.rf (GAF_DOMd_STAT_VOTES 19) == 0 && e.rd GAF_SVOTE == 0) = true ∧
    after (.tamopBaud 4) (monDev mon []) (fun e => printed [] 0 e && e.rf MON_CFG_BAUD == 4) = true ∧
    after (.tamopUnknownCommand .length) (monDev mon []) (fun e => e.outs == [.tamop [] 3 0] && logged on e 18 6 .note [3, 0, 0, 0, 0]) = true := by decide +kernel

/-! ## Clock controller -/

def ckc (g : Gaf) (l : List (RF × Nat)) : Dev := { wfs on l with gaf := g }
theorem test_crystal : on.gaf.d0Stop = false ∧
    after (.crystalWindow 2091) (ckc { on.gaf with xtalGood := 7 } [(CKC_CTL_AUTO, 1), (CKC_STAT_ON_RC, 1)]) (fun e => e.bit CKC_STAT_XTAL_OK && !e.bit CKC_STAT_ON_RC && !e.bit CKC_CTL_AUTO && logged on e 15 2 .note [0, 0, 0, 0, 0]) = true ∧
    after (.crystalWindow 2175) (ckc { on.gaf with xtalGood := 6 } []) (fun e => e.gaf.xtalGood == 7 && !e.bit CKC_STAT_XTAL_OK) = true ∧
    after (.crystalWindow 2175) (ckc { on.gaf with xtalGood := 63, xtalFailed := true } []) (fun e => e.bit CKC_STAT_XTAL_OK) = true ∧
    after (.crystalWindow 2100) (ckc { on.gaf with xtalBad := 1 } [(CKC_STAT_XTAL_OK, 1)]) (fun e => e.gaf.xtalBad == 0) = true ∧
    after (.crystalWindow 2090) (ckc on.gaf [(CKC_STAT_XTAL_OK, 1)]) (fun e => e.gaf.xtalBad == 1 && e.bit CKC_STAT_XTAL_OK) = true ∧
    after (.crystalWindow 2176) (ckc { on.gaf with xtalBad := 1 } [(CKC_STAT_XTAL_OK, 1)]) (fun e => e.bit CKC_STAT_XTAL_FAIL && !e.bit CKC_STAT_XTAL_OK && e.bit CKC_STAT_ON_RC &&
      e.rf EVC_NMI_NMI == 2 && logged on e 15 1 .error [128, 8, 0, 0, 0]) = true ∧ on.p1On = true := by decide +kernel
theorem test_use_xtal : reach on CKC_CTL = true ∧
    after (.useXtal .host 1) (wfs on [(CKC_STAT_XTAL_OK, 1), (CKC_STAT_ON_RC, 1)]) (fun e => !e.bit CKC_STAT_ON_RC && logged on e 15 2 .note [1, 0, 0, 0, 0]) = true ∧
    after (.useXtal .host 1) (wfs on [(CKC_STAT_ON_RC, 1)]) (fun e => e.bit CKC_STAT_ON_RC && e.bit CKC_STAT_REFUSED && logged on e 15 4 .warn [0, 0, 0, 0, 0]) = true := by decide +kernel
theorem test_synthesiser : reach on (CKC_SYNf_CFG 7) = true ∧ on.synthInUse 7 = false ∧ on.capActive 0 = false ∧ on.capActive 1 = false ∧
    synthInRange 0 0 fabricLimit = false ∧ after (.synthConfigWrite .host 7 0x80000001) on (fun e => e.bit CKC_STAT_REFUSED && logged on e 15 7 .warn [7, 0, 0, 0, 0]) = true ∧ synthInRange 65 16 1000 = true ∧
    after (.synthConfigWrite .host 7 0x00100041) (wfs on [(CKC_STAT_SYN_LOCK, 0x80)]) (fun e => e.rf (CKC_SYNf_CFG_P 7) == 65 && e.rf (CKC_SYNf_CFG_Q 7) == 16 && !e.synLocked 7) = true ∧
    after (.synthConfigWrite .host 7 0x00100041) (wfs on [(FAB_CAP_STAT_STATE 1, 2), (FAB_CAP_CTL_CLK 1, 7)]) (fun e => e.rd (CKC_SYNf_CFG 7) == 0 && e.bit CKC_STAT_REFUSED && logged on e 15 7 .warn [7, 2, 0, 0, 0]) = true ∧
    after (.synthLock 7) (wfs on [(CKC_SYNf_CFG_EN 7, 1)]) (fun e => e.synLocked 7) = true ∧ after (.synthLock 7) on (fun e => !e.synLocked 7) = true ∧
    after (.synthUnlock 7) (wfs on [(CKC_STAT_SYN_LOCK, 0x80)]) (fun e => !e.synLocked 7 && e.bit CKC_STAT_SYN_UNLOCK && SMap.at false e.gaf.synRelock 7 && logged on e 15 5 .error [7, 0, 0, 0, 0]) = true ∧
    after (.synthRelock 7 0x102) (ckc { on.gaf with synRelock := [(7, true)] } [(CKC_SYNf_CFG_EN 7, 1)]) (fun e => e.synLocked 7 && logged on e 15 6 .info [7, 2, 1, 0, 0]) = true := by decide +kernel
theorem test_clock_enables : reach on (enableAddr (.quads 1 1)) = true ∧ reach on CKC_EN_HUB = true ∧
    after (.clockEnableWrite .host .hub 0) (wfs on [(CSH_STAT_STATE, 2)]) (fun e => e.rd CKC_EN_HUB == 0x40 && e.bit CKC_STAT_REFUSED && logged on e 15 4 .warn [0x10, 0, 6, 0, 0]) = true ∧
    after (.clockEnableWrite .host (.engines 1) 0x7FFFFFFE) (wfs on [(SE_STAT_STATE 32, 1)]) (fun e => e.rd (CKC_EN_SEd 1) == 0x7FFFFFFF) = true ∧
    after (.clockEnableWrite .host (.iface 0) 0x10) on (fun e => e.rd (CKC_EN_IFd 0) == 0x10) = true := by decide +kernel
theorem test_frequency_counter : reach on CKC_FCNT_CTL = true ∧
    after (.fcntStart .host 0x840) on (fun e => e.gaf.fcnt == some 100000 && !e.bit CKC_FCNT_CTL_DONE) = true ∧
    after (.fcntStart .host 0x840) (wfs on [(CKC_FCNT_GATE_GATE, 0), (CKC_FCNT_RES_COUNT, 5)]) (fun e => e.bit CKC_FCNT_CTL_DONE && e.rd CKC_FCNT_RES == 0) = true ∧
    after (.fcntStart .host 0x840) (ckc { on.gaf with fcnt := some 5 } []) (fun e => e.gaf.fcnt == some 5) = true ∧
    after (.fcntDone 0x100000005) (ckc { on.gaf with fcnt := some 5 } []) (fun e => e.gaf.fcnt == none && e.rd CKC_FCNT_RES == 0xFFFFFFFF && e.bit CKC_FCNT_CTL_DONE) = true ∧
    after (.fcntTimeout 2000000000) (ckc { on.gaf with fcnt := some 5 } []) (fun e => e.gaf.fcnt == none && e.rf CKC_FCNT_CTL_STATUS == stTIMEOUT) = true ∧
    after (.fcntDone 5) on (fun e => e.rd CKC_FCNT_RES == 0) = true := by decide +kernel

/-! ## The Gaffer -/

def domIs (p st v : Nat) : List (RF × Nat) := [(GAF_DOMd_STAT_STATE p, st), (GAF_DOMd_STAT_VOTES p, v)]
theorem test_supervisor_votes : reach on GAF_SVOTE = true ∧ on.sup.dbg.attach = false ∧ on.onCutNames 29 = false ∧
    after (.voteChange (.svote .host 0x20000000)) (wfs on (domIs 29 0 0)) (fun e => e.domState 29 == 1 && e.bit (GAF_DOMd_STAT_ISOLATED 29) && e.rf (GAF_DOMd_STAT_VOTES 29) == 1) = true ∧
    after (.voteChange (.svote .host 0x20000000)) (wfs on (domIs 29 3 0)) (fun e => e.domState 29 == 2) = true ∧
    after (.voteChange (.svote .host 0x20000000)) (wfs on (domIs 29 2 0 ++ [(GAF_DOMd_STAT_ISOLATED 29, 1)])) (fun e => e.domState 29 == 2 && !e.bit (GAF_DOMd_STAT_ISOLATED 29)) = true ∧
    after (.voteChange (.svote .host 0)) (wfs on (domIs 26 2 1 ++ [(DMC_STAT_STATE 3, 3)])) (fun e => e.domState 26 == 3 && e.bit GAF_STAT_DEFER && e.rf (GAF_DOMd_STAT_VOTES 26) == 0) = true ∧
    after (.voteChange (.svote .host 0)) (wfs on (domIs 29 1 1)) (fun e => e.domState 29 == 1 && e.gaf.downNext == [29]) = true ∧
    after (.voteChange (.svote .host 0)) (wfs on (domIs 29 2 5)) (fun e => e.domState 29 == 2 && e.rf (GAF_DOMd_STAT_VOTES 29) == 4) = true := by decide +kernel
theorem test_port_votes : on.votePortDead 3 = true ∧ (wfs (sited on) [(SPL_REGr_DEF_X1 1, 119)]).votePortDead 3 = false ∧
    after (.voteChange (.port 3 0x20000000)) (sited on) (fun e => e.rf (GAF_DOMd_STAT_VOTES 29) == 0x80 && SMap.at 0 e.gaf.portVotes 3 == 0x20000000) = true ∧
    after (.voteChange (.port 3 0)) (sited on) (fun e => e.regs == (sited on).regs) = true := by decide +kernel
def ramp (p t : Nat) (l : List (RF × Nat)) : Dev := { wfs on (domIs p 1 1 ++ l) with gaf := { on.gaf with rampStart := [(p, some t)] } }
theorem test_ramps : fabricDie 18 = some 1 ∧ rampTicks 18 = 24576 ∧ SMap.at none (ramp 18 75424 []).gaf.rampStart 18 = some 75424 ∧
    after (.rampStart 18) (wfs on (domIs 18 1 1 ++ [(GAF_DOMd_STAT_QUEUED 18, 1)])) (fun e => !e.bit (GAF_DOMd_STAT_QUEUED 18) && SMap.at none e.gaf.rampStart 18 == some 100000) = true ∧
    after (.rampEnd 18) (ramp 18 75424 [(GAF_DOMd_STAT_ISOLATED 18, 1)]) (fun e => e.domState 18 == 2 && !e.bit (GAF_DOMd_STAT_ISOLATED 18) && logged on e 16 1 .info [18, 1, 0, 0, 0]) = true ∧
    after (.rampEnd 18) (ramp 18 75425 []) (fun e => e.domState 18 == 1) = true ∧
    after (.rampFault 18) (ramp 18 50848 []) (fun e => e.domState 18 == 0 && e.bit (GAF_DOMd_STAT_FAULT 18) && e.bit GAF_STAT_RAMP_FAULT && logged on e 16 8 .error [18, 0, 0, 0, 0]) = true ∧
    after (.rampFault 18) (ramp 18 50849 []) (fun e => e.domState 18 == 1) = true := by decide +kernel
theorem test_going_down : votable 22 = true ∧ on.domState 22 = dON ∧ on.dropReady 29 = true ∧ qSELFREF = 6 ∧
    after (.supplyLoss 22 1000) on (fun e => e.bit (GAF_DOMd_STAT_FAULT 22) && e.gaf.downNext == [22] && logged on e 16 8 .error [22, 1, 0, 0, 0]) = true ∧
    after (.supplyLoss 22 999) on (fun e => e.gaf.downNext == []) = true ∧
    after (.drainEnd 29) (wfs on (domIs 29 3 0)) (fun e => e.gaf.downNext == [29]) = true ∧
    after (.drainEnd 2) (wfs on (domIs 2 3 0 ++ [(NVS_STAT_STATE, 1)])) (fun e => e.gaf.downNext == []) = true ∧
    after (.drainEnd 23) (wfs on (domIs 23 3 0 ++ [(DMC_STAT_STATE 0, qRUN)])) (fun e => e.gaf.downNext == [23] && e.qstate 0 == 6) = true ∧
    after (.domainOff 29) (wfs on (domIs 29 4 0)) (fun e => e.domState 29 == 0 && logged on e 16 2 .info [29, 0, 0, 0, 0]) = true ∧
    after (.domainOff 29) (wfs on (domIs 29 4 1)) (fun e => e.domState 29 == 1 && e.bit (GAF_DOMd_STAT_ISOLATED 29)) = true ∧
    after (.domainOff 29) on (fun e => e.domState 29 == 2) = true := by decide +kernel
def tickAt (t : Nat) : List (RF × Nat) := [(GAF_CUT_TICK_LO_TICK, t)]
theorem test_power_cuts : reach on GAF_CUT_CTL = true ∧ on.pickSlot = some 0 ∧ votable 30 = false ∧
    after (.powerCutArm .host 0xF0) (wfs on (tickAt 200000)) (fun e => e.rf GAF_CUT_CTL_STATUS == 4 && e.bit SLT_STAT_CUT_FAIL && logged on e 1 3 .warn [1, 30, 0, 4, 0]) = true ∧
    after (.powerCutArm .host 0xE8) (wfs on (tickAt 104095)) (fun e => e.rf GAF_CUT_CTL_STATUS == 6 && logged on e 1 3 .warn [1, 29, 0, 6, 0]) = true ∧
    after (.powerCutArm .host 0xE8) { wfs on (tickAt 104096) with hub := { on.hub with cuts := (List.range 32).map (fun i => (i, armedSlot 5 3 200000)) } } (fun e => e.rf GAF_CUT_CTL_STATUS == 7) = true ∧
    after (.powerCutArm .host 0xEC) (wfs on (tickAt 104096)) (fun e => (e.cut 0).kind == 6 && (e.cut 0).confirmed && (e.cut 0).target == 29 && e.rf GAF_CUT_CTL_STATUS == 0) = true ∧
    after (.powerCutArm .host 0x60E8) (wfs on (tickAt 104096 ++ domIs 29 0 0)) (fun e => (e.cut 0).kind == 1 && !(e.cut 0).confirmed && e.domState 29 == 1 && SMap.at 0 e.gaf.cutClient 0 == 3) = true ∧
    after (.powerCutArm .host 0xE8) (wfs on (tickAt 104096)) (fun e => (e.cut 0).confirmed && (e.cut 0).tick == 104096) = true ∧
    after (.powerCutCancel .host 0) ((wfs on []).setCut 0 (armedSlot 6 29 200000)) (fun e => (e.cut 0).state == .failed && (e.cut 0).status == 5) = true ∧
    after (.powerCutCancel .host 0) ((wfs on (domIs 29 1 1)).setCut 0 (armedSlot 1 29 200000)) (fun e => (e.cut 0).state == .failed && e.domState 29 == 1) = true ∧
    after (.powerCutCancel .host 0) ((wfs on (domIs 29 1 0)).setCut 0 (armedSlot 1 29 200000)) (fun e => (e.cut 0).state == .failed && e.domState 29 == 4) = true ∧
    after (.powerCutCancel .host 0) (on.setCut 0 (armedSlot 6 29 100064)) (fun e => (e.cut 0).state == .armed) = true := by decide +kernel
theorem test_sleep_and_wake : on.coreRuns = true ∧ on.asleep = false ∧
    after .waitForEvent on (fun e => e.sup.core.sleep == 1) = true ∧
    after .waitForEvent (wfs on [(GAF_SLEEP_MODE, 3)]) (fun e => e.sup.core.sleep == 1) = true ∧
    after .waitForEvent (wfs on [(GAF_SLEEP_MODE, 1), (GAF_SLEEP_D0_STOP, 1)]) (fun e => e.sup.core.sleep == 2 && e.gaf.d4Stop && e.gaf.d0Stop) = true ∧
    after .waitForEvent (wfs on [(GAF_SLEEP_MODE, 2), (GAF_SVOTE_VOTE, 3), (GAF_DOMd_STAT_VOTES 1, 1)]) (fun e => e.sup.core.sleep == 3 && e.rd GAF_SVOTE == 1 && e.rf (GAF_DOMd_STAT_VOTES 1) == 0 && e.domState 1 == 3) = true ∧
    after .waitForEvent { on with gaf := { on.gaf with d4Stop := true } } (fun e => e.sup.core.sleep == 0) = true ∧
    after (.wake .twi) { wfs on [(GAF_WAKE_EN_TWI, 1), (GAF_WAKE_EN_P2, 1)] with gaf := { on.gaf with d4Stop := true, d0Stop := true } }
      (fun e => e.rd GAF_WAKE_CAUSE == 2 && !e.gaf.d4Stop && !e.gaf.d0Stop && e.rf (GAF_DOMd_STAT_VOTES 2) == 1 && logged on e 16 6 .info [2, 0, 0, 0, 0]) = true ∧
    after (.wake .latch) { wfs on [(GAF_WAKE_EN_LATCH, 1)] with sup := { on.sup with latch := [40, 41] }, gaf := { on.gaf with d4Stop := true } } (fun e => e.rd GAF_WAKE_CAUSE == 0x2804) = true ∧
    after (.wake .alarm) { wfs on [(GAF_WAKE_EN_ALARM, 1), (CTY_STAT_ALARM, 1)] with gaf := { on.gaf with d4Stop := true } } (fun e => e.rd GAF_WAKE_CAUSE == 8) = true ∧
    after (.wake .twi) { wfs on [(GAF_WAKE_EN_TWI, 0)] with gaf := { on.gaf with d4Stop := true } } (fun e => e.gaf.d4Stop) = true ∧
    after (.wake .twi) on (fun e => e.rd GAF_WAKE_CAUSE == 1) = true := by decide +kernel
theorem test_power_fail_and_release : reach on GAF_RELEASE = true ∧
    after (.powerFailWarning 9 1000) on (fun e => e.bit GAF_STAT_PFW && e.rf EVC_NMI_NMI == 8 && logged on e 16 5 .error [9, 0, 0, 0, 0]) = true ∧
    after (.powerFailWarning 9 999) on (fun e => !e.bit GAF_STAT_PFW) = true ∧
    after (.unitRelease .host 0x800000EA) { on with gaf := { on.gaf with isoDomain := [(29, true)] } } (fun e => e.gaf.isoDomain == [] && logged on e 16 7 .info [2, 29, 0, 0, 0]) = true ∧
    after (.unitRelease .host 0x800003FB) { on with gaf := { on.gaf with isoQuad := [(127, true)] } } (fun e => e.gaf.isoQuad == [] && logged on e 16 7 .info [3, 127, 0, 0, 0]) = true ∧
    after (.unitRelease .host 0x800001FC) { on with gaf := { on.gaf with isoEngine := [(63, true)] } } (fun e => e.gaf.isoEngine == [] && logged on e 16 7 .info [4, 63, 0, 0, 0]) = true ∧
    after (.unitRelease .host 0x800001FC) on (fun e => e.bit GAF_STAT_REFUSED && logged on e 16 4 .warn [0xB0, 0, 4, 0, 0]) = true := by decide +kernel

/-! ## Resets and the boot ROM -/

def strap : Straps := { id := 5, lo := 3, boot := 2, rng := true }
theorem test_full_resets : on.marks = [] ∧ on.nvs.op = none ∧
    after (.powerGood strap) { on with gaf := { on.gaf with good := false, rail := 2 } } (fun e => e.slate == 0 && e.gaf.good && e.rd GAF_RST_CAUSE == 0x20233 && e.rf MSH_ID_STRAP == 5 &&
      e.domState 28 == 2 && SMap.at 0 e.hub.dailies 0 == record 0 16 9 2 [3, 3, 2, 0, 0]) = true ∧
    after (.powerGood strap) on (fun e => e.slate == 100000) = true ∧
    after (.resetPin 1000) on (fun e => e.slate == 0 && e.gaf.held && e.rf GAF_RST_CAUSE_CAUSE == 2 && SMap.at 0 e.hub.dailies 0 == record 0 16 9 2 [2, 3, 0, 0, 0]) = true ∧
    after (.resetPin 999) on (fun e => e.slate == 100000) = true ∧
    after (.resetNRisingEdge strap) { on with gaf := { on.gaf with held := true } } (fun e => !e.gaf.held && e.slate == 0 && e.rf MSH_ID_STRAP == 5) = true ∧
    after (.resetNRisingEdge strap) on (fun e => e.slate == 100000) = true ∧
    after (.powerGoodFall 2) on (fun e => !e.gaf.good && e.gaf.rail == 3 && e.slate == 0) = true ∧
    after (.powerGoodFall 2) { on with gaf := { on.gaf with good := false, rail := 1 } } (fun e => e.gaf.rail == 1) = true ∧
    after (.brownOut 3) on (fun e => !e.gaf.good && e.gaf.rail == 3) = true := by decide +kernel
theorem test_core_reset : reach on GAF_RST = true ∧
    after (.coreReset .host 0xC3A50001) { wfs on [(WDG_CTL_EN, 1)] with sup := { on.sup with sram := [(0, 5)], core := { on.sup.core with pc := 4 } } }
      (fun e => e.sup.core == Core.reset && e.sup.sram == [(0, 5)] && e.slate == 100000 && e.rf GAF_RST_CAUSE_CAUSE == 8 && e.rf GAF_RST_CAUSE_SCOPE == 1 && !e.bit WDG_CTL_EN &&
        logged on e 16 9 .warn [8, 1, 0, 0, 0]) = true ∧
    after (.coreReset .host 0xC3A40001) on (fun e => e.bit GAF_STAT_REFUSED && logged on e 16 4 .warn [0xC0, 0, 4, 0, 0]) = true ∧
    after (.systemReset .host 0x0002) on (fun e => e.bit GAF_STAT_REFUSED) = true := by decide +kernel
theorem test_boot : after .bootFallbackLoad (supDev { on.sup with boot := { on.sup.boot with phase := 2, loads := 1, slot := 1 } }
      (wfs on [(CFG_STAT_STATE, gFAILED), (NVS_BOOT_STAT_VALID, 1), (GAF_RST_CAUSE_BOOT_MODE, 0), (CFG_STAT_STATUS, 5)]))
      (fun e => e.cfgState == gHEADER && e.sup.boot.loads == 2 && e.sup.boot.slot == 0 && logged on e 3 10 .warn [1, 5, 0, 0, 0]) = true ∧
    after .bootFallbackLoad (supDev { on.sup with boot := { on.sup.boot with phase := 2, loads := 15 } }
      (wfs on [(CFG_STAT_STATE, gFAILED), (GAF_RST_CAUSE_BOOT_MODE, 1), (CFG_STAT_STATUS, 2)])) (fun e => e.sup.boot.loads == 16 && e.cfgState == gHEADER) = true ∧
    after .bootFallbackLoad (supDev { on.sup with boot := { on.sup.boot with phase := 2, loads := 16 } }
      (wfs on [(CFG_STAT_STATE, gFAILED), (GAF_RST_CAUSE_BOOT_MODE, 1), (CFG_STAT_STATUS, 2)])) (fun e => e.sup.boot.phase == 3 && e.cfg.errHigh && logged on e 3 11 .fatal [1, 2, 16, 0, 0]) = true ∧
    after .bootFallbackLoad on (fun e => e.sup.boot.phase == on.sup.boot.phase) = true := by decide +kernel
theorem test_firmware : (wfs on []).storeBytes fwBase 16 = List.replicate 16 0 ∧ on.domainUp 2 = true ∧ on.pagesRead fwBase 16 [] = (none, on) ∧
    fwBad (leBytes 4 0x46574D52 ++ leBytes 4 458756 ++ leBytes 8 0) [] = some 1 ∧ fwBad (leBytes 4 0x46574D52 ++ leBytes 4 4 ++ leBytes 8 0x100004) [] = some 2 ∧
    fwBad (leBytes 4 0x46574D52 ++ leBytes 4 4 ++ leBytes 4 0x100000 ++ leBytes 4 (crc32c (leBytes 4 0x46574D52 ++ leBytes 4 4 ++ leBytes 4 0x100000 ++ [1, 2, 3, 4])).toNat) [1, 2, 3, 4] = none ∧
    after (.firmwareDescriptor []) (supDev { on.sup with boot := { on.sup.boot with phase := 3 } } on) (fun e => e.sup.boot.phase == 4 && logged on e 3 12 .error [0, 0, 0, 0, 0]) = true ∧
    sramPut [] 0 (wordsOf 1 [1, 2, 3, 4]) = [(0, 0x04030201)] := by decide +kernel
theorem test_system_reset : after (.systemReset .host 0xC3A50002) { on with sup := { on.sup with sram := [(0, 5)] } } (fun e => e.sup.sram == [] && e.slate == 100000 && e.rd GAF_SVOTE == 0x3FFFFFFF &&
    e.rf (GAF_DOMd_STAT_VOTES 29) == 1 && e.rf GAF_RST_CAUSE_CAUSE == 7 && e.rf GAF_RST_CAUSE_SCOPE == 2 && e.domState 3 == 1 && e.domState 29 == 2 && logged on e 16 9 .warn [7, 2, 0, 0, 0]) = true := by decide +kernel

end Sys2Proof.Tests
end

section
/-! SUPPORT. Accesses to the control bus that are not of an aligned word (R7): what each command of the bus does with one. -/
namespace Sys2Proof.Machine

/-! ## The commands of the control bus as accesses -/

/-- A write of a word is judged by its address; one of another width is an error at every address (R7, log entry 156). -/
theorem exec_registerWrite (rq : Requester) (a v : Word) (w : AccWidth) (env : BusEnv) (s : State) :
    exec (.registerWrite rq a v w env) s =
      if w = .word then s.putAt rq a.toNat v { env with width := w } else s.busAct Dev.err := rfl

theorem exec_holdingLowWordRead (rq : Requester) (a : Word) (w : AccWidth) (s : State) :
    exec (.holdingLowWordRead rq a w) s =
      s.busAct (fun d => d.busRead false rq a.toNat { BusEnv.clean with width := w }) := rfl

theorem exec_readClear (rq : Requester) (a counted : Word) (w : AccWidth) (s : State) :
    exec (.readClear rq a counted w) s =
      s.busAct (fun d => d.busRead false rq a.toNat { BusEnv.clean with width := w, counted := counted }) := rfl

/-- While the Slate count advances, a write is an ordinary access at every address (R415). -/
theorem State.putAt_counting (s : State) (rq : Requester) (a : Nat) (v : Word) (e : BusEnv) (h : s.dev.slate ≠ slateMax) :
    s.putAt rq a v e = s.busAct (fun d => d.busPut rq a v e) := by
  unfold State.putAt
  split
  · exact State.busTimed_runs s _ h
  · rfl

/-! ## What is not an aligned word (R7) -/

theorem Dev.busRead_misfit (d : Dev) (peek : Bool) (rq : Requester) (a : Nat) (e : BusEnv)
    (h : e.width ≠ .word ∨ a % 4 ≠ 0) : d.busRead peek rq a e = d.err := if_pos h

theorem Dev.busPut_misfit (d : Dev) (rq : Requester) (a : Nat) (v : Word) (e : BusEnv)
    (h : e.width ≠ .word ∨ a % 4 ≠ 0) : d.busPut rq a v e = d.err := if_pos h

/-- An access that is an error on a running device is one on every device: the bus of a device that does not run
answers with the same error. -/
theorem State.busAct_err (s : State) (f : Dev → Dev) (h : f s.dev = s.dev.err) :
    s.busAct f = .next { s with dev := s.dev.err } := by
  cases hl : s.dev.live with
  | true => rw [State.busAct_live s f hl, h]
  | false => exact State.busAct_dead s f hl

/-- That the count advances is used for a word write alone: the gate of a held count (R415) stands before the check of
alignment. -/
theorem exec_registerWrite_misfit (rq : Requester) (a v : Word) (w : AccWidth) (env : BusEnv) (s : State)
    (ht : s.dev.slate ≠ slateMax) (h : w ≠ .word ∨ a.toNat % 4 ≠ 0) :
    exec (.registerWrite rq a v w env) s = .next { s with dev := s.dev.err } := by
  rw [exec_registerWrite]
  split
  · rw [State.putAt_counting s rq a.toNat v _ ht]
    exact State.busAct_err s _ (Dev.busPut_misfit _ _ _ _ _ h)
  · exact State.busAct_err s _ rfl

end Sys2Proof.Machine
end

section
/-! PROOF. The accesses of R7 have no effect. -/
namespace Sys2Proof.Safety
open Sys2Proof.Machine

theorem Does.of_err {i : Instr} {s : State} (h : exec i s = .next { s with dev := s.dev.err }) :
    Does i s (fun e => e = s.dev.err) := ⟨_, h, rfl, rfl⟩

/-- Settles O5: the width and alignment are checked before anything else of an access, on a device that runs, and one that
does not run answers with the same error. -/
theorem narrowAndUnalignedAccessesHaveNoEffect : Obligations.NarrowAndUnalignedAccessesHaveNoEffect := by
  intro s rq a v w env ht h
  refine ⟨Does.of_err ?write, Does.of_err ?read, Does.of_err ?readClear⟩
  case write => exact exec_registerWrite_misfit rq a v w env s ht h
  case read =>
    rw [exec_holdingLowWordRead]
    exact State.busAct_err s _ (Dev.busRead_misfit _ _ _ _ _ h)
  case readClear =>
    rw [exec_readClear]
    exact State.busAct_err s _ (Dev.busRead_misfit _ _ _ _ _ h)

end Sys2Proof.Safety
end

section
/-! SUPPORT. The ways a command answers, whatever the device: with a next state of the same queue, or with the fault of a
held Slate count (R415). -/
namespace Sys2Proof.Machine

/-- What a command may answer on a state: another device with the same queue, or, where the count is held, its fault. -/
def Answers (s : State) (o : Out) : Prop :=
  (∃ d, o = .next { s with dev := d }) ∨ (o = .fault .slateHeld ∧ s.dev.slate = slateMax)

/-! ## The ways of answering -/

theorem Answers.of_next {s : State} {o : Out} (d : Dev) (h : o = .next { s with dev := d }) : Answers s o := .inl ⟨d, h⟩

theorem Answers.of_timed (s : State) (f : Dev → Dev) : Answers s (s.timed f) := by
  by_cases h : s.dev.slate = slateMax
  · exact .inr ⟨State.timed_held s f h, h⟩
  · exact .of_next _ (State.timed_runs s f h)

theorem Answers.of_busTimed (s : State) (f : Dev → Dev) : Answers s (s.busTimed f) := by
  by_cases h : s.dev.slate = slateMax
  · exact .inr ⟨State.busTimed_held s f h, h⟩
  · exact .of_next _ (State.busTimed_runs s f h)

theorem Answers.of_ite {s : State} {c : Prop} [Decidable c] {o p : Out} (ho : Answers s o) (hp : Answers s p) :
    Answers s (if c then o else p) := by
  split
  · exact ho
  · exact hp

theorem Answers.of_putAt (s : State) (rq : Requester) (a : Nat) (v : Word) (e : BusEnv) : Answers s (s.putAt rq a v e) :=
  .of_ite (.of_busTimed s _) (.of_next _ rfl)

/-! ## What follows from it -/

theorem Answers.next_of_counting {s : State} {o : Out} (h : Answers s o) (ht : s.dev.slate ≠ slateMax) :
    ∃ d, o = .next { s with dev := d } := h.resolve_right (fun hf => ht hf.2)

theorem Answers.ne_refused {s : State} {o : Out} (h : Answers s o) (r : Refusal) : o ≠ .refused r := by
  rintro rfl
  obtain ⟨_, hn⟩ | ⟨hf, _⟩ := h
  · cases hn
  · cases hf

theorem Answers.of_fault {s : State} {f : Fault} (h : Answers s (.fault f)) : f = .slateHeld ∧ s.dev.slate = slateMax := by
  obtain ⟨_, hn⟩ | ⟨hf, hs⟩ := h
  · cases hn
  · cases hf
    exact ⟨rfl, hs⟩

/-! ## Every command -/

/-- Only commands of Cuts, Clappers, schedules and the time of day, and writes by address that may be such a command, can
fault (R415); they are the cases named first. Every other command answers a next state on every device. -/
theorem exec_answers (i : Instr) (s : State) : Answers s (exec i s) := by
  cases i
  -- Events of those commands' own.
  case todStep | ppsOutEdge | bankStagingCheckEnd | periodBoundary | entryFetch | operationCompletion | operationIssue
      | entrySkip | successorRelease | cutSiteArm | cutSiteAck | cutConfirm | cutPrepare | cutExecute | barrierTimeout
      | clapper | report | clapperExecute | clapperOriginEnd | tamopCutUser => exact .of_timed s _
  -- Writes of their registers.
  case scheduleCutArm | scheduleCutCancel | userCutArm | cutCancel | broadcastClapper | barrierClapper | snapshotClapper
      | resetClapper | cutClapper | clapperCancel | keyCutArm | keyCutCancel | powerCutArm | powerCutCancel =>
    exact .of_busTimed s _
  case cutSlotReserve rq which v => cases which <;> exact .of_busTimed s _
  case barrierArrive src =>
    cases src with
    | write => exact .of_busTimed s _
    | site => exact .of_timed s _
  -- Writes by address, timed at some addresses, and an image's header, timed where it is a Splice's.
  case registerWrite => exact .of_ite (.of_putAt ..) (.of_next _ rfl)
  case debugWrite | tamopWr | twiWrite | imageHeader => exact .of_ite (.of_timed s _) (.of_next _ rfl)
  -- Never timed, but answering in a way of its own for each form of an operand.
  case seVsat => exact .of_ite (.of_next _ rfl) (.of_next _ rfl)
  case eventClaim t src => cases src <;> exact .of_next _ rfl
  case eventComplete t n src => cases src <;> exact .of_next _ rfl
  case voteChange src => cases src <;> exact .of_next _ rfl
  all_goals exact .of_next _ rfl

end Sys2Proof.Machine
end

section
/-! PROOF. A run ends only where the Slate count is held. -/
namespace Sys2Proof.Safety
open Sys2Proof.Machine

/-- Settles O2: the one other answer a command has is the fault of a held count. -/
theorem ordinaryDataNeverEndsARun : Obligations.OrdinaryDataNeverEndsARun := by
  intro i s ht
  obtain ⟨d, h⟩ := (exec_answers i s).next_of_counting ht
  exact ⟨{ s with dev := d }, h, rfl⟩

/-- Settles O3: that a command answers in one of two ways leaves out every refusal and every other fault; the three commands
named are timed, the tick and a read are not. -/
theorem heldCountFaultsTimedCommandsOnly : Obligations.HeldCountFaultsTimedCommandsOnly := by
  refine ⟨fun i s => (exec_answers i s).ne_refused, fun i s f hf => ?faults, fun s hs => ?timed, fun s rq a w env => ?untimed⟩
  case faults => exact Answers.of_fault (hf ▸ exec_answers i s)
  case timed => exact ⟨State.timed_held s _ hs, State.timed_held s _ hs, State.timed_held s _ hs⟩
  case untimed => exact ⟨⟨_, rfl⟩, ⟨_, exec_holdingLowWordRead rq a w s⟩⟩

end Sys2Proof.Safety
end

section
/-! SUPPORT. Reads of registers by address (R10, R31): what a read that reaches a register, and that nothing holds up, does. -/
namespace Sys2Proof.Machine
open Reg

/-- A read of the register at `a` has no effect of its own but the copy of a high word: it pops no buffer, claims no event,
clears no field and settles no count. -/
def ReadsPlainly (a : Nat) : Prop :=
  (a ≠ CTY_TODRX ∧ a ≠ MON_DATA ∧ ¬(blockOf a = 0x16 ∧ a = ETH_TXTS_TAG (macAt a)) ∧ indexAt 5 EVC_CLAIMt a = none) ∧
  ¬(blockOf a = 0x18 ∧ a = SE_XIDLE (engineAt a)) ∧
  (∀ r ∈ rowAt a, r.fields.any (fun f => f.acc == Access.rcl) = false) ∧
  indexAt 64 CSH_ENGn_STAT a = none ∧ a ≠ LNQ_Li_PBITS_LO (laneIdx a)

/-- The holding registers after a read of `a`. -/
def Dev.heldAfterRead (d : Dev) (a : Nat) : SMap Word :=
  match holdPairs a with
  | some hi => SMap.set 0 d.hold hi (d.liveWord hi)
  | none => d.hold

theorem Dev.regRead_plain (d : Dev) (a : Nat) (counted : Word) (h : ReadsPlainly a) :
    d.regRead a counted = { d with hold := d.heldAfterRead a, resp := .data (d.showWord a) } := by
  obtain ⟨⟨htod, hmon, htag, hclaim⟩, hidle, hrcl, hsched, hpbits⟩ := h
  unfold Dev.regRead Dev.heldAfterRead
  rw [if_neg htod, if_neg hmon, if_neg htag, hclaim]
  simp only [if_neg hidle, hsched, if_neg hpbits]
  cases hr : rowAt a with
  | none => cases holdPairs a <;> rfl
  | some r =>
    simp only [hrcl r hr]
    cases holdPairs a <;> rfl

/-- A register without write-only fields reads as the word it holds. -/
theorem rowRead_readable (r : RegRow) (x : Word) (h : ∀ f ∈ r.fields, f.acc ≠ .wo) : rowRead r x = x := by
  unfold rowRead
  generalize r.fields = l at h
  induction l with
  | nil => rfl
  | cons f l ih =>
    rw [List.forall_mem_cons] at h
    obtain ⟨hf, hl⟩ := h
    rw [List.foldl_cons]
    split
    · contradiction
    · exact ih hl

theorem Dev.showWord_readable (d : Dev) (a : Nat) (h : ∀ r ∈ rowAt a, ∀ f ∈ r.fields, f.acc ≠ .wo) :
    d.showWord a = if holdsHigh a then SMap.at 0 d.hold a else d.liveWord a := by
  unfold Dev.showWord
  cases hr : rowAt a with
  | none => rfl
  | some r => exact rowRead_readable r _ (h r hr)

/-! ## The Slate count (R31) -/

theorem rowAt_SLT_NOW_LO : rowAt SLT_NOW_LO = some ⟨SLT_NOW_LO, [], [⟨0, 32, .ro, 0⟩]⟩ := by decide
theorem rowAt_SLT_NOW_HI : rowAt SLT_NOW_HI = some ⟨SLT_NOW_HI, [], [⟨0, 32, .ro, 0⟩]⟩ := by decide

theorem readsPlainly_SLT_NOW_LO : ReadsPlainly SLT_NOW_LO := by
  unfold ReadsPlainly
  rw [rowAt_SLT_NOW_LO]
  decide

theorem readsPlainly_SLT_NOW_HI : ReadsPlainly SLT_NOW_HI := by
  unfold ReadsPlainly
  rw [rowAt_SLT_NOW_HI]
  decide

theorem Dev.regRead_SLT_NOW_LO (d : Dev) (counted : Word) :
    d.regRead SLT_NOW_LO counted =
      { d with hold := SMap.set 0 d.hold SLT_NOW_HI (BitVec.ofNat 32 (d.slate / 2 ^ 32)),
               resp := .data (BitVec.ofNat 32 d.slate) } := by
  have hw : d.showWord SLT_NOW_LO = BitVec.ofNat 32 d.slate :=
    (d.showWord_readable SLT_NOW_LO (by rw [rowAt_SLT_NOW_LO]; decide)).trans (if_neg (by decide))
  rw [Dev.regRead_plain d _ _ readsPlainly_SLT_NOW_LO, hw]
  rfl

theorem Dev.regRead_SLT_NOW_HI (d : Dev) (counted : Word) :
    d.regRead SLT_NOW_HI counted = { d with resp := .data (SMap.at 0 d.hold SLT_NOW_HI) } := by
  have hw : d.showWord SLT_NOW_HI = SMap.at 0 d.hold SLT_NOW_HI :=
    (d.showWord_readable SLT_NOW_HI (by rw [rowAt_SLT_NOW_HI]; decide)).trans (if_pos (by decide))
  rw [Dev.regRead_plain d _ _ readsPlainly_SLT_NOW_HI, hw]
  rfl

end Sys2Proof.Machine
end

section
/-! PROOF. The low word of the Slate count holds its high word (R31). -/
namespace Sys2Proof.Safety
open Sys2Proof.Machine Sys2Proof.Machine.Reg

/-- An access that nothing holds up is made at once (R20, R25, R40). -/
theorem Prompt.busGo {d : Dev} {rq : Requester} {a : Nat} {write : Bool} {e : BusEnv} (h : Prompt d rq a write e)
    (f : Dev → Dev) : d.busGo rq a write e f = f d := by
  obtain ⟨hlost, hbusy, hsilent, hwait⟩ := h
  simp [Dev.busGo, hlost, hbusy, hsilent, hwait]

/-- An aligned word read that reaches its register is answered by the register's block. -/
theorem Prompt.busRead_reg {d : Dev} {rq : Requester} {a : Nat} {e : BusEnv} (h : Prompt d rq a false e) (hr : Reaches d a)
    (hw : e.width = .word) (ha : a % 4 = 0) (hp : addrPlace a = .reg) (hk : regKey a = a) :
    d.busRead false rq a e = d.ok.regRead a e.counted := by
  obtain ⟨_, hrow, hbar⟩ := hr
  rw [Dev.busRead, if_neg (by simp [hw, ha]), h.busGo, Dev.busReadAt]
  simp only [hp, hk]
  exact Dev.access_open d a _ hrow hbar

/-- What a word read of the register at `a` does, on a device that it reaches. -/
theorem Does.of_read {s : State} {rq : Requester} {a : Nat} {P : Dev → Prop} (hr : Reaches s.dev a)
    (hq : Prompt s.dev rq a false BusEnv.clean) (h32 : a < 2 ^ 32) (ha : a % 4 = 0) (hp : addrPlace a = .reg)
    (hk : regKey a = a) (h : P (s.dev.ok.regRead a 0)) : Does (.holdingLowWordRead rq (BitVec.ofNat 32 a) .word) s P := by
  refine Does.of_bus (exec_holdingLowWordRead rq _ .word s) hr.1 ?_
  rw [BitVec.toNat_ofNat, Nat.mod_eq_of_lt h32]
  exact (hq.busRead_reg hr rfl ha hp hk).symm ▸ h

/-- Settles O7: a read of either word has no effect but the answer and, for the low word, the held copy. -/
theorem lowWordHoldsTheHighWord : Obligations.LowWordHoldsTheHighWord := by
  intro s rq
  constructor
  · intro hr hq
    refine Does.of_read hr hq (by decide) (by decide) (by decide) (by decide) ?_
    rw [Dev.regRead_SLT_NOW_LO]
    exact ⟨rfl, SMap.at_set_same 0 _ _ _, rfl, rfl⟩
  · intro hr hq
    refine Does.of_read hr hq (by decide) (by decide) (by decide) (by decide) ?_
    rw [Dev.regRead_SLT_NOW_HI]
    rfl

end Sys2Proof.Safety
end

section
/-! SUPPORT. From a command's known answer to what a claim says of it, and the commands of clocks and power whose claims fail:
the lock of a synthesiser (R375), the end of a ramp (R381) and the cancellation of a power Cut (R383). -/
namespace Sys2Proof.Safety
open Sys2Proof.Machine Sys2Proof.Machine.Reg

/-- What a command does holds of the state it answers. -/
theorem Does.holds {i : Instr} {s t : State} {P : Dev → Prop} (h : Does i s P) (ht : exec i s = .next t) : P t.dev := by
  obtain ⟨t', ht', _, hp⟩ := h
  cases ht.symm.trans ht'
  exact hp

theorem exec_powerCutCancel (rq : Requester) (v : Word) (s : State) (ht : Counting s.dev) (hr : Reaches s.dev GAF_CUT_CTL) :
    exec (.powerCutCancel rq v) s = .next { s with dev := s.dev.ok.gafCutWrite (v ||| 2) } :=
  let ⟨hl, hrow, hbar⟩ := hr
  State.timedWrite_open s GAF_CUT_CTL _ hl ht hrow hbar

end Sys2Proof.Safety

namespace Sys2Proof.Machine
open Reg

/-! ## The lock of a synthesiser (R375) -/

theorem exec_synthLock_unlocked (f : Fin 8) (s : State) (hl : s.dev.live = true) (hen : s.dev.bit (CKC_SYNf_CFG_EN f) = true)
    (hre : SMap.at false s.dev.gaf.synRelock f = false) (hun : s.dev.synLocked f = false) :
    exec (.synthLock f) s = .next { s with dev := s.dev.synLocks f } :=
  (State.act_live s _ hl).trans (by simp [hen, hre, hun])

theorem Dev.synLock_fab (d : Dev) (f : Nat) (b : Bool) : (d.synLock f b).fab = d.fab := by
  rw [Dev.synLock, Dev.wb_def, Dev.wf_fab]

/-- The cycles that a synthesiser has run of the tick in which it locks count as all 64: its first edge is one of the next
tick. -/
theorem Dev.synLocks_ran (d : Dev) (f : Nat) : SMap.at 0 (d.synLocks f).fab.ran f = 64 := by
  rw [Dev.synLocks, Dev.synLock_fab]
  exact SMap.at_set_same 0 d.fab.ran f 64

/-! ## The end of a ramp (R381) -/

theorem exec_rampEnd_due (p : Fin 30) (s : State) (t : Nat) (hl : s.dev.live = true)
    (hs : SMap.at none s.dev.gaf.rampStart p = some t) (hr : s.dev.domState p = dRAMP) (h1 : t + rampTicks p ≤ s.dev.slate)
    (h2 : s.dev.slate ≤ t + 2 * rampTicks p) : exec (.rampEnd p) s = .next { s with dev := s.dev.rampEnd p } := by
  have he : exec (.rampEnd p) s = execRampEnd p s := rfl
  rw [he, execRampEnd, State.act_live s _ hl]
  simp [hs, hr, h1, h2]

/-! ## The cancellation of a power Cut (R383) -/

/-- A domain that has a vote stays up when a power Cut that names it is gone. -/
theorem Dev.powerCutGone_voted (d : Dev) (k p : Nat) (h : d.rf (GAF_DOMd_STAT_VOTES p) ≠ 0) : d.powerCutGone k p = d :=
  if_neg (fun hc => h hc.2.1)

end Sys2Proof.Machine
end

section
/-! PROOF. A synthesiser that locks changes more than its lock bit (R375). -/
namespace Sys2Proof.Safety
open Sys2Proof.Machine Sys2Proof.Machine.Reg

/-- The device after reset with synthesiser 0 enabled at 2 cycles a tick, and not locked yet. -/
def synthEnabled : Dev := Dev.reset.wr (CKC_SYNf_CFG 0) 0x80010002

theorem synthEnabled_waits_to_lock : synthEnabled.live = true ∧ synthEnabled.bit (CKC_SYNf_CFG_EN 0) = true ∧
    SMap.at false synthEnabled.gaf.synRelock 0 = false ∧ synthEnabled.synLocked 0 = false := by decide +kernel

/-- Refutes O55: SYNTH_LOCK sets the lock bit and also counts the cycles of the present tick as run, which the statement,
an equation of whole devices, leaves out. -/
theorem not_theClockControllerMonitorsAndGates : ¬ Obligations.TheClockControllerMonitorsAndGates := by
  unfold Obligations.TheClockControllerMonitorsAndGates
  intro h
  let s : State := { dev := synthEnabled, pending := [] }
  obtain ⟨_, _, hsynth, _⟩ := h s .host 0
  obtain ⟨_, hlive⟩ := hsynth 0
  obtain ⟨hl, hen, hre, hun⟩ := synthEnabled_waits_to_lock
  obtain ⟨hlock, _⟩ := hlive hl
  have same : s.dev.synLocks 0 = s.dev.synLock 0 true :=
    (hlock hen hre).holds (exec_synthLock_unlocked 0 s hl hen hre hun)
  have ran : SMap.at 0 (s.dev.synLock 0 true).fab.ran 0 = 64 := same ▸ s.dev.synLocks_ran 0
  rw [Dev.synLock_fab] at ran
  exact absurd ran (by decide)

end Sys2Proof.Safety
end

section
/-! PROOF. The record of a ramp's end need not keep its place (R45, R364, R381). -/
namespace Sys2Proof.Safety
open Sys2Proof.Machine Sys2Proof.Machine.Reg

/-- The device after a FULL reset to which a debugger has attached, on the tick on which P1's ramp count has gone by. -/
def attachedRamp : Dev :=
  { Dev.reset with slate := 2048, sup := { Sup.reset with dbg := { Dbg.reset with attach := true } } }

/-- GAF 0x01 of P1's ramp in it: P1 has one vote. -/
def rampRecord : BitVec 128 := record 2048 0x10 0x01 Sev.info.code [1, 1, 0, 0, 0]

theorem attachedRamp_ramp_due : attachedRamp.live = true ∧ SMap.at none attachedRamp.gaf.rampStart 1 = some 0 ∧
    attachedRamp.domState 1 = dRAMP ∧ attachedRamp.rf (GAF_DOMd_STAT_VOTES 1) = 1 := by decide +kernel

/-- The ring takes every record and has room for it; the place of the next is 1. -/
theorem attachedRamp_takes_rampRecord : min (attachedRamp.rf DLY_CTL_MIN_SEV) 4 ≤ Sev.info.code ∧
    attachedRamp.rf DLY_STAT_COUNT < 2048 ∧ attachedRamp.recPlace rampRecord = 1 := by decide +kernel

/-- The core that the reset leaves halted logs MON 0x02, of class 7, on the tick of GAF 0x01, of class 8, and so goes before
it. -/
theorem rampEnd_attached_puts_halt_first : SMap.at 0 (attachedRamp.rampEnd 1).hub.dailies 1 =
    record 2048 0x12 0x02 Sev.info.code [3, 0, 0, 0, 0] := by decide +kernel

/-- Refutes O56: with ATTACH set, the end of P1's first ramp halts the core at its reset vector, and the record of that halt
takes the place at which the statement has GAF 0x01. -/
theorem not_domainsRampRunAndDrainByVotes : ¬ Obligations.DomainsRampRunAndDrainByVotes := by
  unfold Obligations.DomainsRampRunAndDrainByVotes
  intro h
  let s : State := { dev := attachedRamp, pending := [] }
  obtain ⟨_, _, hruns⟩ := h s .host 0 1
  obtain ⟨hl, hstart, hramp, hvotes⟩ := attachedRamp_ramp_due
  obtain ⟨hsev, hroom, hplace⟩ := attachedRamp_takes_rampRecord
  obtain ⟨_, hramps, _⟩ := hruns hl
  obtain ⟨hend, _⟩ := hramps 0 hstart hramp
  have h1 : 0 + rampTicks 1 ≤ attachedRamp.slate := by decide
  have h2 : attachedRamp.slate ≤ 0 + 2 * rampTicks 1 := by decide
  obtain ⟨_, _, hlogs⟩ := (hend h1 h2).holds (exec_rampEnd_due 1 s 0 hl hstart hramp h1 h2)
  have stands : SMap.at 0 (attachedRamp.rampEnd 1).hub.dailies (attachedRamp.recPlace rampRecord) = rampRecord := by
    have := hlogs hsev hroom
    simp only [s, Fin.val_one, hvotes] at this
    exact this
  rw [hplace, rampEnd_attached_puts_halt_first] at stands
  exact absurd stands (by decide)

end Sys2Proof.Safety
end

section
/-! PROOF. Nothing binds the target of a power Cut to a domain (R383). -/
namespace Sys2Proof.Safety
open Sys2Proof.Machine Sys2Proof.Machine.Reg

/-- GAF_CUT_CTL names slot 1, which holds a POWER_ON Cut of target 38. No request arms a Cut of that target, but the
statement takes every state; GAF_DOMd_STAT of 38 lies at the address of GAF_CUT_CTL, so SLOT = 1 shows there as RAMP,
with no vote. -/
def strayCut : Dev := (Dev.reset.wr GAF_CUT_CTL 0x100).setCut 1 (armedSlot kPOWERON 38 5000)

/-- The slot as the cancellation leaves it. -/
def strayCancelled : CutSlot := { armedSlot kPOWERON 38 5000 with state := .failed, status := stABORT }

/-- The device after the write of DOMAIN = 1 and CANCEL and the failure of the Cut. -/
def strayFailed : Dev := (strayCut.ok.plainWrite GAF_CUT_CTL (8 ||| 2)).failCut 1 stABORT false

theorem strayCut_reaches_GAF_CUT_CTL : Counting strayCut ∧ Reaches strayCut GAF_CUT_CTL := by
  unfold Counting Reaches
  decide +kernel

theorem strayCut_cancellable : strayCut.rf GAF_CUT_CTL_SLOT = 1 ∧ strayCut.cut 1 = armedSlot kPOWERON 38 5000 ∧
    strayCut.cancellable 1 = true ∧ strayCut.rf (GAF_DOMd_STAT_VOTES 38) = 0 ∧
    (strayCut.setCut 1 strayCancelled).onCutNames 38 = false ∧ strayCut.domState 38 = dRAMP := by decide +kernel

/-- After the write, DOMAIN = 1 shows as votes of 38. -/
theorem strayFailed_voted : strayFailed.rf (GAF_DOMd_STAT_VOTES 38) = 8 := by decide +kernel

theorem strayCut_write : strayCut.ok.gafCutWrite (8 ||| 2) = strayFailed.powerCutGone kPOWERON 38 := by decide +kernel

/-- Refutes O57: the write that cancels a POWER_ON Cut of target 38 gives 38 votes, so the Cut takes nothing down, where the
statement has 38 enter DOWN. -/
theorem not_powerCutsSleepWakeAndRelease : ¬ Obligations.PowerCutsSleepWakeAndRelease := by
  unfold Obligations.PowerCutsSleepWakeAndRelease
  intro h
  let s : State := { dev := strayCut, pending := [] }
  obtain ⟨_, hcancel, _⟩ := h s .host 8
  obtain ⟨ht, hr⟩ := strayCut_reaches_GAF_CUT_CTL
  obtain ⟨hslot, hcut, hopen, hvotes, hnames, hramp⟩ := strayCut_cancellable
  obtain ⟨_, hon, _⟩ := hcancel ht hr (by decide)
  have htarget : (armedSlot kPOWERON 38 5000).target = 38 := rfl
  simp only [s, hslot, hcut, htarget] at hon
  obtain ⟨_, hdown⟩ := hon rfl hopen
  have down : strayFailed = strayFailed.domainDown 38 6 := calc
    strayFailed = strayFailed.powerCutGone kPOWERON 38 :=
      (Dev.powerCutGone_voted _ _ _ (by simp [strayFailed_voted])).symm
    _ = s.dev.ok.gafCutWrite (8 ||| 2) := strayCut_write.symm
    _ = strayFailed.domainDown 38 6 :=
      (hdown hvotes hnames hramp).holds (exec_powerCutCancel .host 8 s ht hr)
  have marks : strayFailed.marks = (strayFailed.domainDown 38 6).marks := congrArg Dev.marks down
  exact absurd marks (by decide +kernel)

end Sys2Proof.Safety
end

section
/-! SUPPORT. A command is judged by two claims at once; what a SYSTEM reset and the ROM's next load come to; and a sparse
memory at a key that it does not list. -/
namespace Sys2Proof.Safety
open Sys2Proof.Machine Sys2Proof.Machine.Reg

/-- Two claims of what one command does are claims of the same device. -/
theorem Does.both {i : Instr} {s : State} {P Q : Dev → Prop} (hp : Does i s P) (hq : Does i s Q) : ∃ e, P e ∧ Q e :=
  let ⟨t, ht, _, hpt⟩ := hp
  ⟨t.dev, hpt, hq.holds ht⟩

/-- What the ROM does once its load has failed and CLEARING has ended (R394). -/
theorem Does.of_bootFallback {d : Dev} {q : List Instr} {P : Dev → Prop} (hl : d.live = true) (hrun : d.coreRuns = true)
    (hphase : d.sup.boot.phase = 2) (hfail : d.cfgState = gFAILED) (h : P d.bootFallback) :
    Does .bootFallbackLoad { dev := d, pending := q } P :=
  Does.of_act rfl hl (by simpa [hrun, hphase, hfail] using h)

/-- What a write of GAF_RST that asks for a SYSTEM reset does (R397). -/
theorem Does.of_systemReset {d : Dev} {q : List Instr} {rq : Requester} {v : Word} {P : Dev → Prop} (hr : Reaches d GAF_RST)
    (h : P (d.ok.rstWrite (fieldSet 0 2 2 v))) : Does (.systemReset rq v) { dev := d, pending := q } P :=
  Does.of_write rfl hr h

end Sys2Proof.Safety

namespace Sys2Proof.Machine

/-- A key that is not listed reads as its default. -/
theorem SMap.get_of_not_mem {α : Type} (dflt : Nat → α) (m : SMap α) (k : Nat) (h : k ∉ m.map (·.1)) :
    SMap.get dflt m k = dflt k := by
  have unlisted : m.find? (fun p => p.1 == k) = none := by
    rw [List.find?_eq_none]
    rintro p hp he
    exact h (List.mem_map.mpr ⟨p, hp, by simpa using he⟩)
  rw [SMap.get, unlisted]

end Sys2Proof.Machine
end

section
/-! PROOF. The state after reset (R392, R396 to R398). -/
namespace Sys2Proof.Safety
open Sys2Proof.Machine Sys2Proof.Machine.Reg

theorem devFormed_reset : DevFormed Dev.reset := by
  unfold DevFormed
  decide +kernel

/-- The domains that may be voted ramp on the supervisor's vote, isolated; P0 and P28 are ON without one (R380, R392). -/
theorem domains_reset : ∀ p : Fin 30,
    if votable p then
      Dev.reset.domState p = dRAMP ∧ Dev.reset.bit (GAF_DOMd_STAT_ISOLATED p) = true ∧ Dev.reset.rf (GAF_DOMd_STAT_VOTES p) = 1
    else Dev.reset.domState p = dON ∧ Dev.reset.rf (GAF_DOMd_STAT_VOTES p) = 0 := by decide +kernel

/-- The loader, the Splice controller, the store and the scheduler are idle. -/
theorem blocks_idle_reset : Dev.reset.cfgState = 0 ∧ Dev.reset.splState = 0 ∧ Dev.reset.nstate = nIDLE ∧
    Dev.reset.rf CSH_STAT_STATE = 0 := by decide +kernel

/-- The cause of the reset, and D4 on D0 (R379, R398). -/
theorem cause_reset : Dev.reset.rf GAF_RST_CAUSE_CAUSE = 1 ∧ Dev.reset.rf GAF_RST_CAUSE_SCOPE = 3 ∧
    Dev.reset.bit CKC_STAT_ON_RC = true ∧ Dev.reset.bit CKC_STAT_XTAL_OK = false := by decide +kernel

/-- The ring holds the record of the reset alone. -/
theorem record_reset : Dev.reset.rf DLY_STAT_COUNT = 1 ∧
    SMap.at 0 Dev.reset.hub.dailies 0 = record 0 0x10 0x09 Sev.warn.code [1, 3, 0, 0, 0] := by decide +kernel

/-- Settles O60: each part by evaluation of the state after reset, but for the registers that it does not list. -/
theorem resetLeavesTheDeviceStarting : Obligations.ResetLeavesTheDeviceStarting := by
  obtain ⟨hcfg, hspl, hnvs, hcsh⟩ := blocks_idle_reset
  obtain ⟨hcause, hscope, hrc, hxtal⟩ := cause_reset
  obtain ⟨hcount, hrec⟩ := record_reset
  exact ⟨rfl, fun _ hi => absurd hi List.not_mem_nil, devFormed_reset, rfl, rfl, rfl, rfl, hcfg, hspl, hnvs, hcsh, hcause, hscope,
    hrc, hxtal, hcount, hrec, domains_reset, SMap.get_of_not_mem resetWord Dev.resetRegs⟩

end Sys2Proof.Safety
end

section
/-! PROOF. A SYSTEM reset keeps what the scheduler's memory holds, poison bits included (R398, Table MEM-7). -/
namespace Sys2Proof.Safety
open Sys2Proof.Machine Sys2Proof.Machine.Reg

/-- The device after a FULL reset whose Call Sheet memory then had entry 0 stored with its poison bit, as a March run leaves an
entry whose saved word it could not correct (Table MEM-7). -/
def poisonedSheet : Dev := { Dev.reset with csh := { Csh.reset with poison := [(0, true)] } }

theorem poisonedSheet_reaches_GAF_RST : Reaches poisonedSheet GAF_RST := by
  unfold Reaches
  decide +kernel

/-- GAF_RST is written with its key and SCOPE 2. -/
theorem rstWrite_keeps_poison : (poisonedSheet.ok.rstWrite (fieldSet 0 2 2 0xC3A50000)).csh.poison = [(0, true)] := by
  decide +kernel

theorem systemReset_keeps_poison : Does (.systemReset .host 0xC3A50000) { dev := poisonedSheet, pending := [] }
    (fun e => e.csh.poison = [(0, true)]) :=
  Does.of_systemReset poisonedSheet_reaches_GAF_RST rstWrite_keeps_poison

/-- Refutes O58: a SYSTEM reset keeps the entries of the Call Sheet memory with their poison bits, where the statement has
every part of the scheduler but the entries as after reset. -/
theorem not_resetsClearAndKeep : ¬ Obligations.ResetsClearAndKeep := by
  unfold Obligations.ResetsClearAndKeep
  intro h
  obtain ⟨_, _, _, _, _, _, _, hrst⟩ :=
    h { dev := poisonedSheet, pending := [] } .host 0xC3A50000 Gaf.reset.straps rfl rfl
  obtain ⟨hkey, _⟩ := hrst poisonedSheet_reaches_GAF_RST
  obtain ⟨hsystem, _⟩ := hkey (by decide)
  obtain ⟨e, ⟨_, _, hcsh, _⟩, kept⟩ := hsystem.both systemReset_keeps_poison
  have cleared : e.csh.poison = [] := congrArg Csh.poison hcsh
  exact absurd (kept.symm.trans cleared) (by decide)

end Sys2Proof.Safety
end

section
/-! PROOF. The regions of a Splice in the model's state are any numbers, and those of one lie on DLY_STAT (R45, R324, R394). -/
namespace Sys2Proof.Safety
open Sys2Proof.Machine Sys2Proof.Machine.Reg

/-- A Splice of region 0x4DFF0 alone. -/
def strayImage : Image := { Image.start 3 0 0 0 0 0 with regions := [0x4DFF0] }

/-- The core runs the ROM, whose first load, of slot 1 as the boot record says, has failed, CLEARING ended; PREV is slot 0.
The ring is empty with HEAD at 0x405 and WATERMARK 1. A Splice of region 0x4DFF0 is in progress: no header names such a
region, but the statement takes every state, and SPL_REGr_STAT of that region lies at the address of DLY_STAT. -/
def strayBoot : Dev :=
  let d := ((((Dev.reset.wr (GAF_DOMd_STAT 1) 0x201).wr DLY_STAT 0x405).wf DLY_CTL_WATERMARK 1).wf CFG_STAT_STATE gFAILED).wf
    NVS_BOOT_STAT_VALID 1
  { d with sup := { Sup.reset with boot := { Boot.reset with phase := 2, loads := 1, slot := 1 } },
           cfg := { d.cfg with splice := some strayImage } }

theorem strayBoot_due : strayBoot.live = true ∧ strayBoot.coreRuns = true ∧ strayBoot.cfgState = gFAILED ∧ strayBoot.bootMode = 0 ∧
    strayBoot.bit NVS_BOOT_STAT_VALID = true ∧ strayBoot.rf NVS_BOOT_STAT_PREV = 0 ∧ strayBoot.rf CFG_STAT_STATUS = 0 := by
  decide +kernel

/-- CFG 0x0A of the fallback: the failed slot, its status and the slot that is loaded next. -/
def fallbackRecord : BitVec 128 := record 0 0x03 0x0A Sev.warn.code [1, 0, 0, 0, 0]

/-- The ring takes every record and has room; the place of the next is 0x405. -/
theorem strayBoot_takes_fallbackRecord : min (strayBoot.rf DLY_CTL_MIN_SEV) 4 ≤ Sev.warn.code ∧
    strayBoot.rf DLY_STAT_COUNT < 2048 ∧ strayBoot.recPlace fallbackRecord = 0x405 := by decide +kernel

/-- CFG 0x0A, DLY 0x01 and SPL 0x04 bring HEAD to 0x408; the region, aborted, isolated and unloaded, brings it back to 0x405,
and CFG 0x08 of the load stands there. -/
theorem bootFallback_overwrites_fallbackRecord : SMap.at 0 strayBoot.bootFallback.hub.dailies 0x405 =
    record 0 0x03 0x08 Sev.info.code [0, 0, 0, 0, 0] := by decide +kernel

theorem bootFallbackLoad_overwrites_fallbackRecord : Does .bootFallbackLoad { dev := strayBoot, pending := [] }
    (fun e => SMap.at 0 e.hub.dailies 0x405 = record 0 0x03 0x08 Sev.info.code [0, 0, 0, 0, 0]) :=
  have ⟨hl, hrun, hfail, _⟩ := strayBoot_due
  Does.of_bootFallback hl hrun rfl hfail bootFallback_overwrites_fallbackRecord

/-- Refutes O59: the fallback load ends the Splice in progress, and where that names a region beyond the 64, its ending may
write over DLY_STAT, so that the record of the load takes the place of CFG 0x0A. -/
theorem not_theBootRomFallsBackAndReadsFirmware : ¬ Obligations.TheBootRomFallsBackAndReadsFirmware := by
  unfold Obligations.TheBootRomFallsBackAndReadsFirmware
  intro h
  obtain ⟨hl, hrun, hfail, hmode, hvalid, hprev, hstatus⟩ := strayBoot_due
  obtain ⟨hsev, hroom, hplace⟩ := strayBoot_takes_fallbackRecord
  obtain ⟨hrom, _⟩ := h { dev := strayBoot, pending := [] } hl
  obtain ⟨hstore, _⟩ := hrom hrun rfl hfail rfl rfl
  have hother : strayBoot.rf NVS_BOOT_STAT_PREV ≠ strayBoot.sup.boot.slot := by
    rw [hprev]
    decide
  obtain ⟨e, ⟨_, _, _, hlogs⟩, overwritten⟩ := (hstore hmode rfl hvalid hother).both bootFallbackLoad_overwrites_fallbackRecord
  have stands : SMap.at 0 e.hub.dailies (strayBoot.recPlace fallbackRecord) = fallbackRecord := by
    have := hlogs hsev hroom
    simp only [hprev, hstatus] at this
    exact this
  rw [hplace, overwritten] at stands
  exact absurd stands (by decide)

end Sys2Proof.Safety
end
